-- ==== Sys2Proof/Word.lean ====
section
/-! DEFINITION. The word types of the KX-32 block: bytes, register words, times and sparse tables.
Registers are 32 bits wide (R351), raw time is a 64-bit count (R206), frames are bytes (R86). -/

namespace Sys2Proof

/-- One byte of a frame, a packet or the process image. -/
abbrev Byte := BitVec 8

/-- One BAR0 register or BAR2 dword (R351). -/
abbrev Word := BitVec 32

/-- A raw time in ticks of 0.8 ns (R206). -/
abbrev Raw := BitVec 64

/-- A sparse table: the listed keys rise strictly and no listed value is the table's default.
The operations and the default of each table stand in `Machine/Ops.lean`. -/
abbrev Tab (α : Type) := List (Nat × α)

end Sys2Proof
end

