-- ==== Sys2Proof/Syntax.lean ====
section
/-! DEFINITION. The syntax of the block: one constructor of `Instr` for each row of the spec's
table, with the row's operands. A row that is a command of a host context carries the command's
header (R330); a row that is an event of the line, of time or of a pin carries what arrives or is
measured outside the block. The table gives no row a bit encoding. -/

namespace Sys2Proof

/-- What the header of a command packet gives the firmware (R330): the context that sent it, the
tag, and the flags ACKREQ and EXPERT (R331). -/
structure CmdHdr where
  ctx    : Nat
  tag    : Nat
  ackreq : Bool
  expert : Bool
deriving DecidableEq, Repr

/-- The parameters of FDB_INSERT and one operation of FDB_BATCH (R151, R156). -/
structure FdbOp where
  delete : Bool
  flags  : Nat
  fid    : Nat
  mac    : Nat
  dest   : Word
deriving DecidableEq, Repr

/-- A VLAN table entry (R143). -/
structure VlanEntry where
  member : Word := 0
  untag  : Word := 0
  fid    : Nat := 0
  valid  : Bool := false
deriving DecidableEq, Repr

/-- The line of an egress port about the target of a launch (R184): `edge` is a boundary of its beats, blocks or code groups
at or before the target, at the reference plane, in 1/1280 tick of raw time; `toMark` counts the boundaries from it to the next
MARK position, 0 where it is one. -/
structure LineEdge where
  port   : Nat
  edge   : Nat
  toMark : Nat
deriving DecidableEq, Repr

/-- A stream table entry (R157). -/
structure StreamEntry where
  dmac     : Nat := 0
  vid      : Nat := 0
  valid    : Bool := false
  macKey   : Bool := false
  hintKey  : Bool := false
  inPort   : Nat := 0
  window   : Nat := 0
  egress   : Word := 0
  deadline : Nat := 0
  slot     : Nat := 0
  slotEn   : Bool := false
deriving DecidableEq, Repr

/-- A gate entry of a cycle table (R174); a duration of 0 marks it invalid. -/
structure GateEntry where
  offset   : Nat := 0
  duration : Nat := 0
  mask     : Byte := 0
deriving DecidableEq, Repr

/-- The configuration of an outbound slot (R181). -/
structure OSlotCfg where
  stream  : Nat := 0
  valid   : Bool := false
  size    : Nat := 0
  poff    : Nat := 0
  launch  : Nat := 0
  rep     : Bool := false
  flagPos : Nat := 0
  seqPos  : Nat := 0
deriving DecidableEq, Repr

/-- The configuration of an inbound slot (R188). -/
structure ISlotCfg where
  size   : Nat := 0
  inOff  : Nat := 0
  poff   : Nat := 0
  valid  : Bool := false
  seqPos : Nat := 0
deriving DecidableEq, Repr

/-- A beat of a native line (R26): its type bit (1 for a control beat) and its payload. -/
structure Beat where
  ctl     : Bool
  payload : Word
deriving DecidableEq, Repr

/-- Where a received beat stands (R31): between frames, inside a frame of a class after its SOF, or inside a message. -/
inductive Place
  | gap
  | frame (cls : Nat)
  | message
deriving DecidableEq, Repr

/-- A receive instant as the port measures it (R249, R250): the coarse instant of the received beat boundary at the
deserialiser in 1/256 tick, and the fitted receive-minus-transmit phase there in 1/64 ps. -/
structure RxStamp where
  at_   : Nat
  phase : Nat := 0
deriving DecidableEq, Repr

/-- How a received frame ended on its line: with EOF, with ABORT and its reason (R29), or ended as
bad by the line itself (R96). -/
inductive FrameEnd
  | eof
  | abort (reason : Nat)
  | lineBad
deriving DecidableEq, Repr

/-- A frame as it arrives at a port: its bytes through the FCS (R86), the class and the hint of its
SOF beat on a native port (R29), how it ended, the coarse instant of its first bit at the deserialiser and the fitted phase
there (R249, R250), the egress ports on which the first bit of a cut-through copy had left before the frame's end was judged,
and the instant in 1/256 tick at which it had left each serialiser (R207). `symErr` counts, on an STD or M port, the invalid
code groups or symbols, LPI codes, /C/ sets and BEACONs received since the frame before (R61, R81, R102). -/
structure RxFrame where
  bytes   : List Byte
  sofCls  : Nat
  hint    : Nat
  ending  : FrameEnd
  ts      : Raw
  sub     : Byte
  started : Word
  left    : List (Nat × Nat) := []
  phase   : Nat := 0
  symErr  : Nat := 0
deriving DecidableEq, Repr

/-- A ring descriptor as the host posts it (R107, R109): the address and the length of its buffer, the fields of a TX one,
bytes 16 to 31 as the host left them; `data` is what the host's buffer holds. -/
structure Desc where
  addr     : Nat := 0
  len      : Nat
  ctl      : Byte
  cls      : Nat
  portMask : Word
  data     : List Byte
  rest     : List Byte := []
deriving DecidableEq, Repr

/-- A reading of one sensor: `none` when the sensor does not answer (R381). -/
abbrev Reading := Option Nat

/-- One round of sensor readings (R381): die and engine temperatures and the oven in 1/256 °C,
feeds, bus and rails in mV and mA, and the optical figures of each F port. -/
structure Sensors where
  temps : List Reading
  oven  : Reading
  feedA : Nat
  feedAma : Nat
  feedB : Nat
  feedBma : Nat
  bus   : Nat
  busMa : Nat
  rails : List Reading
  opt   : List (Nat × Nat × Nat)
deriving DecidableEq, Repr

/-- The domain fields of a RESP message for one domain (R243): the network tick count and the
remainder in 2^-16 tick. -/
structure RespDom where
  valid : Bool
  n     : Nat
  f     : Nat
deriving DecidableEq, Repr

/-- A RESP message as received (R243). -/
structure RespMsg where
  echo : Nat
  fine : Bool
  t2   : Raw
  t2f  : Nat
  t3   : Raw
  t3f  : Nat
  a    : RespDom
  b    : RespDom
deriving DecidableEq, Repr

/-- An INFO message (R247). -/
structure InfoMsg where
  domNum   : Nat := 0
  which    : Nat := 0
  gmId     : Nat := 0
  prio1    : Nat := 0
  prio2    : Nat := 0
  cls      : Nat := 0
  accuracy : Nat := 0
  steps    : Nat := 0
  traceable : Bool := false
  freqTraceable : Bool := false
  ptpTimescale : Bool := false
  holdover : Bool := false
  locked   : Bool := false
  utcValid : Bool := false
  leap61   : Bool := false
  leap59   : Bool := false
  utcOffset : Int := 0
deriving DecidableEq, Repr

/-- The kinds of PTP message of R228. -/
inductive PtpKind
  | sync | followUp | delayReq | delayResp | pdelayReq | pdelayResp | pdelayRespFollowUp
  | announce | management | other
deriving DecidableEq, Repr

/-- A PTP message as a port receives it (R228, R230): its domain number, its sequence, its two-step flag, the
time it carries and its correction in 2^-32 ns, the coarse instant of its timestamp point in 1/256 tick, its source port
identity, for a response the port identity it answers, the announced attributes and the path trace. -/
structure PtpMsg where
  kind    : PtpKind
  domain  : Nat
  seq     : Nat
  twoStep : Bool
  time    : Nat
  corr    : Int
  stamp   : Nat
  parent  : Nat
  info    : InfoMsg
  to_     : Nat := 0
  path    : List Nat := []
deriving DecidableEq, Repr

/-- The four optical and slicer figures of a port (R76). -/
structure Quality where
  eye    : Nat
  margin : Nat
  resid  : Nat
  time   : Nat
deriving DecidableEq, Repr

/-- A second's measurement of a reference (R273, R275): for EXTREF its frequency in uHz as counted against the OCXO, for the
others the offset against the OCXO in 1e-12; and the largest distance in ps of a comparison edge from its prediction. -/
structure RefMeas where
  value : Int
  edge  : Nat := 0
deriving DecidableEq, Repr

/-- What an error in the buffer's control state hit (R140). -/
inductive BufEcc
  | corrected
  | descriptor (queue : Nat) (cells : Nat)
  | freeList
  | blockTable
deriving DecidableEq, Repr

/-- What an error in a table hit (R170). -/
inductive TblEcc
  | corrected
  | fdb (index : Nat)
  | vlan (vid : Nat)
  | stream (index : Nat)
  | prot (pair : Nat)
deriving DecidableEq, Repr

/-- The commands of the block: every row of the spec's table. -/
inductive Instr
  /-- PORT_SET (R77). -/
  | portSet (h : CmdHdr) (port mode flags : Nat)
  /-- PORT_HALTER_GET (R60). -/
  | portHalterGet (h : CmdHdr) (port : Nat)
  /-- PORT_QUALITY_GET (R85). -/
  | portQualityGet (h : CmdHdr) (port : Nat)
  /-- PORT_FRAME_SET (R87). -/
  | portFrameSet (h : CmdHdr) (port maxfrm : Nat) (ctEn : Bool)
  /-- PORT_LINE_EXPERT_SET (R60). -/
  | portLineExpertSet (h : CmdHdr) (port : Nat) (preemptEn dozeEn : Bool) (dozeIdle capMask : Nat)
  /-- PORT_EQ_EXPERT_SET (R75). -/
  | portEqExpertSet (h : CmdHdr) (port : Nat) (tx rx dig : Word)
  /-- SWC_QUEUE_SET (R135). -/
  | swcQueueSet (h : CmdHdr) (port profile : Nat)
  /-- SWC_PCP_SET (R135). -/
  | swcPcpSet (h : CmdHdr) (port : Nat) (classes : List Nat) (defPcp : Nat)
  /-- SWC_SAMPLE_SET (R135). -/
  | swcSampleSet (h : CmdHdr) (port n dest : Nat)
  /-- SWC_STATS_GET (R135). -/
  | swcStatsGet (h : CmdHdr) (port : Nat)
  /-- SWC_QUEUE_EXPERT_SET (R135). -/
  | swcQueueExpertSet (h : CmdHdr) (port cls floor alpha spillThr : Nat) (spillEn : Bool) (dramMax quantum : Nat)
  /-- SWC_GLOBAL_EXPERT_SET (R135). -/
  | swcGlobalExpertSet (h : CmdHdr) (headroom ageSram ageDram ageC6 stage ret poolLow : Nat)
  /-- SWC_ARB_EXPERT_SET (R135). -/
  | swcArbExpertSet (h : CmdHdr) (tickets : List Nat) (seed : Word)
  /-- FDB_INSERT (R151). -/
  | fdbInsert (h : CmdHdr) (op : FdbOp)
  /-- FDB_DELETE (R168). -/
  | fdbDelete (h : CmdHdr) (fid mac : Nat)
  /-- FDB_LOOKUP (R168). -/
  | fdbLookup (h : CmdHdr) (fid mac : Nat)
  /-- FDB_FLUSH (R168). -/
  | fdbFlush (h : CmdHdr) (port : Nat) (static : Bool) (fid : Nat)
  /-- FDB_BATCH (R156). -/
  | fdbBatch (h : CmdHdr) (ops : List FdbOp)
  /-- LEARN_SET (R168). -/
  | learnSet (h : CmdHdr) (port : Nat) (en : Bool) (max : Nat)
  /-- FDB_AGE_SET (R168). -/
  | fdbAgeSet (h : CmdHdr) (time : Nat)
  /-- LEARN_READ (R150). -/
  | learnRead (h : CmdHdr) (max : Nat)
  /-- VLAN_SET (R168). -/
  | vlanSet (h : CmdHdr) (vid : Nat) (entry : VlanEntry) (pvidPorts : Word)
  /-- STREAM_SET (R158). -/
  | streamSet (h : CmdHdr) (index : Nat) (entry : StreamEntry)
  /-- STREAM_DELETE (R157). -/
  | streamDelete (h : CmdHdr) (index : Nat)
  /-- STREAM_GET (R168). -/
  | streamGet (h : CmdHdr) (index : Nat) (pendingBank : Bool)
  /-- PROT_SET (R159). -/
  | protSet (h : CmdHdr) (pair primary alternate : Nat) (enable revertive : Bool) (wtr : Nat)
  /-- PROT_GET (R168). -/
  | protGet (h : CmdHdr) (pair : Nat)
  /-- PROT_REVERT (R161). -/
  | protRevert (h : CmdHdr) (pair : Nat)
  /-- SHADOW_WRITE (R163). -/
  | shadowWrite (h : CmdHdr) (table first : Nat) (entries : List Nat)
  /-- SHADOW_CTRL (R164). -/
  | shadowCtrl (h : CmdHdr) (mode pace : Nat)
  /-- SHADOW_LOG_GET (R165). -/
  | shadowLogGet (h : CmdHdr) (max : Nat)
  /-- FDB_REHASH (R153). -/
  | fdbRehash (h : CmdHdr) (seed : Word)
  /-- REHASH_WALK_END (R153). -/
  | rehashWalkEnd
  /-- TIME_GET (R238). -/
  | timeGet (h : CmdHdr)
  /-- TIME_DOM_SET (R238). -/
  | timeDomSet (h : CmdHdr) (dom number profile : Nat)
  /-- TIME_CONVERT (R215). -/
  | timeConvert (h : CmdHdr) (raws : List Raw)
  /-- TIME_PORT_SET (R238). -/
  | timePortSet (h : CmdHdr) (port profile flags : Nat) (logSync logAnnounce logDelay : Int) (announceTmo : Nat)
  /-- TIME_PORT_GET (R238). -/
  | timePortGet (h : CmdHdr) (port : Nat)
  /-- TIME_SWITCH (R225). -/
  | timeSwitch (h : CmdHdr) (atSec : Option Nat)
  /-- TIME_SWITCH_CANCEL (R225). -/
  | timeSwitchCancel (h : CmdHdr)
  /-- TIME_DOM_RESET (R221). -/
  | timeDomReset (h : CmdHdr) (dom : Nat)
  /-- TIME_EXPERT_SET (R238). -/
  | timeExpertSet (h : CmdHdr) (slew limit servoA servoB lockA lockB : Word) (traceHold : Nat)
  /-- TIME_SWITCH_FORCE (R224). -/
  | timeSwitchForce (h : CmdHdr) (atSec : Option Nat)
  /-- TIME_EPOCH_RESET (R219). -/
  | timeEpochReset (h : CmdHdr)
  /-- TIME_LINK_SET (R264). -/
  | timeLinkSet (h : CmdHdr) (port profile : Nat) (fast noUpstream : Bool)
  /-- TIME_LINK_GET (R264). -/
  | timeLinkGet (h : CmdHdr) (port : Nat)
  /-- TIME_GM_SET (R260). -/
  | timeGmSet (h : CmdHdr) (dom flags prio1 prio2 cls accuracy : Nat) (utcOffset : Int) (initSec initNs : Nat) (initGiven : Bool)
  /-- TIME_LINK_EXPERT_SET (R264). -/
  | timeLinkExpertSet (h : CmdHdr) (port : Nat) (alpha delta : Int) (en : Bool)
  /-- CLK_REF_SET (R294). -/
  | clkRefSet (h : CmdHdr) (index rank freq : Nat) (port : Option Nat)
  /-- CLK_SELECT (R279). -/
  | clkSelect (h : CmdHdr) (mode index : Nat)
  /-- CLK_STATUS_GET (R294). -/
  | clkStatusGet (h : CmdHdr)
  /-- CLK_SWITCH_SET (R294). -/
  | clkSwitchSet (h : CmdHdr) (phaseMode wtr disagree : Nat)
  /-- CLK_DPLL_EXPERT_SET (R294). -/
  | clkDpllExpertSet (h : CmdHdr) (bw : Nat) (fastAcq : Bool)
  /-- CLK_SYN_EXPERT_SET (R294). -/
  | clkSynExpertSet (h : CmdHdr) (syn action : Nat) (force : Bool)
  /-- TIO_CLAIM (R297). -/
  | tioClaim (h : CmdHdr) (pin func index : Nat) (pol term : Bool)
  /-- TIO_RELEASE (R297). -/
  | tioRelease (h : CmdHdr) (pin : Nat)
  /-- TIO_STATUS_GET (R317). -/
  | tioStatusGet (h : CmdHdr)
  /-- IU_ALLOC (R314). -/
  | iuAlloc (h : CmdHdr)
  /-- IU_FREE (R314). -/
  | iuFree (h : CmdHdr) (unit : Nat)
  /-- IU_SET (R317). -/
  | iuSet (h : CmdHdr) (unit : Nat) (cfg window : Word)
  /-- IU_ARM (R299). -/
  | iuArm (h : CmdHdr) (unit : Nat)
  /-- IU_READ (R307). -/
  | iuRead (h : CmdHdr) (unit max : Nat)
  /-- IU_CALIBRATE (R306). -/
  | iuCalibrate (h : CmdHdr) (unit : Nat)
  /-- IU_CALIBRATION_END (R305). -/
  | iuCalibrationEnd (unit inlStart inlStop temp : Nat)
  /-- TG_ALLOC (R314). -/
  | tgAlloc (h : CmdHdr)
  /-- TG_FREE (R314). -/
  | tgFree (h : CmdHdr) (gen : Nat)
  /-- TG_ARM (R313). -/
  | tgArm (h : CmdHdr) (gen sec ns frac period count width dest : Nat)
  /-- TG_DISARM (R313). -/
  | tgDisarm (h : CmdHdr) (gen : Nat)
  /-- TG_STATUS_GET (R317). -/
  | tgStatusGet (h : CmdHdr) (gen : Nat)
  /-- TG_EXPERT_SET (R317). -/
  | tgExpertSet (h : CmdHdr) (gen : Nat) (target : Raw) (fine period count width dest : Nat)
  /-- CYC_START_SET (R205). -/
  | cycStartSet (h : CmdHdr) (gen : Nat) (timing : Option (Nat × Int))
  /-- CYC_TABLE_SET (R205). -/
  | cycTableSet (h : CmdHdr) (port : Nat) (entries : List (Nat × GateEntry))
  /-- CYC_OSLOT_SET (R181). -/
  | cycOslotSet (h : CmdHdr) (slot : Nat) (cfg : OSlotCfg) (template : List Byte)
  /-- CYC_ISLOT_SET (R188). -/
  | cycIslotSet (h : CmdHdr) (slot : Nat) (cfg : ISlotCfg)
  /-- CYC_STAGE_GET (R205). -/
  | cycStageGet (h : CmdHdr)
  /-- CYC_STATUS_GET (R205). -/
  | cycStatusGet (h : CmdHdr)
  /-- CYC_PERIOD_STAGE (R205). -/
  | cycPeriodStage (h : CmdHdr) (period : Nat)
  /-- CYC_PI_WRITE (R180). -/
  | cycPiWrite (h : CmdHdr) (slot offset : Nat) (data : List Byte) (seq : Word)
  /-- CYC_PI_READ (R180). -/
  | cycPiRead (h : CmdHdr) (inbound : Bool) (slot offset len : Nat)
  /-- CYCLE_COMMIT (R195). -/
  | cycleCommit (h : CmdHdr) (k : Nat) (share hash : Word) (immediate : Bool)
  /-- CYCLE_CANCEL (R196). -/
  | cycleCancel (h : CmdHdr)
  /-- CYC_DISCARD (R192). -/
  | cycDiscard (h : CmdHdr) (streams : Bool)
  /-- CYCLE_COMMIT_FORCE (R195). -/
  | cycleCommitForce (h : CmdHdr) (k : Nat) (hash : Word) (immediate : Bool)
  /-- COMMIT_MISMATCH_CHECK (R198). -/
  | commitMismatchCheck
  /-- SYS_GET (R409). -/
  | sysGet (h : CmdHdr)
  /-- SENSOR_GET (R409). -/
  | sensorGet (h : CmdHdr)
  /-- UPDATE_BEGIN (R397). -/
  | updateBegin (h : CmdHdr) (length : Nat)
  /-- UPDATE_ERASE_DONE (R397). -/
  | updateEraseDone
  /-- UPDATE_DATA (R397). -/
  | updateData (h : CmdHdr) (offset : Nat) (data : List Byte)
  /-- UPDATE_COMMIT (R397). -/
  | updateCommit (h : CmdHdr) (restart : Bool)
  /-- UPDATE_VERIFY_DONE (R398). -/
  | updateVerifyDone (sigOk : Bool)
  /-- UPDATE_ABORT (R397). -/
  | updateAbort (h : CmdHdr)
  /-- UPDATE_STATUS_GET (R397). -/
  | updateStatusGet (h : CmdHdr)
  /-- CFG_SAVE (R393). -/
  | cfgSave (h : CmdHdr)
  /-- CFG_BOARD_SET (R409). -/
  | cfgBoardSet (h : CmdHdr) (entry : List Byte)
  /-- CFG_FACTORY (R409). -/
  | cfgFactory (h : CmdHdr)
  /-- STORE_STATUS_GET (R409). -/
  | storeStatusGet (h : CmdHdr)
  /-- LOG_READ (R409). -/
  | logRead (h : CmdHdr) (first max : Nat)
  /-- LOG_SET (R396). -/
  | logSet (h : CmdHdr) (mask : BitVec 256)
  /-- FEED_FORCE (R385). -/
  | feedForce (h : CmdHdr) (sel : Nat)
  /-- STORE_WRITE_DONE (R393). -/
  | storeWriteDone
  /-- REG_READ (R335). -/
  | regRead (h : CmdHdr) (addr count : Nat)
  /-- REG_WRITE (R335). -/
  | regWrite (h : CmdHdr) (writes : List (Nat × Word))
  /-- EVT_GET (R371). -/
  | evtGet (h : CmdHdr)
  /-- EVT_CLEAR (R371). -/
  | evtClear (h : CmdHdr) (bits : List Word)
  /-- EVT_MASK_SET (R371). -/
  | evtMaskSet (h : CmdHdr) (masks : List Word) (cfg : Word)
  /-- EVT_ROUTE_SET (R371). -/
  | evtRouteSet (h : CmdHdr) (first : Nat) (routes : List Nat)
  /-- FREEZE (R403). -/
  | freeze (h : CmdHdr)
  /-- CTX_NOP (R348). -/
  | ctxNop (h : CmdHdr)
  /-- LEVEL_SET (R335). -/
  | levelSet (h : CmdHdr) (level complement : Nat)
  /-- ROLE_SET (R337). -/
  | roleSet (h : CmdHdr) (target role : Nat)
  /-- CTX_GET (R348). -/
  | ctxGet (h : CmdHdr) (target : Nat)
  /-- CTX_BIND (R327). -/
  | ctxBind (h : CmdHdr) (target port vid mac : Nat) (unbind : Bool)
  /-- CTX_KEY_SET (R348). -/
  | ctxKeySet (h : CmdHdr) (target : Nat) (key : List Byte)
  /-- CTX_RESET (R339). -/
  | ctxReset (h : CmdHdr) (target : Nat)
  /-- REIN_TAKE (R340). -/
  | reinTake (h : CmdHdr) (lease : Nat) (reins : List Nat)
  /-- REIN_DROP (R343). -/
  | reinDrop (h : CmdHdr) (reins : List Nat)
  /-- REIN_GET (R345). -/
  | reinGet (h : CmdHdr)
  /-- OWN_SET (R338). -/
  | ownSet (h : CmdHdr) (kind first count owner : Nat)
  /-- OWN_GET (R338). -/
  | ownGet (h : CmdHdr) (kind first count : Nat)
  /-- REIN_BREAK (R343). -/
  | reinBreak (h : CmdHdr) (reins : List Nat)
  /-- LEASE_EXPIRY (R343). -/
  | leaseExpiry
  /-- HCX_DOORBELL (R322). -/
  | hcxDoorbell (c : Nat) (value : Word)
  /-- SQ_ENTRY_READ (R321). -/
  | sqEntryRead (c : Nat) (slot : List Byte)
  /-- CQ_SLOT_FREED (R323). -/
  | cqSlotFreed (c : Nat) (head : Word)
  /-- QUEUE_DMA_ERROR (R323). -/
  | queueDmaError (c : Nat) (onReply : Bool)
  /-- SPI_WRITE (R324). -/
  | spiWrite (c : Nat) (bytes : List Byte)
  /-- SPI_READ (R324). -/
  | spiRead (c clocked : Nat)
  /-- SPI_STATUS (R324). -/
  | spiStatus (c : Nat)
  /-- SPI_RESET (R324). -/
  | spiReset (c : Nat) (second : Byte)
  /-- SPI_VOID_TRANSACTION (R324). -/
  | spiVoidTransaction (c : Nat)
  /-- IN_BAND_COMMAND_FRAME (R328). -/
  | inBandCommandFrame (port : Nat) (frame : List Byte)
  /-- EVENT_FRAME_REPEAT (R369). -/
  | eventFrameRepeat (c : Nat)
  /-- PCIE_FLR (R339). -/
  | pcieFlr (c : Nat)
  /-- PCIE_LINK_LOSS (R339). -/
  | pcieLinkLoss
  /-- PERST_N_ASSERT (R386). -/
  | perstNAssert
  /-- RST_N_ASSERT (R386). -/
  | rstNAssert (ns : Nat)
  /-- SYS_RESET_MODULE_RESET (R386). -/
  | sysResetModuleReset (c : Nat) (complement : Word)
  /-- SYS_RESET_FIRMWARE_RESTART (R387). -/
  | sysResetFirmwareRestart (c : Nat) (complement : Word)
  /-- WATCHDOG_RESTART (R380). -/
  | watchdogRestart
  /-- POWER_UP (R383). -/
  | powerUp (mvA mvB : Nat)
  /-- LOSS_OF_POWER (R240). -/
  | lossOfPower
  /-- RESET_HOLD_END (R388). -/
  | resetHoldEnd (straps : BitVec 4)
  /-- BOOT (R389). -/
  | boot (sigOk0 sigOk1 : Bool)
  /-- FIRMWARE_READY (R389). -/
  | firmwareReady
  /-- BOOT_CONFIRM (R399). -/
  | bootConfirm
  /-- FRZ_N_ASSERT (R403). -/
  | frzNAssert (ns : Nat)
  /-- FREEZE_ENTER (R404). -/
  | freezeEnter
  /-- THERMAL_STOP (R382). -/
  | thermalStop (sensor : Nat)
  /-- DG_FIRST_WRITE (R362). -/
  | dgFirstWrite (c addr : Nat) (value : Word)
  /-- DG_PAIR_TIMEOUT (R9). -/
  | dgPairTimeout (c : Nat)
  /-- SYS_FREEZE_EN_WRITE (R403). -/
  | sysFreezeEnWrite (c : Nat) (complement : Word)
  /-- SYS_TAP_UNLOCK (R405). -/
  | sysTapUnlock (c : Nat) (complement : Word)
  /-- SYS_TAP_LOCK (R405). -/
  | sysTapLock (c : Nat) (complement : Word)
  /-- TSU_EPOCH_RESET (R219). -/
  | tsuEpochReset (c : Nat) (complement : Word)
  /-- MGT_FEED_FORCE (R385). -/
  | mgtFeedForce (c : Nat) (complement : Word)
  /-- MGT_LASER_OVR (R68). -/
  | mgtLaserOvr (c : Nat) (complement : Word)
  /-- MEM_STORE_ERASE (R394). -/
  | memStoreErase (c : Nat) (complement : Word)
  /-- REG_WRITE_GENERIC (R342). -/
  | regWriteGeneric (c addr : Nat) (value : Word) (fullDword : Bool)
  /-- PAIR_LO_READ (R355). -/
  | pairLoRead (c addr : Nat)
  /-- PAIR_LO_WRITE (R356). -/
  | pairLoWrite (c addr : Nat) (value : Word)
  /-- TSU_RAW_LO_READ (R213). -/
  | tsuRawLoRead (c : Nat)
  /-- TSU_GEN_READ (R213). -/
  | tsuGenRead (c dom : Nat)
  /-- FT_RAW_LO_READ (R214). -/
  | ftRawLoRead (c : Nat)
  /-- FT_GEN_READ (R214). -/
  | ftGenRead (c dom : Nat)
  /-- PORT_HALTER_RX0_READ (R56). -/
  | portHalterRx0Read (c port : Nat)
  /-- PMC_CHAIN_READ (R375). -/
  | pmcChainRead (c m : Nat)
  /-- TBL_LRN_POP (R150). -/
  | tblLrnPop (c queue : Nat)
  /-- IU_RES_POP (R307). -/
  | iuResPop (c unit : Nat)
  /-- TBL_RD_SEL (R166). -/
  | tblRdSel (c : Nat) (value : Word)
  /-- CYC_RD_SEL (R203). -/
  | cycRdSel (c : Nat) (value : Word)
  /-- PORT_COMMIT (R360). -/
  | portCommit (c port : Nat)
  /-- SWC_COMMIT (R133). -/
  | swcCommit (c : Nat)
  /-- ARB_COMMIT (R137). -/
  | arbCommit (c : Nat)
  /-- ARB_COMMIT_APPLY (R137). -/
  | arbCommitApply
  /-- PORT_ENABLE_WRITE (R85). -/
  | portEnableWrite (c port : Nat) (value : Word)
  /-- PORT_CAP_ADV_WRITE (R56). -/
  | portCapAdvWrite (c port : Nat) (value : Word)
  /-- CLK_SYN_CFG_WRITE (R288). -/
  | clkSynCfgWrite (c n : Nat) (value : Word)
  /-- SWC_SAMPLE_WRITE (R132). -/
  | swcSampleWrite (c port : Nat) (value : Word)
  /-- HCX_RING_TAIL_WRITE (R108). -/
  | hcxRingTailWrite (c ring : Nat) (value : Word) (posted : List Desc)
  /-- TX_RING_TIMEOUT (R110). -/
  | txRingTimeout (c ring : Nat)
  /-- RING_DMA_ERROR (R111). -/
  | ringDmaError (c ring : Nat)
  /-- TX_TIMESTAMP_WRITEBACK (R109). -/
  | txTimestampWriteback (c ring : Nat)
  /-- EVT_REARM_WRITE (R369). -/
  | evtRearmWrite (c : Nat)
  /-- EVENT_HOLDOFF_EXPIRY (R369). -/
  | eventHoldoffExpiry (c : Nat)
  /-- LOG_SUPPRESS_REPORT (R396). -/
  | logSuppressReport
  /-- SAVED_STATE_HOURLY_WRITE (R393). -/
  | savedStateHourlyWrite
  /-- TG_CTRL_ARM_WRITE (R313). -/
  | tgCtrlArmWrite (c gen : Nat) (value : Word)
  /-- TG_CTRL_DISARM_WRITE (R313). -/
  | tgCtrlDisarmWrite (c gen : Nat) (value : Word)
  /-- IU_CTRL_ARM (R299). -/
  | iuCtrlArm (c unit : Nat)
  /-- IU_CTRL_DISARM (R315). -/
  | iuCtrlDisarm (c unit : Nat)
  /-- IU_CTRL_FLUSH (R315). -/
  | iuCtrlFlush (c unit : Nat)
  /-- PMC_SEL_WRITE (R374). -/
  | pmcSelWrite (c m : Nat) (value : Word)
  /-- PI_PAYLOAD_WRITE (R182). -/
  | piPayloadWrite (c offset : Nat) (data : List Word)
  /-- PI_SEQ_WRITE (R182). -/
  | piSeqWrite (c slot : Nat) (value : Word)
  /-- TAP_EXTEST (R405). -/
  | tapExtest
  /-- TAP_IDCODE (R405). -/
  | tapIdcode
  /-- TAP_SAMPLE_PRELOAD (R405). -/
  | tapSamplePreload
  /-- TAP_WAFER_READ (R405). -/
  | tapWaferRead (bits : Nat)
  /-- TAP_MEM_ADDR (R406). -/
  | tapMemAddr (addr : Word)
  /-- TAP_MEM_READ (R406). -/
  | tapMemRead (words : Nat)
  /-- TAP_FRZ_STATUS (R405). -/
  | tapFrzStatus
  /-- TAP_BYPASS (R405). -/
  | tapBypass
  /-- FEED_FAILOVER (R384). -/
  | feedFailover (regulates : Bool)
  /-- FEED_HANDOVER_COMPLETE (R384). -/
  | feedHandoverComplete (regulates : Bool)
  /-- FEED_PRESENCE_CHANGE (R381). -/
  | feedPresenceChange (feed mv : Nat)
  /-- FEED_LOCKOUT (R420). -/
  | feedLockout (feed : Nat)
  /-- SENSOR_READ (R381). -/
  | sensorRead (r : Sensors)
  /-- OVEN_READY (R268). -/
  | ovenReady
  /-- OVEN_OOR (R268). -/
  | ovenOor (oor : Bool)
  /-- OVEN_WARM_FAIL (R268). -/
  | ovenWarmFail
  /-- LOSS_OF_SIGNAL (R37). -/
  | lossOfSignal (port : Nat)
  /-- SIGNAL_DETECT (R38). -/
  | signalDetect (port : Nat)
  /-- RECEIVER_SETTLED (R38). -/
  | receiverSettled (port : Nat)
  /-- RECEIVER_SETTLE_TIMEOUT (R84). -/
  | receiverSettleTimeout (port : Nat)
  /-- MARK_RECEIVE (R36): `gap` is the number of descrambled bits from the last MARK position to this MARK. -/
  | markReceive (port seq gap : Nat)
  /-- MISSED_MARK (R36). -/
  | missedMark (port : Nat)
  /-- MARK_SEND (R31). -/
  | markSend (port : Nat)
  /-- CRUMB_DUE (R43). -/
  | crumbDue (port : Nat)
  /-- CRUMB_FORCED (R43). -/
  | crumbForced (port : Nat)
  /-- CRUMB_DELETE (R44): `fill` is what the elastic stage would hold with the beat that arrives. -/
  | crumbDelete (port fill : Nat)
  /-- CRUMB_INSERT (R44). -/
  | crumbInsert (port fill : Nat)
  /-- ELASTIC_OVERRUN (R44). -/
  | elasticOverrun (port fill : Nat)
  /-- CONTROL_BEAT_DISCARD (R30): the line bits up to the beat's last, at least 58 of them ahead of the beat, and where it
  stands. -/
  | controlBeatDiscard (port : Nat) (line : List Bool) (place : Place)
  /-- FRAME_RECEIVE (R88). -/
  | frameReceive (port : Nat) (frame : RxFrame)
  /-- FILL_CRUMB_ABORT (R42). -/
  | fillCrumbAbort (port : Nat)
  /-- PREEMPT_RECEIVE (R47): the class of the frame that is open and the bytes of it received so far; `none` for no
  frame. -/
  | preemptReceive (port : Nat) (open_ : Option (Nat × Nat))
  /-- RESUME_RECEIVE (R47). -/
  | resumeReceive (port : Nat)
  /-- INBOUND_FILE (R189). -/
  | inboundFile
  /-- CELL_SLOT (R122). -/
  | cellSlot
  /-- HEAD_SWEEP (R131). -/
  | headSweep
  /-- DRAM_RETURN (R130): the 64 bytes of the record's header as they are read (R129, R140). -/
  | dramReturn (queue : Nat) (hdr : List Byte)
  /-- OVERFLOW_RECORD_WRITE (R129). -/
  | overflowRecordWrite
  /-- DRAM_SLOT_DRAW (R136). -/
  | dramSlotDraw (active : BitVec 6)
  /-- DRAM_READY_CHANGE (R139). -/
  | dramReadyChange (ready : Bool)
  /-- BUFFER_ECC_ERROR (R140). -/
  | bufferEccError (what : BufEcc)
  /-- RESERVED_CONNECTION_SETUP (R124). -/
  | reservedConnectionSetup (port index : Nat)
  /-- GATE_ENTRY_START (R175). -/
  | gateEntryStart (port index : Nat)
  /-- GATE_ENTRY_END (R175). -/
  | gateEntryEnd (port : Nat)
  /-- FRAME_TRANSMIT (R126): the instant of the first bit at the serialiser. -/
  | frameTransmit (port : Nat) (preempting : Bool) (ts : Raw) (sub : Byte)
  /-- M_PORT_TX_ATTEMPT (R100). -/
  | mPortTxAttempt (port : Nat) (carrier : Bool)
  /-- M_PORT_COLLISION (R101). -/
  | mPortCollision (port bitTimes : Nat)
  /-- M_PORT_BACKOFF_EXPIRY (R100). -/
  | mPortBackoffExpiry (port : Nat)
  /-- SEGMENT_FAULT (R83). -/
  | segmentFault (port : Nat)
  /-- SEGMENT_RETRY (R83). -/
  | segmentRetry (port : Nat) (intact : Bool)
  /-- SGMII_INBAND_WORD (R61). -/
  | sgmiiInbandWord (port : Nat) (linkUp : Bool) (speed : Nat)
  /-- STD_BLOCK_LOCK_CHANGE (R61). -/
  | stdBlockLockChange (port : Nat) (locked : Bool)
  /-- LASER_FAULT (R67). -/
  | laserFault (port : Nat)
  /-- QUALITY_UPDATE (R76). -/
  | qualityUpdate (port : Nat) (q : Quality)
  /-- HALTER_SEND (R52). -/
  | halterSend (port : Nat)
  /-- HALTER_PERIODIC (R52). -/
  | halterPeriodic (port : Nat)
  /-- HALTER_RECEIVE (R54). -/
  | halterReceive (port : Nat) (words : List Nat)
  /-- HALTER_TIMEOUT (R54). -/
  | halterTimeout (port : Nat)
  /-- MESSAGE_DISCARD (R51): the beats from the message's first word to where it ended or was broken off. -/
  | messageDiscard (port : Nat) (beats : List Beat)
  /-- DOZE_ENTRY (R48). -/
  | dozeEntry (port : Nat)
  /-- DOZE_RECEIVE (R49). -/
  | dozeReceive (port : Nat)
  /-- DOZE_WAKE (R50). -/
  | dozeWake (port : Nat)
  /-- TRAIN_ALIGNMENT (R50). -/
  | trainAlignment (port : Nat) (aligned : Bool)
  /-- TIME_REQ_SEND (R241): the instant of its timing point at the serialiser in 1/256 tick. -/
  | timeReqSend (port at_ : Nat)
  /-- TIME_REQ_RECEIVE (R244): the message's words, its timing point, and the instant at the serialiser of the first position
  a RESP to it may take. -/
  | timeReqReceive (port : Nat) (words : List Nat) (t2 : RxStamp) (t3 : Nat)
  /-- TIME_RESP_RECEIVE (R245). -/
  | timeRespReceive (port : Nat) (words : List Nat) (t4 : RxStamp)
  /-- EXCHANGE_LOST (R266). -/
  | exchangeLost (port : Nat)
  /-- INFO_SEND (R247). -/
  | infoSend (port dom : Nat)
  /-- INFO_RECEIVE (R247). -/
  | infoReceive (port : Nat) (words : List Nat)
  /-- INFO_VOID (R247). -/
  | infoVoid (port dom : Nat)
  /-- UPSTREAM_SELECT (R258). -/
  | upstreamSelect (dom : Nat)
  /-- UPSTREAM_CHANGE (R259). -/
  | upstreamChange (dom : Nat)
  /-- FIRST_LOCK_TIMEOUT (R216). -/
  | firstLockTimeout (dom : Nat)
  /-- TRACE_HOLD_EXPIRY (R235). -/
  | traceHoldExpiry (dom : Nat)
  /-- VERNIER_FIT_LOSS (R249). -/
  | vernierFitLoss (port : Nat)
  /-- PPS_ALIGN_MEASURE (R260). -/
  | ppsAlignMeasure (dom : Nat) (edge : Nat)
  /-- TIME_SWITCH_START (R224). -/
  | timeSwitchStart
  /-- SLEW_END (R224). -/
  | slewEnd
  /-- TARGET_RECONVERT (R227). -/
  | targetReconvert
  /-- PTP_MESSAGE_RECEIVE (R229). -/
  | ptpMessageReceive (port : Nat) (msg : PtpMsg)
  /-- PTP_INTERVAL_SEND (R229): the message and the domain it is for. -/
  | ptpIntervalSend (port : Nat) (kind : PtpKind) (dom : Nat)
  /-- PTP_ANNOUNCE_SEND (R229). -/
  | ptpAnnounceSend (port dom : Nat)
  /-- ANNOUNCE_RECEIPT_TIMEOUT (R237). -/
  | announceReceiptTimeout (port : Nat)
  /-- DPLL_COMPARISON (R270): the edge's time less the time the loop predicts, in ps, and whether the frequency error
  stands within 1 ppb. -/
  | dpllComparison (errPs : Int) (freqOk : Bool)
  /-- REFERENCE_QUALIFICATION (R275): each reference's measurement over the last second; `none` for one that is absent. -/
  | referenceQualification (meas : List (Option RefMeas))
  /-- REFERENCE_LOST (R272). -/
  | referenceLost (index : Nat)
  /-- AUTO_DECISION (R280). -/
  | autoDecision
  /-- RSEL_CHANGE (R278). -/
  | rselChange (pins : BitVec 3)
  /-- REFERENCE_SWITCH_DONE (R283): the mean of the measured phase in 2^-16 ns. -/
  | referenceSwitchDone (mean : Int)
  /-- SYNTH_LOCK (R287): `phase` is what the vernier measures of a group's transmit beat clock against CCLK/8, in steps of
  0.390625 ps (R250). -/
  | synthLock (n band phase : Nat)
  /-- SYNTH_LOCK_RETRY (R288). -/
  | synthLockRetry (n : Nat)
  /-- LINE_SYNTH_UNLOCK (R288). -/
  | lineSynthUnlock (n : Nat)
  /-- CORE_SYNTH_UNLOCK (R289). -/
  | coreSynthUnlock
  /-- DRAM_SYNTH_UNLOCK (R289). -/
  | dramSynthUnlock
  /-- PROT_SWITCH (R160). -/
  | protSwitch (pair : Nat)
  /-- PROT_WTR_RETURN (R161). -/
  | protWtrReturn (pair : Nat)
  /-- AGE_SCAN_VISIT (R154). -/
  | ageScanVisit (index : Nat)
  /-- LEARN_FILTER_EXPIRY (R149). -/
  | learnFilterExpiry
  /-- SHADOW_COMPARE_UNIT (R164). -/
  | shadowCompareUnit
  /-- TABLE_ECC_ERROR (R170). -/
  | tableEccError (what : TblEcc)
  /-- TG_FIRE (R308). -/
  | tgFire (gen : Nat)
  /-- TG_PULSE_END (R310). -/
  | tgPulseEnd (gen : Nat)
  /-- CYC_GEN_AUTO_ARM (R200). -/
  | cycGenAutoArm
  /-- CYCLE_START (R191). -/
  | cycleStart
  /-- LAUNCH_CAPTURE (R182). -/
  | launchCapture (slot : Nat)
  /-- LAUNCH (R184). -/
  | launch (slot : Nat) (lines : List LineEdge)
  /-- IU_START_EDGE (R300): the CCLK edge after the START edge, and the code k of R302 as corrected by R305. -/
  | iuStartEdge (unit : Nat) (edge : Raw) (k : Nat)
  /-- IU_STOP_EDGE (R300): as for START. -/
  | iuStopEdge (unit : Nat) (edge : Raw) (k : Nat)
  /-- IU_GATE_EDGE (R299). -/
  | iuGateEdge (unit : Nat) (active : Bool)
  /-- IU_CONVERSION_DONE (R302). -/
  | iuConversionDone (unit : Nat)
  /-- IU_DEAD_TIME_END (R302). -/
  | iuDeadTimeEnd (unit : Nat)
  /-- IU_WINDOW_EXPIRY (R301). -/
  | iuWindowExpiry (unit : Nat)
  /-- IU_STOP_OVERFLOW (R301). -/
  | iuStopOverflow (unit : Nat)
  /-- PMU_COUNTER_WRAP (R376). -/
  | pmuCounterWrap (m : Nat)
  /-- FIXED_COUNTER_WRAP (R373). -/
  | fixedCounterWrap (n : Nat)
  /-- FIRMWARE_STOP (R21). -/
  | firmwareStop
  /-- M_PORT_ENTERS_UP (R83). -/
  | mPortEntersUp (port : Nat)
  /-- FEED_LOCKOUT_END (R420). -/
  | feedLockoutEnd (feed : Nat)
  /-- FINE_VALID_RETURN (R249). -/
  | fineValidReturn (port : Nat)
deriving DecidableEq, Repr

end Sys2Proof
end

