-- ==== Sys2Proof/Decode.lean ====
section
/-! DEFINITION. The commands a word spells. No row of spec/opcode_table.json gives bits (every row has an empty bit pattern),
so no word spells a command. -/

namespace Sys2Proof

/-- The command spelled by a word of `nbits` bits: the table gives bits to none. Conventions: log 6. -/
def decodeTableWord (_nbits _w : Nat) : Option Instr := none

end Sys2Proof
end

