-- ==== Sys2Proof/Machine/Digest.lean ====
section
/-! DEFINITION. The check values of the spec: CRC-32C of packets, messages and bank headers (R51, R330),
the frame check sequence of IEEE 802.3 (R95), SHA-256 and HMAC-SHA-256 of in-band frames (R327). -/

namespace Sys2Proof.Machine

/-- One step of a reflected CRC-32 with the given polynomial. -/
def crcBit (poly c : BitVec 32) : BitVec 32 :=
  if c.getLsbD 0 then (c >>> 1) ^^^ poly else c >>> 1

/-- A byte folded into a reflected CRC-32. -/
def crcByte (poly c : BitVec 32) (b : Byte) : BitVec 32 :=
  (List.range 8).foldl (fun x _ => crcBit poly x) (c ^^^ b.setWidth 32)

/-- CRC-32C: reflected, initial value and final XOR all ones (R51). -/
def crc32c (bs : List Byte) : BitVec 32 :=
  bs.foldl (crcByte 0x82F63B78) 0xFFFFFFFF ^^^ 0xFFFFFFFF

/-- The CRC-32 of IEEE 802.3. -/
def crc32 (bs : List Byte) : BitVec 32 :=
  bs.foldl (crcByte 0xEDB88320) 0xFFFFFFFF ^^^ 0xFFFFFFFF

/-- The CRC-32 state over bytes from zero, with no final XOR, and a state advanced over `n` zero bytes (R98). -/
def crcRaw (bs : List Byte) : BitVec 32 := bs.foldl (crcByte 0xEDB88320) 0
def crcShift (c : BitVec 32) (n : Nat) : BitVec 32 := (List.replicate n (0 : Byte)).foldl (crcByte 0xEDB88320) c

/-- A number from bytes, lowest first (R6). -/
def leNat : List Byte → Nat
  | [] => 0
  | b :: t => b.toNat + 256 * leNat t

/-- A number from bytes in network order. -/
def beNat (bs : List Byte) : Nat := leNat bs.reverse

/-- `n` bytes of a number, lowest first. -/
def leBytes : Nat → Nat → List Byte
  | 0, _ => []
  | n + 1, v => BitVec.ofNat 8 v :: leBytes n (v / 256)

/-- `n` bytes of a number in network order. -/
def beBytes (n v : Nat) : List Byte := (leBytes n v).reverse

/-- The bytes from `i`, `n` of them. -/
def slice (bs : List Byte) (i n : Nat) : List Byte := (bs.drop i).take n

/-- Word `i` of a long number, word 0 lowest. -/
def wordAt (n i : Nat) : BitVec 32 := BitVec.ofNat 32 (n / 2 ^ (32 * i))

/-- The 64 round constants of SHA-256 as one number: the first 32 fractional bits of the cube roots of the first 64 primes. -/
def shaK : Nat :=
  0xc67178f2bef9a3f7a4506ceb90befffa8cc7020884c8781478a5636f748f82ee682e6ff35b9cca4f4ed8aa4a391c0cb334b0bcb52748774c1e376c0819a4c116106aa070f40e3585d6990624d192e819c76c51a3c24b8b70a81a664ba2bfe8a192722c8581c2c92e766a0abb650a735453380d134d2c6dfc2e1b213827b70a851429296706ca6351d5a79147c6e00bf3bf597fc7b00327c8a831c66d983e515276f988da5cb0a9dc4a7484aa2de92c6f240ca1cc0fc19dc6efbe4786e49b69c1c19bf1749bdc06a780deb1fe72be5d74550c7dc3243185be12835b01d807aa98ab1c5ed5923f82a459f111f13956c25be9b5dba5b5c0fbcf71374491428a2f98

/-- The hash before the first block, as one number: the first 32 fractional bits of the square roots of the first 8 primes. -/
def shaStart : Nat :=
  0x5be0cd191f83d9ab9b05688c510e527fa54ff53a3c6ef372bb67ae856a09e667

/-- Three rotations of a word, one on the other; the last is a shift where `sh` says so. -/
def spread (sh : Bool) (i j k : Nat) (x : BitVec 32) : BitVec 32 :=
  (x.rotateRight i ^^^ x.rotateRight j) ^^^ (if sh then x >>> k else x.rotateRight k)

/-- The schedule's words are made as they are used: the 16 latest, oldest first, give the next one. -/
def shaNext (w : List (BitVec 32)) : BitVec 32 :=
  spread true 17 19 10 (w.getD 14 0) + w.getD 9 0 + spread true 7 18 3 (w.getD 1 0) + w.getD 0 0

/-- The working words are two histories of four, `p` (a to d) and `q` (e to h): each round puts a new word ahead of each. -/
def shaRounds : Nat → Nat → List (BitVec 32) → List (BitVec 32) → List (BitVec 32) → List (BitVec 32)
  | 0, _, _, p, q => p ++ q
  | n + 1, i, w, p, q =>
    let at_ := fun (l : List (BitVec 32)) (j : Nat) => l.getD j 0
    let pick := at_ q 2 ^^^ (at_ q 0 &&& (at_ q 1 ^^^ at_ q 2))
    let most := (at_ p 0 &&& at_ p 1) ||| (at_ p 2 &&& (at_ p 0 ||| at_ p 1))
    let t := spread false 6 11 25 (at_ q 0) + pick + at_ q 3 + at_ w 0 + wordAt shaK i
    shaRounds n (i + 1) (w.drop 1 ++ [shaNext w]) ((spread false 2 13 22 (at_ p 0) + most + t) :: p.take 3) ((at_ p 3 + t) :: q.take 3)

/-- A block of 64 bytes folded into the hash. -/
def shaBlock (h : List (BitVec 32)) (blk : List Byte) : List (BitVec 32) :=
  let w := (List.range 16).map fun i => BitVec.ofNat 32 (beNat (slice blk (4 * i) 4))
  List.zipWith (fun x y => x + y) h (shaRounds 64 0 w (h.take 4) (h.drop 4))

/-- The padded message. -/
def shaPad (m : List Byte) : List Byte :=
  m ++ 0x80 :: List.replicate ((119 - m.length % 64) % 64) 0 ++ beBytes 8 (8 * m.length)

/-- SHA-256. -/
def sha256 (m : List Byte) : List Byte :=
  let p := shaPad m
  ((List.range (p.length / 64)).foldl (fun h i => shaBlock h (slice p (64 * i) 64)) ((List.range 8).map (wordAt shaStart))).flatMap
    fun w => beBytes 4 w.toNat

/-- HMAC-SHA-256 with a key of at most 64 bytes. -/
def hmac (key m : List Byte) : List Byte :=
  let k := key ++ List.replicate (64 - key.length) 0
  sha256 (k.map (· ^^^ 0x5c) ++ sha256 (k.map (· ^^^ 0x36) ++ m))

end Sys2Proof.Machine
end

