-- ==== Sys2Proof/Machine/State.lean ====
section
/-! DEFINITION. The state of the block as plain data, its faults and refusals, and the state right
after reset. Registers live in one sparse table keyed by their BAR0 address (R363); what no register
shows stands in typed fields. A default value of a field is its reset value. -/

namespace Sys2Proof.Machine

/-- Why the block stops. -/
inductive Fault
  /-- An operand names a unit the block does not have (port 32, generator 16, context 8): raised by
  the event rows, whose operands come from outside the block. Safe: a well-formed term never
  raises it. -/
  | noSuchUnit
deriving DecidableEq, Repr

/-- Why a command has no meaning in this model. -/
inductive Refusal
  /-- Raised by an arm of `exec` whose command has no meaning yet. Safe: no run goes on. -/
  | notModelled (mnemonic : String)
deriving DecidableEq, Repr

/-- The ordering codes (R1). -/
inductive OrderCode
  | i16 | i08
deriving DecidableEq, Repr

/-- The module's life (R386, R388, R404). -/
inductive Life
  /-- No feed has powered the module, or its power is lost (R383). -/
  | unpowered
  /-- Held in reset (R388). -/
  | held
  /-- Out of reset and running. -/
  | up
  /-- Frozen (R404). -/
  | frozen
deriving DecidableEq, Repr

/-- The firmware on the management processor (R389). -/
inductive Fw
  /-- Not booted. -/
  | down
  /-- Loaded and started, not yet ready. -/
  | started
  | ready
  /-- Stopped without a reset (R21). -/
  | stopped
deriving DecidableEq, Repr

/-- The roles of a context (R15). -/
inductive Role
  | observer | operator | principal
deriving DecidableEq, Repr

/-- A reply packet, or a deferred completion (R330, R332): `expert` is the flag as received, `params` are its fields in order.
Conventions: log 4. -/
structure Reply where
  op       : Nat
  tag      : Nat
  status   : Nat
  seq      : Nat
  deferred : Bool
  params   : List Nat
  expert   : Bool := false
deriving DecidableEq, Repr

/-- A packet that passed checks 1 to 4 of R333 and waits to execute. -/
structure Held where
  op     : Nat
  tag    : Nat
  flags  : Byte
  /-- When it arrived at the module (R9, R321). -/
  at_    : Raw := 0
deriving DecidableEq, Repr

/-- A reply or an event frame for an in-band context that MGMT is to put into frames (R327 to R329): kind 1 reply, 2 event,
and the address it goes to. Conventions: log 29. -/
structure InBandOut where
  kind  : Nat
  dst   : Nat
  reply : Reply
deriving DecidableEq, Repr

/-- A learn record (R150): `flags` is 1 move, 2 static conflict, 4 aged. Conventions: log 25. -/
structure LearnRec where
  vid   : Nat
  flags : Nat
  port  : Nat
  old   : Nat
  fid   : Nat
  mac   : Nat
  seq   : Nat
  raw   : Nat
deriving DecidableEq, Repr

/-- A descriptor the module wrote back (R107, R109): the ring, its index, the bytes it wrote into the descriptor (10 to 31
of an RX one, 16 to 31 of a TX one), and what it wrote before to the buffer at `addr`. Conventions: log 28. -/
structure RingOut where
  ring  : Nat
  index : Nat
  back  : List Byte
  addr  : Nat := 0
  data  : List Byte := []
deriving DecidableEq, Repr

/-- A TX frame to be written back (R109, R110): its first descriptor and how many it took, its status (`none` while
its time stamp is awaited), and once it has left the time of its first bit in 1/256 tick. -/
structure TxWb where
  head   : Nat
  count  : Nat
  status : Option Nat
  left   : Option Nat := none
deriving DecidableEq, Repr

/-- A pending double-write-guard pair (R9). Conventions: log 43. -/
structure GuardPair where
  addr  : Nat
  value : Word
  raw   : Raw
deriving DecidableEq, Repr

/-- What a host context holds beyond its registers, its role and its reins. -/
structure Ctx where
  /-- Descriptors posted and not yet processed, of RX ring 0 and 1 and TX ring 0 and 1 (R106). -/
  posted0 : List Desc := []
  posted1 : List Desc := []
  posted2 : List Desc := []
  posted3 : List Desc := []
  /-- Write-backs to the frame rings, newest first (R107, R109). -/
  ringOut : List RingOut := []
  /-- Per TX ring the frames read and not yet written back, in ring order (R110). -/
  tx0 : List TxWb := []
  tx1 : List TxWb := []
  /-- The raw time at which the TX frame at head had its sop posted (R110). -/
  sopAt0 : Option Nat := none
  sopAt1 : Option Nat := none
  /-- EXPERT (R335). -/
  expert : Bool := false
  /-- Packets received, oldest first (R320, R325). -/
  held : List Held := []
  /-- When the command that executes arrived (R9, R321), and the EXPERT flag of the packet answered (R330). -/
  cmdAt : Raw := 0
  cmdX : Bool := false
  /-- Replies queued on SPI, or in the CQ and not yet freed (R322, R324). -/
  replies : List Reply := []
  /-- The expected sequence; `none` before the first command after a reset (R331). -/
  expSeq : Option Nat := none
  /-- The sequence of the next reply (R331). -/
  repSeq : Nat := 0
  /-- The SPI status bits dropped and framing (R324). -/
  dropped : Bool := false
  framing : Bool := false
  /-- MSI-X messages issued, newest first (R369). -/
  msix : List Nat := []
  /-- The instant of the last event message; `none` before the first (R369). -/
  lastMsg : Option Nat := none
  /-- A message waits for the end of the holdoff (R369). -/
  msgWait : Bool := false
  /-- The SQ tail the last doorbell gave (R322). -/
  sqTail : Nat := 0
  /-- The pending pair of R9. -/
  guard : Option GuardPair := none
  /-- The held _LO write of R356. -/
  heldLo : Option (Nat × Word) := none
  /-- The read shadow of R355, by address (BAR2 addresses from 2^24 up). -/
  shadow : Tab Word := []
  /-- What the last register or BAR2 read returned. -/
  busData : Word := 0
  /-- The in-band key, 32 bytes; empty stands for all zeros (R328). -/
  key : List Byte := []
  /-- The bound MAC address and VID (R327). -/
  mac : Nat := 0
  vid : Nat := 0
  /-- The last accepted anti-replay sequence and the module's own (R328, R329). -/
  arLast : Nat := 0
  arOwn : Nat := 0
  /-- The source MAC of the last accepted frame, and of the last frame checked (R328). -/
  lastSrc : Option Nat := none
  rxSrc : Nat := 0
  /-- Replies and events to be sent in frames, oldest first (R328, R369). -/
  out : List InBandOut := []
  /-- The learn queue, oldest first (R150). -/
  learn : List LearnRec := []
  /-- The bytes clocked out on SPI after the turnaround byte of the last READ or STATUS (R324). -/
  miso : List Byte := []
deriving DecidableEq, Repr

/-- A rein while it is held (R340): its holder, the lease and the uptime at which it ends. -/
structure Rein where
  holder : Nat
  lease  : Nat
  ends   : Nat
deriving DecidableEq, Repr

/-- A deferred completion not yet sent (R332); `idx` names the unit, pair or generator concerned. -/
structure Deferred where
  ctx : Nat
  op  : Nat
  tag : Nat
  idx : Nat
deriving DecidableEq, Repr

/-- A log record (R395), its CRC apart. `flags` is tflags. Conventions: log 13. -/
structure LogRec where
  seq    : Nat
  uptime : Nat
  sec    : Nat
  ns     : Nat
  flags  : Nat
  epoch  : Nat
  source : Nat
  code   : Nat
  args   : List Nat
deriving DecidableEq, Repr

/-- A firmware bank (R391, R397, R400): `valid` stands for a correct header and body. `tries` counts the
bits cleared by boot attempts. -/
structure FwBank where
  valid     : Bool := false
  seq       : Nat := 0
  confirmed : Bool := false
  tries     : Nat := 0
  major     : Nat := 0
  minor     : Nat := 0
deriving DecidableEq, Repr

/-- The saved-state section (R393): the replay floors of HC6 and HC7 (for received frames and for the
module's own), operating hours, the extremes ever recorded and the count of failovers. -/
structure SavedState where
  valid     : Bool := false
  seq       : Nat := 0
  floors    : List Nat := [0, 0, 0, 0]
  hours     : Nat := 0
  maxTemp   : Nat := 0
  minFeed   : Nat := 0
  failovers : Nat := 0
deriving DecidableEq, Repr

/-- A write or an erase of the store that runs in the background (R393, R394). -/
inductive StoreJob
  /-- CFG_SAVE, with the bank being written. -/
  | config (bank : Nat)
  /-- CFG_FACTORY. -/
  | factory (bank : Nat)
  /-- The saved-state section. -/
  | saved (bank : Nat)
  /-- MEM_STORE_ERASE of a section (1, 3 or 4). -/
  | erase (sec : Nat)
deriving DecidableEq, Repr

/-- An update session (R397). -/
structure Update where
  ctx    : Nat
  length : Nat
  /-- The bank being written. -/
  bank   : Nat
  data   : List Byte
  restart : Bool
deriving DecidableEq, Repr

/-- The TAP (R405, R406). -/
structure Tap where
  /-- The last instruction loaded, and the bits the last scan shifted out. -/
  ir : Nat := 0xFF
  tdo : List Nat := []
  addr : Nat := 0
  unlocked : Bool := false
deriving DecidableEq, Repr

/-- The modes of an F or L port (R13). -/
inductive PortMode
  | native25 | native10 | std25 | std10 | std1g | sgmii
deriving DecidableEq, Repr

/-- A native port's transmitted stream (R26 to R35): the last 58 scrambled bits, newest first at bit 0; the run of
identical line bits; the position of the next beat in the 1,024-beat MARK frame and the beats since the last crumb;
the last burst sent, as beats and as line bits. Conventions: logs 21, 56. -/
structure LineTx where
  scr   : BitVec 58 := 0
  last  : Bool := false
  run   : Nat := 0
  pos   : Nat := 0
  since : Nat := 0
  beats : List Beat := []
  bits  : List Bool := []
deriving DecidableEq, Repr

/-- A native port's received stream: the last 58 bits ahead of descrambling and the run of line bits (R32, R34), the
elastic stage's fill (R44); of a preemption (R47) the bytes received of the suspended frame and whether a class-7 frame has
ended in it; data beats are being discarded. Conventions: logs 20, 56. -/
structure LineRx where
  scr   : BitVec 58 := 0
  last  : Bool := false
  run   : Nat := 0
  fill  : Nat := 0
  bytes : Nat := 0
  c7    : Bool := false
  drop  : Bool := false
deriving DecidableEq, Repr

/-- A port's line beyond its registers. -/
structure PortSt where
  mode : PortMode := .native25
  /-- The port is UP (R38, R61, R83). -/
  up   : Bool := false
  /-- MARKs found in a row, the last MARK's sequence, MARKs missed in a row (R36). -/
  marks   : Nat := 0
  markSeq : Nat := 0
  misses  : Nat := 0
  /-- The fault indication clears only on re-entering UP (R37). -/
  hardFault : Bool := false
  /-- The uptime at which the port was last UP with its fault indication just cleared (R161). -/
  cleanAt : Nat := 0
  /-- The raw time of the entry to ACQUIRE (R84). -/
  settleAt : Nat := 0
  /-- The sequence of the next MARK sent, and a crumb deferred (R29, R43). -/
  txMark  : Nat := 0
  /-- The raw time of the last MARK sent (R45). -/
  markAt  : Nat := 0
  crumbWait : Bool := false
  /-- Inside a received preemption (R47). -/
  rxSusp  : Bool := false
  /-- A frame is being received: it has been suspended and has not ended (R359). -/
  rxOpen  : Bool := false
  /-- The raw time of the last valid halter, the next halter's seq, a halter due, whether it asks for a
  reply, the last one sent and its raw time (R52 to R54). -/
  halterAt : Option Nat := none
  halterSeq : Nat := 0
  halterDue : Bool := false
  halterAsk : Bool := false
  halterSent : List Nat := []
  halterSentAt : Option Nat := none
  /-- A disagreement was deferred since the last change of hash or period (R55). -/
  deferred : Bool := false
  /-- Class 7 may use the link in this cycle (R54). -/
  c7Ok : Bool := false
  /-- The raw time of the last frame or message sent (R48). -/
  idleAt : Nat := 0
  /-- An STD port's PCS holds block lock; the last SGMII word reports link up (R61). -/
  pcs : Bool := false
  sgUp : Bool := false
  /-- An M port out of UP by a segment fault (R83). -/
  segHeld : Bool := false
  /-- The laser is dark since a laser fault, until PORT_SET or enable starts it again (R67). -/
  laserHeld : Bool := false
  /-- The streams sent and received. -/
  tx : LineTx := {}
  rx : LineRx := {}
  /-- PREEMPT has been sent and RESUME is still to come, and the raw time at which the last class-7 frame in it ends (R46). -/
  txSusp  : Bool := false
  c7Until : Nat := 0
  /-- When the last class-7 frame has left the line, in 1/1280 tick of raw time (R184). -/
  c7End : Nat := 0
  /-- The raw time of the last doze entry (R48, R50). -/
  dozeAt  : Nat := 0
  /-- The raw time at which the line last ended every frame in progress as bad (R38, R44, R96). -/
  brokenAt : Option Nat := none
  /-- A passing copy was ended after 64 fill crumbs, and its frame is still to end (R42). -/
  fillCut : Bool := false
deriving DecidableEq, Repr

/-- One rebase of a domain (R210): the terms in force from `rawBase` on. -/
structure Rebase where
  base    : Int
  rawBase : Nat
  rate    : Int
deriving DecidableEq, Repr

/-- What TIME_GM_SET gave (R264). -/
structure GmSet where
  flags    : Nat := 0
  prio1    : Nat := 128
  prio2    : Nat := 128
  cls      : Nat := 0xFF
  accuracy : Nat := 0xFE
  utc      : Int := 0
  init     : Option (Nat × Nat) := none
deriving DecidableEq, Repr

/-- A time domain (R209 to R218) beyond what TSU_DOM_x and its neighbours show. `base` is in 2^-32 ns,
`rawBase` in 1/256 tick, `rate` and `freq` in 2^-40. -/
structure DomSt where
  base    : Int := 0
  rawBase : Nat := 0
  rate    : Int := 0
  /-- The servo's frequency estimate f_x (R212). -/
  freq    : Int := 0
  /-- The last offsets while UNLOCKED, newest first, at most four (R217), and the measurements in a
  row within lock_thr (R216). -/
  agree   : List Int := []
  /-- The upstream's time of each of them and its raw time in 1/256 tick (R217). -/
  marks   : List (Int × Nat) := []
  inLock  : Nat := 0
  /-- The last 64 rebases, newest first (R215). -/
  hist    : List Rebase := []
  /-- The raw time of the entry to FIRST_LOCK, of the latest step, and of the last loss of meaning. -/
  lockAt  : Nat := 0
  stepAt  : Nat := 0
  /-- The uptime of the entry to holdover (R235). -/
  holdAt  : Nat := 0
  /-- The grandmaster setting and the priorities of the grandmaster followed. -/
  gm      : GmSet := {}
  prio1   : Nat := 0
  prio2   : Nat := 0
  /-- A different grandmaster that would win, with the raw time since which it has stood (R259). -/
  rival   : Option (Nat × Nat) := none
deriving DecidableEq, Repr

/-- The armed switch of R225: the target domain, the second, and whether TIME_SWITCH_FORCE gave it. -/
structure SwitchArm where
  dom   : Nat
  sec   : Nat
  force : Bool
deriving DecidableEq, Repr

/-- A stretch of the bridge since the last switch (R215): from tick `raw` on the domain `dom` was active, and the bridge
fell from `bridge` by `step` in each tick, in the units of `Tim.bridge`. -/
structure BridgeSeg where
  raw    : Nat
  dom    : Nat
  bridge : Int
  step   : Int
deriving DecidableEq, Repr

/-- The time scale (R206 to R226). The bridge is held in 2^-16 ns divided by 9,765,625, so that a
slew's step in one tick is a whole number. -/
structure Tim where
  dom    : Tab DomSt := []
  /-- The active domain is B. -/
  onB    : Bool := false
  bridge : Int := 0
  slewing : Bool := false
  armed  : Option SwitchArm := none
  /-- The bridge history of the last switch, newest first (R215). -/
  segs   : List BridgeSeg := []
deriving DecidableEq, Repr

/-- The number of the active domain: 0 A, 1 B. -/
def Tim.active (t : Tim) : Nat := if t.onB then 1 else 0

/-- The state of a PTP port (R228, R229). Conventions: log 53. -/
inductive PtpState
  | off | listening | master | passive | uncalibrated | slave
deriving DecidableEq, Repr

/-- A port's part in time transfer (R241 to R255) and PTP (R228). Fine times are in 2^-16 tick. -/
structure PortTime where
  /-- The seq of the last REQ, its t1, and whether its RESP is still awaited. -/
  reqSeq  : Nat := 0
  t1      : Int := 0
  waiting : Bool := false
  /-- The raw time of the last REQ sent, of the last accepted exchange (R257). -/
  reqAt   : Option Nat := none
  exchAt  : Option Nat := none
  /-- Round trips held, newest first (R246), the rejections in a row. -/
  rts     : List Int := []
  rejects : Nat := 0
  /-- t3 and t4 of the accepted RESPs held, newest first (R253). -/
  pairs   : List (Int × Int) := []
  /-- The last 1,024 offsets of each domain, newest first, in 1/16 ps. -/
  thA     : List Int := []
  thB     : List Int := []
  /-- The held INFO of each domain and the raw time it came (R247), and the last sent with its raw time. -/
  infoA   : Option (InfoMsg × Nat) := none
  infoB   : Option (InfoMsg × Nat) := none
  sentA   : Option (InfoMsg × Nat) := none
  sentB   : Option (InfoMsg × Nat) := none
  /-- The last RESP sent (R244). -/
  resp    : Option RespMsg := none
  /-- PTP: profile, flags, intervals and receipt timeout of TIME_PORT_SET (R238). -/
  profile : Nat := 0
  flags   : Nat := 0
  logSync : Int := 0
  logAnnounce : Int := 1
  logDelay : Int := 0
  announceTmo : Nat := 3
  ptp     : PtpState := .off
  announce : Option (PtpMsg × Nat) := none
  /-- meanPathDelay in 2^-32 ns, a waiting two-step Sync (sequence, arrival in 1/256 tick, its correction), the pending
  Delay_Req or Pdelay_Req (sequence and departure), and the offset of the last Sync, its path delay apart (R228, R229). -/
  mpd     : Int := 0
  sync    : Option (Nat × Nat × Int) := none
  delayTx : Option (Nat × Nat) := none
  syncT   : Option (Int × Nat) := none
  /-- A two-step Pdelay_Resp that waits for its follow-up: sequence, t4 in 1/256 tick, t2 and its correction in 2^-32 ns. -/
  pdResp  : Option (Nat × Nat × Int) := none
  /-- t3 in 2^-32 ns and t4 in 1/256 tick of the last peer delay exchange, neighborRateRatio - 1 in 2^-40, requests in a row
  without an answer, and asCapable (R228, profile 3). -/
  pdLast  : Option (Int × Nat) := none
  nbrRate : Int := 0
  unans   : Nat := 0
  capable : Bool := false
  /-- The raw time of the last Sync and Announce sent for each domain and of the last Delay_Req or Pdelay_Req (R229). -/
  syncAt  : List (Nat × Nat) := []
  annAt   : List (Nat × Nat) := []
  reqTxAt : Option Nat := none
  /-- Follow-ups that wait: a Sync's domain, sequence and departure in 1/256 tick; a Pdelay_Resp's request and departure. -/
  fuSync  : List (Nat × Nat × Nat) := []
  fuPd    : List (PtpMsg × Nat) := []
  rxCount : Nat := 0
  txCount : Nat := 0
  /-- The next sequence of the messages sent, by 2 * messageType + domain. -/
  seqs    : Tab Nat := []
deriving DecidableEq, Repr

/-- What a departing PTP message of the module's own has written into it, or leaves behind (R229, R231): nothing; a Sync of a
domain with its sequence; a Delay_Req or Pdelay_Req with its sequence; the answer to a Pdelay_Req. -/
inductive PtpJob
  | none
  | sync (dom seq : Nat)
  | request (seq : Nat)
  | pdResp (req : PtpMsg)
deriving DecidableEq, Repr

/-- A frame in the packet buffer (R113, R115, R120): its bytes as received, where and when it came, its class, its
VLAN and priority, how many copies still hold its cells, and the cells it took from the shared pool. -/
structure Frm where
  bytes   : List Byte
  ingress : Nat
  cls     : Nat
  ts      : Raw
  sub     : Byte
  vid     : Nat
  pcp     : Nat
  /-- No edit at the egress: class 7, direct transmission, OVERSIZE and sample copies (R109, R124). -/
  plain   : Bool
  /-- A sample copy (R132): 0 none, 1 for MGMT, 2 + c for context c. -/
  sample  : Nat
  big     : Bool
  /-- The age limit of a class-7 frame (R131). -/
  deadline : Nat
  /-- A transmit descriptor waits for this frame's time (R109): 2 * context + ring, and its first descriptor. -/
  tsReq   : Option (Nat × Nat)
  refs    : Nat
  pool    : Nat
  /-- The stream entry a class-7 frame matched (R141, R189). -/
  stream  : Nat := 0
  /-- The host context a PTP frame of a port under profile 4 is for (R228). -/
  to_     : Option Nat := none
  /-- What is to be done with a PTP message of the module's own as it leaves (R231). -/
  job     : PtpJob := .none
deriving DecidableEq, Repr

/-- A copy of a frame in a queue (R117, R120): the frame, how many of its cells crossed, whether it came back from
DRAM, and whether it leaves without its tag. -/
structure Copy where
  id    : Nat
  sent  : Nat
  dram  : Bool
  untag : Bool
deriving DecidableEq, Repr

/-- A copy in an output stage or on a line (R121): its virtual output queue, the cells that wait there, the time
of its first bit on the line in 1/256 tick, and the bytes of it that stand on a native line already. -/
structure Staged where
  key   : Nat
  copy  : Copy
  cells : Nat
  ts    : Nat := 0
  out   : Nat := 0
deriving DecidableEq, Repr

/-- A record of a queue's DRAM segment (R129): the frame, whether the copy leaves untagged, the staged frame it
comes from, and whether its header is written. -/
structure Rec where
  frm     : Frm
  untag   : Bool
  id      : Nat
  written : Bool
  /-- The 64 bytes of its header. -/
  hdr     : List Byte
deriving DecidableEq, Repr

/-- An M port's transmission (R100, R101): collisions so far, an attempt under way, the end of the back-off. -/
structure MTx where
  n       : Nat := 0
  sending : Bool := false
  until_  : Option Nat := none
deriving DecidableEq, Repr

/-- The last frame a port sent (R94, R97): its bytes, and 0 for a good end, 1 for a stomped FCS, 16 plus the
reason for ABORT; the class and the hint of its SOF on a native line (R40). -/
structure SentFrame where
  bytes  : List Byte := []
  ending : Nat := 0
  ts     : Nat := 0
  cls    : Nat := 0
  hint   : Nat := 0
deriving DecidableEq, Repr

/-- The packet buffer and the scheduler (R113 to R132). -/
structure Sw where
  /-- The next frame number, and the frames held. -/
  nextId : Nat := 0
  frames : Tab (Option Frm) := []
  /-- Virtual output queues by (8 * egress + class) * 32 + ingress (R117). -/
  voq    : Tab (List Copy) := []
  /-- Output stages, copies on the line, part-sent copies, by egress (R121, R122). -/
  stage  : Tab (List Staged) := []
  line   : Tab (Option Staged) := []
  openAt : Tab (Option Nat) := []
  gPtr   : Tab Nat := []
  aPtr   : Tab Nat := []
  turn   : Tab Nat := []
  started : Tab Bool := []
  /-- Deficits by 8 * egress + class (R126). -/
  deficit : Tab Int := []
  /-- Cells taken from the pool and the headroom, the sum of the floors in force, quarantined cells and
  blocks, and whether free is below SWC_POOL_LOW (R117, R119, R140). -/
  poolUsed : Nat := 0
  headUsed : Nat := 0
  floors   : Nat := 5120
  quar     : Nat := 0
  quarBlk  : Nat := 0
  low      : Bool := false
  /-- DRAM segments by queue, the byte offset of a segment's head in its first block, the queues of the staged
  records in order, staging cells in use (R127 to R130). -/
  dram     : Tab (List Rec) := []
  dramAt   : Tab Nat := []
  stagedQ  : List Nat := []
  staging  : Nat := 0
  /-- Frames counted for sampling by port (R132). -/
  sampled  : Tab Nat := []
  mtx      : Tab MTx := []
  /-- By M port: the raw time of the end of the inter-frame gap, and the back-off draws made since reset (R100). -/
  gapEnd   : Tab Nat := []
  draws    : Tab Nat := []
  sent     : Tab SentFrame := []
  /-- Reserved connections by egress: the ingress and the gate entry (R124); the entry in force (R175). -/
  conns    : Tab (Option (Nat × Nat)) := []
  gates    : Tab (Option (Nat × Byte)) := []
  /-- Copies that wait for RX ring 2 * c + r (R108), and copies for port 31 (R189). -/
  ringQ    : Tab (List Copy) := []
  cycIn    : List Copy := []
  /-- The values an ARB_COMMIT captured, while it waits for the next slot boundary (R137). -/
  arbDue   : Option (List (Nat × Word)) := none
deriving DecidableEq, Repr

/-- An FDB entry that is valid (R144); `bad` marks an uncorrectable ECC error (R170). -/
structure FdbEnt where
  mac  : Nat
  fid  : Nat
  stat : Bool
  hit  : Bool
  mc   : Bool
  dest : Word
  bad  : Bool := false
deriving DecidableEq, Repr

/-- A mismatch log entry (R165). -/
structure MmRec where
  table : Nat
  flags : Nat
  index : Nat
  pass  : Nat
  diff  : Nat
deriving DecidableEq, Repr

/-- The tables (R142 to R170): FDB entries by 8 * set + way, VLAN entries by VID, stream entries in both banks. -/
structure Tables where
  fdb     : Tab (Option FdbEnt) := []
  /-- Sets with their aged flag set (R154). -/
  aged    : Tab Bool := []
  vlan    : Tab VlanEntry := []
  strA    : Tab StreamEntry := []
  strP    : Tab StreamEntry := []
  /-- VLAN entries, stream entries and pairs with an uncorrectable error (R170). -/
  badVlan : Tab Bool := []
  /-- FDB ways that held no entry when an uncorrectable error was found in them (R170). -/
  badWay  : Tab Bool := []
  badStr  : Tab Bool := []
  badProt : Tab Bool := []
  /-- The learn filter, oldest key first: FID, MAC, port and the raw time (R149). -/
  filter  : List (Nat × Nat × Nat × Nat) := []
  /-- Per port the learn-rate window: its start and the records in it (R149); per context the next seq. -/
  window  : Tab (Nat × Nat) := []
  seq     : Tab Nat := []
  /-- A pair's traffic is on its alternate; it has returned to its primary since PROT_SET (R161). -/
  onAlt   : Tab Bool := []
  back    : Tab Bool := []
  /-- The shadow copy in DRAM, entries as little-endian numbers (R163), the compare position, the mismatch
  log, oldest first (R164, R165). -/
  shFdb   : Tab Nat := []
  shVlan  : Tab Nat := []
  shStr   : Tab Nat := []
  unit    : Nat := 0
  mmLog   : List MmRec := []
  /-- The tick of the two lists below: ways whose hit bit a source lookup set in it, and entries the scanner removed in it
  (R155). -/
  scanAt  : Raw := 0
  hits    : List Nat := []
  gone    : List FdbEnt := []
deriving DecidableEq, Repr

/-- A captured launch (R182): the frame, its sequence and stale flag, and its target, a tick of network time (R171). -/
structure Capture where
  frame  : List Byte
  seq    : Nat
  stale  : Bool
  target : Int
deriving DecidableEq, Repr

/-- What the module writes into an outbound status entry (R183), and the slot's buffers (R182). -/
structure OutSt where
  lastSeq : Nat := 0
  stale   : Bool := false
  skipped : Bool := false
  late    : Bool := false
  blocked : Bool := false
  ts      : Nat := 0
  /-- The write buffer is in bank 1; sealed and not yet swapped; has ever sealed; swapped since the last launch. -/
  wb1     : Bool := false
  sealed  : Bool := false
  ever    : Bool := false
  newer   : Bool := false
  /-- The tick of the last SEQ write: no swap in that tick takes it (R22, R182). -/
  sealAt  : Raw := 0
  /-- What was captured for the next launch (R182). -/
  cap     : Option Capture := none
deriving DecidableEq, Repr

/-- An inbound status entry (R190). -/
structure InSt where
  seq    : Nat := 0
  fresh  : Bool := false
  late   : Bool := false
  early  : Bool := false
  dup    : Bool := false
  lenErr : Bool := false
  port   : Nat := 0
  len    : Nat := 0
  ts     : Nat := 0
deriving DecidableEq, Repr

/-- An armed commit (R195, R196): the cycle, the hash. -/
structure Commit where
  k     : Nat
  hash  : Word
deriving DecidableEq, Repr

/-- The banks of a schedule that rein 14 stages (R192), beside its period: gate entries by 1,024 * port + index,
slots and templates. -/
structure Sched where
  gate : Tab GateEntry := []
  osl  : Tab OSlotCfg := []
  tpl  : Tab (List Byte) := []
  isl  : Tab ISlotCfg := []
deriving DecidableEq, Repr

/-- The cycle engine (R171 to R205). -/
structure Cyc where
  act   : Sched := {}
  pend  : Sched := {}
  phase : Int := 0
  /-- The cycle in progress, the raw time of its start, the header's rd_cycle (R178). -/
  now   : Int := 0
  start : Nat := 0
  rdCycle : Int := 0
  armed : Option Commit := none
  /-- The cycle of the commit applied last, while its halters are still to be judged (R198). -/
  judge : Option Nat := none
  /-- Reins 10 and 14 were lost while a commit was armed (R192). -/
  lost10 : Bool := false
  lost14 : Bool := false
  /-- The host took the bound generator in hand: the module does not arm it itself (R200); a cause of R200 waits. -/
  handsOff : Bool := false
  armDue : Bool := false
  /-- The process image (R178): address and byte, strictly rising, no zero listed. Bank b lies at b * 2^20. -/
  image : List Host.Cell := []
  out   : Tab OutSt := []
  /-- Inbound status by 4,096 * bank + slot; the filling bank. -/
  inb   : Tab InSt := []
  fill  : Nat := 0
deriving DecidableEq, Repr

/-- A reference input (R275, R276) beyond its registers: its last offsets, newest first, in 1e-12, seconds passed in a
row, and whether it has been disqualified since reset. -/
structure RefSt where
  foff : List Int := []
  pass : Nat := 0
  dis  : Bool := false
deriving DecidableEq, Repr

/-- The clock subsystem (R250, R270 to R288) beyond its registers. -/
structure Clk where
  ref  : Tab RefSt := []
  /-- The reference being measured for a switch (R283). -/
  next : Option Nat := none
  /-- Under PASS, the hold value about which the DAC may move (R283). -/
  passAt : Option Int := none
  /-- A reference has been tracked since reset (R283). -/
  acquired : Bool := false
  /-- Comparisons in a row within the lock limits; fast acquisition runs (R271). -/
  good : Nat := 0
  fast : Bool := false
  /-- Seconds LOCKED without a break, and CLK_DAC at the last seconds, newest first (R284). -/
  secs : Nat := 0
  dacs : List Int := []
  /-- The build-out in 2^-16 ns (R283). -/
  buildout : Int := 0
  /-- Failed attempts of a synthesiser's acquisition (R288). -/
  tries : Tab Nat := []
  /-- Pairs of references that disagree (R277). -/
  apart : List (Nat × Nat) := []
  /-- By group: the transmit phase against CCLK/8, in steps of 0.390625 ps, measured at the last lock (R250). -/
  phase : Tab Nat := []
deriving DecidableEq, Repr

/-- A result of an interval unit (R307). -/
structure IuRes where
  flags : Nat
  seq   : Nat
  startFine : Nat
  startRaw  : Nat
  stopFine  : Nat
  stopRaw   : Nat
  interval  : Nat
  epoch     : Nat
deriving DecidableEq, Repr

/-- An interval unit (R299 to R307) beyond its registers. -/
structure IuSt where
  /-- The raw time from which the arming is in effect (R299). -/
  armAt : Nat := 0
  /-- START as taken: the CCLK edge after it, its code k, the epoch (R302). -/
  start : Option (Nat × Nat × Nat) := none
  /-- STOP as taken, its conversion under way: the CCLK edge after it and its code. -/
  stop  : Option (Nat × Nat) := none
  /-- The tick at which the dead time of R302 ends, and an arming held in it (R299). -/
  dead  : Option Nat := none
  hold  : Bool := false
  /-- The GATE pin stands at its active level. -/
  gate  : Bool := false
  /-- Results, oldest first, and the next seq (R307). -/
  queue : List IuRes := []
  seq   : Nat := 0
  /-- The correction table in force, named by the draw that loaded it: none before the first calibration (R305). -/
  table : Option Nat := none
deriving DecidableEq, Repr

/-- A trigger generator (R308 to R313) beyond its registers: the target of the next firing in 1/256 tick of its time
base, whether that firing is late (R312), and an active pulse: both its edges at the pad in 1/256 tick of raw time (R311). -/
structure TgSt where
  cur   : Nat := 0
  late  : Bool := false
  pulse : Option (Nat × Nat) := none
deriving DecidableEq, Repr

/-- The configuration a CFG_SAVE wrote (R393): register values by address, the modes of ports 0 to 23, board tables, static
FDB entries, VLAN and stream entries, the schedule with its period, phase, hash, bound generator
and enable, PTP settings by port, grandmaster
settings, bound MACs and VIDs, keys, owners and the log mask. Conventions: log 47. -/
structure Cfg where
  regs    : List (Nat × Word) := []
  modes   : List (Nat × PortMode) := []
  boards  : Tab (List Byte) := []
  statics : List FdbEnt := []
  vlan    : Tab VlanEntry := []
  streams : Tab StreamEntry := []
  sched   : Sched := {}
  period  : Word := 0
  phase   : Int := 0
  hash    : Word := 0
  gen     : Option Nat := none
  en      : Bool := false
  ptp     : List (Nat × PortTime) := []
  gms     : List GmSet := []
  binds   : List (Nat × Nat) := []
  keys    : List (List Byte) := []
  owners  : Tab Nat := []
  logMask : BitVec 256 := 0
deriving DecidableEq, Repr

/-- A configuration bank; `cfg = none` holds the factory defaults (R392, R409). -/
structure CfgBank where
  valid : Bool := false
  seq   : Nat := 0
  cfg   : Option Cfg := none
deriving DecidableEq, Repr

/-- The management processor, the feeds, the sensors and the persistent store (R379 to R400). -/
structure Mgt where
  fw : Fw := .down
  /-- The uptime at which the firmware became ready (R399). -/
  readyAt : Nat := 0
  /-- The next ready follows a watchdog restart (R380). -/
  watchdog : Bool := false
  /-- The next ready follows a firmware restart, which loads nothing (R387). -/
  warm : Bool := false
  /-- The raw time at which a freeze starts once triggered, and that until which FRZ_N stays asserted (R403). -/
  freezeAt : Option Nat := none
  frzUntil : Nat := 0
  /-- The failing bank's rollback waits to be reported at ready (R400). -/
  rolled : Bool := false
  /-- INT_N pull-ups strapped on, bit n for INTn_N (R417). -/
  pullups : BitVec 4 := 0
  /-- The running firmware bank (R389). -/
  fwBank : Nat := 0
  fwBanks : Tab FwBank := []
  savedBanks : Tab SavedState := []
  cfgBanks : Tab CfgBank := []
  /-- The saved-state values in force (R393). -/
  saved : SavedState := {}
  /-- The calibration banks hold a valid section (R392); written in the factory only. -/
  calValid : Bool := true
  job : Option StoreJob := none
  update : Option Update := none
  /-- The feeds' voltages in mV as the block senses them (R383), and whether the 12 V bus is in its window. -/
  feedA : Nat := 24000
  feedB : Nat := 24000
  busOk : Bool := true
  /-- Converter B is active; both converters drive (R384). -/
  activeB : Bool := false
  handover : Bool := false
  /-- The handover was forced (R385). -/
  forced : Bool := false
  /-- A feed above the lockout is cut off (R420). -/
  cutA : Bool := false
  cutB : Bool := false
  /-- Die sensors whose last reading was at or above 145 °C (R381). -/
  hot : BitVec 8 := 0
  /-- The log, oldest record first, the sequence of the last record, and the mask (R395, R396). -/
  log : List LogRec := []
  logSeq : Nat := 0
  logMask : BitVec 256
  /-- The uptime of the last hourly write of the saved state (R393). -/
  hourAt : Nat := 0
  /-- Records written in the present second, the second, and the records suppressed (R396). -/
  logSecond : Nat := 0
  logCount : Nat := 0
  suppressed : Nat := 0
  /-- Interval units in calibration and waiting for theirs, in turn: one at a time (R306). -/
  calQ : List Nat := []
deriving DecidableEq, Repr

/-- The state of the block. -/
structure State where
  /-- The commands that wait, first in, first out. -/
  pending : List Instr := []
  code : OrderCode := .i16
  /-- The 14-bit node ID (R11's node) and the module serial number of the calibration section. -/
  nodeId : Nat := 0
  serial : Nat := 0
  life : Life := .up
  /-- The freeze was a thermal stop (R382). -/
  thermalStop : Bool := false
  /-- The raw count (R206), uptime in ns (R208), the epoch (R219). -/
  raw : Raw := 0
  uptime : Nat := 0
  epoch : Nat := 0
  /-- The MODEL's own counter, not the spec's: it selects the next free value. -/
  freeCtr : Nat := 0
  /-- Register values in force, by BAR0 address (R363). -/
  regs : Tab Word := []
  /-- The bits the hardware set in tick `setAt`: a W1C in that tick leaves them set (R8, R370). -/
  setAt : Raw := 0
  setNow : Tab Word := []
  /-- Staged RWB/k and RWB/f values (R359). -/
  pendK : Tab Word := []
  pendF : Tab Word := []
  roles : Tab Role := []
  reins : Tab (Option Rein) := []
  /-- Owners of ports, stream entries, outbound and inbound slots: kind times 65,536 plus index
  (R338). -/
  owners : Tab Nat := []
  ctx : Tab Ctx := []
  deferred : List Deferred := []
  /-- The 48-bit fixed and programmable counters (R373). -/
  pmuFix : Tab Nat := []
  pmc : Tab Nat := []
  port : Tab PortSt := []
  /-- Board-table entries by lane (R73). -/
  boards : Tab (List Byte) := []
  /-- The last change of the own schedule hash or period: its raw time and the values before (R55). -/
  hashAt : Option Nat := none
  prevHash : Word := 0
  prevPeriod : Word := 0
  tim : Tim := {}
  ptime : Tab PortTime := []
  sw : Sw := {}
  tbl : Tables := {}
  cyc : Cyc := {}
  clk : Clk := {}
  iu : Tab IuSt := []
  tg : Tab TgSt := []
  mgt : Mgt
  tap : Tap := {}
deriving DecidableEq, Repr

/-- The factory log mask: every source except 108, 180 to 183, 192 and 224 to 231 (R396). Conventions: log 8. -/
def factoryMask : BitVec 256 :=
  ~~~(1#256 <<< 108 ||| 0xF#256 <<< 180 ||| 1#256 <<< 192 ||| 0xFF#256 <<< 224)

/-- The store as delivered: one confirmed firmware image in bank 0 and factory defaults elsewhere
(DESIGN CHOICE, log 8). -/
def factoryBanks : Tab FwBank := [(0, { valid := true, confirmed := true })]

/-- The state right after reset: out of reset at power-up, every register at its reset value, the
firmware not booted, no command waiting (R8, R349, R378). -/
def State.reset : State :=
  { mgt := { fwBanks := factoryBanks, logMask := factoryMask } }

end Sys2Proof.Machine
end

