-- ==== Sys2Proof/Machine/Beat.lean ====
section
/-! DEFINITION. The beats of a Kamxon line (R26 to R34): control and data beats, their order on the line, the scrambler,
run-length stuffing, and the bursts a transmitter sends (R29, R43, R46, R50, R51). -/

namespace Sys2Proof.Machine

/-! Beats (R26 to R29). -/

/-- The 33 bits of a beat in line order: the type bit, then payload bit 0 to 31 (R26). -/
def beatBits (b : Beat) : List Bool := b.ctl :: (List.range 32).map b.payload.getLsbD

/-- Bits as a number, the first lowest. -/
def bitsNat : List Bool → Nat
  | [] => 0
  | b :: t => (if b then 1 else 0) + 2 * bitsNat t

/-- The beat of 33 bits in line order (R26). -/
def beatOf : List Bool → Beat
  | [] => { ctl := false, payload := 0 }
  | b :: t => { ctl := b, payload := BitVec.ofNat 32 (bitsNat t) }

/-- The CRC-8 of R28 over 24 bits, most significant bit first. -/
def crc8 (bits : Nat) : Nat :=
  (List.range 24).foldl
    (fun c i =>
      let top : Bool := (c.testBit 7).xor (bits.testBit (23 - i))
      Nat.xor (c * 2 % 256) (if top then 7 else 0)) 0

/-- The control beat of a type with an argument (R28). -/
def ctlBeat (ty arg : Nat) : Beat :=
  let v := ty % 64 * 2 ^ 18 + arg % 2 ^ 18
  { ctl := true, payload := BitVec.ofNat 32 (v * 256 + crc8 v) }

/-- The type and the argument of a control beat; its CRC-8 is good (R28). -/
def beatTy (b : Beat) : Nat := b.payload.toNat / 2 ^ 26
def beatArg (b : Beat) : Nat := b.payload.toNat / 256 % 2 ^ 18
def beatCrcOk (b : Beat) : Bool := decide (crc8 (b.payload.toNat / 256) = b.payload.toNat % 256)

/-! The beats of R29. -/

def idleBeat : Beat := ctlBeat 0x00 0
def markBeat (seq : Nat) : Beat := ctlBeat 0x01 seq
def sofBeat (cls hint : Nat) : Beat := ctlBeat 0x02 (cls % 8 * 2 ^ 15 + hint % 2 ^ 15)
def eofBeat (valid : Nat) : Beat := ctlBeat 0x03 (valid % 8)
def abortBeat (reason : Nat) : Beat := ctlBeat 0x04 (reason % 16)
def preemptBeat : Beat := ctlBeat 0x05 0
def resumeBeat : Beat := ctlBeat 0x06 0
def crumbBeat : Beat := ctlBeat 0x07 0
def trainBeat (index pos : Nat) : Beat := ctlBeat 0x0A (index % 64 * 2 ^ 10 + pos % 2 ^ 10)
def dozeBeat : Beat := ctlBeat 0x0B 0

/-- The data beats of a frame's bytes: four a beat, the first byte lowest, the last beat filled up with zeros (R27). -/
def dataBeats : List Byte → List Beat
  | [] => []
  | a :: b :: c :: d :: t => { ctl := false, payload := d ++ c ++ b ++ a } :: dataBeats t
  | l => [{ ctl := false, payload := BitVec.ofNat 32 (leNat l) }]

/-- The bytes valid in a frame's last data beat (R29, R30). -/
def validBytes (n : Nat) : Nat := if n % 4 = 0 then 4 else n % 4

/-- The beats of a message's words: type 0x08 TIME or 0x09 HALTER, the position flag in argument [17:16] (R51). -/
def msgBeats (ty : Nat) (ws : List Nat) : List Beat :=
  let n := ws.length
  (List.range n).map fun i =>
    ctlBeat ty ((if i = 0 then 1 else if i + 1 = n then 2 else 0) * 2 ^ 16 + ws.getD i 0 % 2 ^ 16)

/-- The bytes of 16-bit words, low byte first (R51). -/
def wordBytes (ws : List Nat) : List Byte := ws.flatMap (leBytes 2)

/-- Words with their CRC-32C in two more, the low half first (R51). -/
def withMsgCrc (ws : List Nat) : List Nat :=
  let c := (crc32c (wordBytes ws)).toNat
  ws ++ [c % 65536, c / 65536]

/-- A message's words end in the CRC-32C of those before, and their count is that of W0 (R51). -/
def msgOk (ws : List Nat) : Bool :=
  let n := ws.length
  decide (14 ≤ n ∧ n ≤ 64) && decide (ws.getD 0 0 % 256 = n) && ws.all (fun w => decide (w < 65536))
    && decide ((crc32c (wordBytes (ws.take (n - 2)))).toNat = ws.getD (n - 2) 0 + ws.getD (n - 1) 0 * 65536)

/-- The words of a message as its beats bring them, or `none` where R51 discards it: another beat than a MARK among them, a
failed CRC-8, flags out of order, or words that are not in order. -/
def msgWords (beats : List Beat) : Option (List Nat) :=
  let bs := beats.filter fun b => !(b.ctl && beatCrcOk b && decide (beatTy b = 1))
  let n := bs.length
  let flag := fun i => ((bs[i]?).map fun b => beatArg b / 2 ^ 16).getD 3
  let ws := bs.map fun b => beatArg b % 2 ^ 16
  let ty := ((bs.head?).map beatTy).getD 0
  if (decide (ty = 8) || decide (ty = 9)) && bs.all (fun b => b.ctl && beatCrcOk b && decide (beatTy b = ty))
      && (List.range n).all (fun i => decide (flag i = if i = 0 then 1 else if i + 1 = n then 2 else 0)) && msgOk ws then some ws
  else none

/-! Scrambling (R32): the register holds the last 58 scrambled bits, the newest at bit 0. -/

/-- s(n) of R32 for d(n), and the register after it. -/
def scramBit (r : BitVec 58) (d : Bool) : Bool × BitVec 58 :=
  let s := (d.xor (r.getLsbD 38)).xor (r.getLsbD 57)
  (s, (r <<< 1) ||| (BitVec.ofBool s).setWidth 58)

/-- d(n) of R32 for s(n), and the register after it. -/
def descramBit (r : BitVec 58) (s : Bool) : Bool × BitVec 58 :=
  ((s.xor (r.getLsbD 38)).xor (r.getLsbD 57), (r <<< 1) ||| (BitVec.ofBool s).setWidth 58)

/-- A run of bits through either. -/
def scramAll (f : BitVec 58 → Bool → Bool × BitVec 58) : BitVec 58 → List Bool → List Bool × BitVec 58
  | r, [] => ([], r)
  | r, b :: t =>
    let x := f r b
    let y := scramAll f x.2 t
    (x.1 :: y.1, y.2)

/-! Stuffing (R33, R34): `last` and `run` give the run of identical line bits so far. -/

/-- A line bit and the run after it. -/
def runNext (last : Bool) (run : Nat) (b : Bool) : Bool × Nat :=
  (b, if run = 0 ∨ b ≠ last then 1 else run + 1)

/-- The line bits of scrambled bits: one of the opposite value after every run of 24, which starts the next run (R33). -/
def stuffBits : Bool → Nat → List Bool → List Bool × Bool × Nat
  | last, run, [] => ([], last, run)
  | last, run, b :: t =>
    let x := runNext last run b
    if x.2 = 24 then
      let y := stuffBits (!b) 1 t
      (b :: (!b) :: y.1, y.2)
    else
      let y := stuffBits x.1 x.2 t
      (b :: y.1, y.2)

/-- Line bits without the stuffed ones, the stuff errors among them, and the run after (R34). -/
def unstuffBits : Bool → Nat → List Bool → List Bool × Nat × Bool × Nat
  | last, run, [] => ([], 0, last, run)
  | last, run, b :: t =>
    if run = 24 then
      if b = last then
        let y := unstuffBits b 0 t
        (y.1, y.2.1 + 1, y.2.2)
      else unstuffBits b 1 t
    else
      let x := runNext last run b
      let y := unstuffBits x.1 x.2 t
      (b :: y.1, y.2)

/-! The transmitted stream. -/

/-- Beats are put on the line (R32, R33). -/
def LineTx.put (x : LineTx) (bs : List Beat) : LineTx :=
  let a := scramAll scramBit x.scr (bs.flatMap beatBits)
  let b := stuffBits x.last x.run a.1
  { x with scr := a.2, last := b.2.1, run := b.2.2, beats := bs, bits := b.1 }

/-- One beat's place in the stream: the position moves on (R31), and a crumb starts the count of R43 again. -/
def LineTx.step (x : LineTx) (crumb : Bool) : LineTx :=
  { x with pos := (x.pos + 1) % 1024, since := if crumb then 0 else x.since + 1 }

/-- Beats with what the stream puts ahead of each: a MARK at every 1,024th beat (R31), and where a crumb may stand one
after `limit` beats without one (R43). `first` is set while no beat of the burst has been sent. -/
def LineTx.weave (limit : Option Nat) : Bool → LineTx → Nat → List Beat → List Beat × LineTx × Nat
  | _, x, seq, [] => ([], x, seq)
  | first, x, seq, b :: t =>
    let m : Bool := decide (x.pos = 0)
    let x1 := if m then x.step false else x
    let seq1 := if m then (seq + 1) % 2 ^ 18 else seq
    let c : Bool := !first && (match limit with
      | none => false
      | some n => decide (n ≤ x1.since))
    let x2 := if c then x1.step true else x1
    let m2 : Bool := c && decide (x2.pos = 0)
    let x3 := if m2 then x2.step false else x2
    let seq3 := if m2 then (seq1 + 1) % 2 ^ 18 else seq1
    let y := LineTx.weave limit false (x3.step (decide (b = crumbBeat))) seq3 t
    ((if m then [markBeat seq] else []) ++ (if c then [crumbBeat] else []) ++ (if m2 then [markBeat seq1] else []) ++ b :: y.1, y.2)

/-- `n` beats of an idle line: MARK at its positions, else IDLE (R31). -/
def LineTx.idle : Nat → LineTx → Nat → List Beat × LineTx × Nat
  | 0, x, seq => ([], x, seq)
  | n + 1, x, seq =>
    let m : Bool := decide (x.pos = 0)
    let y := LineTx.idle n (x.step false) (if m then (seq + 1) % 2 ^ 18 else seq)
    ((if m then markBeat seq else idleBeat) :: y.1, y.2)

/-- The burst of R50: TRAIN with indices `n - 1` down to 0, each with its own position, a MARK at its place. -/
def LineTx.train : Nat → LineTx → Nat → List Beat × LineTx × Nat
  | 0, x, seq => ([], x, seq)
  | n + 1, x, seq =>
    let m : Bool := decide (x.pos = 0)
    let x1 := if m then x.step false else x
    let seq1 := if m then (seq + 1) % 2 ^ 18 else seq
    let y := LineTx.train n (x1.step false) seq1
    ((if m then [markBeat seq] else []) ++ trainBeat n x1.pos :: y.1, y.2)

/-! The received stream. -/

/-- Line bits through the receiver (R32, R34): the descrambled bits, the stuff errors, and the stream after them. -/
def LineRx.hear (x : LineRx) (line : List Bool) : List Bool × Nat × LineRx :=
  let u := unstuffBits x.last x.run line
  let d := scramAll descramBit x.scr u.1
  (d.1, u.2.1, { x with scr := d.2, last := u.2.2.1, run := u.2.2.2 })

/-- The types of control beat that may stand in a place (R31, R46); `susp` inside a preemption. -/
def typesAt (susp : Bool) : Place → List Nat
  | .gap => if susp then [1, 2, 6] else [0, 1, 2, 7, 8, 9, 10, 11]
  | .frame c => if susp then (if c = 7 then [1, 3, 4, 7] else [1, 2, 6]) else if c < 6 then [1, 2, 3, 4, 5, 7, 8, 9] else [1, 2, 3, 4, 7]
  | .message => [1, 8, 9]

/-- A received control beat with a good CRC-8 counts one error (R30, R47): a reserved type, an EOF with a wrong count, or a
place that R31 does not allow. An SOF of class 0 to 6 inside a preemption is counted with its frame (`State.lostResume`).
Conventions: log 20. -/
def badBeat (susp : Bool) (b : Beat) (place : Place) : Bool :=
  (!(typesAt susp place).contains (beatTy b) && !(susp && decide (beatTy b = 2) && decide (beatArg b / 2 ^ 15 < 7))) || (decide (beatTy b = 3) && (decide (beatArg b % 8 = 0) || decide (4 < beatArg b % 8)))

end Sys2Proof.Machine
end

