-- ==== Sys2Proof/Config.lean ====
section
/-! DEFINITION. The free values: what the spec leaves open and the block nevertheless produces.
Each is a constant with no body, applied to a plain counter of the state (or to the operands it
depends on), so that no proof sees a value of it. -/

namespace Sys2Proof.Config

/-- The number of free-running MCLK edges in one CCLK tick; MCLK is independent of the OCXO
(R17, R208), so their ratio is not fixed. Uptime advances 2 ns for each (DESIGN CHOICE, log 1). -/
opaque mclkEdges : Nat → Nat

/-- The signed change of the DPLL's DAC value at one comparison, by draw, bandwidth in mHz and phase error in ps: the
spec names a second-order loop and its bandwidth (R270) and not its arithmetic (DESIGN CHOICE, log 42). -/
opaque dacStep : Nat → Nat → Int → Int

/-- What a descriptor buffer in host memory holds, where a register write posts descriptors
without saying what they contain (R108): by draw and byte or field (DESIGN CHOICE, log 28). -/
opaque hostDesc : Nat → Nat → Nat

/-- The management processor's program counter at an overflow sample (R376). -/
opaque programCounter : Nat → BitVec 32

/-- Bits the TAP shifts out of a chain whose map the spec does not give (R405), by draw and place
(DESIGN CHOICE, log 18). -/
opaque tapBits : Nat → Nat → Nat

/-- The IDCODE and boundary-register bits of the BSDL file, which the spec does not give (R405), by instruction and
draw (DESIGN CHOICE, log 18). -/
opaque bsdlBits : Nat → Nat → Nat

/-- A value of a calibration record that the spec states no default for (R252, R295) (DESIGN CHOICE, log 46). -/
opaque calibration : Nat → Int

/-- A word of the packet buffer or of its control memory as the TAP reads it (R406): the spec
gives no layout of cells, descriptors and ECC bits. By draw and address (DESIGN CHOICE, log 18). -/
opaque bufferWord : Nat → Nat → BitVec 32

/-- The back-off draws of a multidrop port: by the module's serial number and the port, which seed its generator, and the
number of draws since reset; the spec gives no generator (R100) (DESIGN CHOICE, log 51). -/
opaque backoff : Nat → Nat → Nat → Nat

/-- Bytes 16 to 47 of an overflow record's header as a number: the lookup's edit instructions, whose layout the spec does
not give (R129), by untag, plain, VLAN and priority (DESIGN CHOICE, log 57). -/
opaque editCode : Bool → Bool → Nat → Nat → Nat

/-- The calibration bank's record of a port passes its CRC and holds a rate family (R252): by port and family
(DESIGN CHOICE, log 46). -/
opaque calHas : Nat → Nat → Bool

/-- A measured quantity of an uncontrolled oscillator or edge that the spec states no value for
(DESIGN CHOICE, log 51). -/
opaque measured : Nat → Int

/-- The nominal voltage in mV of a point-of-load rail (R381 names nine rails and no voltage) (DESIGN CHOICE, log 11). -/
opaque railNominal : Nat → Nat

/-- The module's EUI-64, taken from its serial number by a rule the spec does not give (R260). -/
opaque eui : Nat → BitVec 64

/-- The sequence of a calibration bank, which the factory wrote (R391, R393) (DESIGN CHOICE, log 8). -/
opaque calSeq : Nat → Nat

/-- The fine part that a correction table gives a code: by unit, input (0 START, 1 STOP), the draw that loaded the table
and the code k (R305) (DESIGN CHOICE, log 41). -/
opaque calCode : Nat → Nat → Nat → Nat → Nat

/-- The present level of a pin that nothing in the block drives, by pin and draw (R315) (DESIGN CHOICE, log 41). -/
opaque pinLevel : Nat → Nat → Bool

/-- The die sensor assigned to a unit (0 to 3) or to a port's transceiver (4 + p): R251 and R306 name one and the spec
gives no assignment (DESIGN CHOICE, log 11). -/
opaque sensorOf : Nat → Nat

/-- The module's MAC address on a port, as a PTP message it sends there carries it: the spec gives none (log 53). -/
opaque portMac : Nat → BitVec 48

/-- The source addresses of the module's PTP messages over UDP by port: IPv4 and IPv6; the spec gives none (log 53). -/
opaque portIp4 : Nat → BitVec 32
opaque portIp6 : Nat → BitVec 128

/-- The priority code point of a frame MGMT sends where it leaves tagged (R116 gives its class only) (DESIGN CHOICE, log 29). -/
opaque mgtPcp : BitVec 3

/-- The tag (0) and the sequence (1) in the packet of an event frame, which the spec does not give (R369) (DESIGN CHOICE,
log 29). -/
opaque eventHead : Nat → Nat

/-- A reply's parameters as bytes, by opcode, status and fields in order, where no rule gives the fields' widths (R330)
(DESIGN CHOICE, log 4). -/
opaque packParams : Nat → Nat → List Nat → List (BitVec 8)

/-- How often a performance event of the management processor or a host link happens in one tick (R372), by event
and draw: the spec describes no cause of it that this model holds (DESIGN CHOICE, log 1). -/
opaque activity : Nat → Nat → Nat

end Sys2Proof.Config
end

