-- ==== Sys2Proof/Machine/Tab.lean ====
section
/-! DEFINITION. Sparse tables in one canonical form: keys rise strictly and no listed value is the
default of its key. Registers, contexts, ports, tables and queues of the block are kept so. -/

namespace Sys2Proof.Machine

variable {α : Type}

/-- The value at key `k`: the listed one, or the default of the key. -/
def Tab.get (d : Nat → α) : Tab α → Nat → α
  | [], k => d k
  | (j, v) :: t, k => if k = j then v else Tab.get d t k

/-- The table with `k` unlisted. -/
def Tab.del : Tab α → Nat → Tab α
  | [], _ => []
  | (j, v) :: t, k => if k = j then Tab.del t k else (j, v) :: Tab.del t k

/-- The table with `v` listed at `k`, in its place. -/
def Tab.put : Tab α → Nat → α → Tab α
  | [], k, v => [(k, v)]
  | (j, w) :: t, k, v =>
    if k < j then (k, v) :: (j, w) :: t
    else if k = j then (k, v) :: t
    else (j, w) :: Tab.put t k v

/-- Writing `v` at `k`; writing the default unlists the key. -/
def Tab.set [DecidableEq α] (d : Nat → α) (t : Tab α) (k : Nat) (v : α) : Tab α :=
  if v = d k then Tab.del t k else Tab.put t k v

/-- Keys above `b`, strictly rising, and no default listed. -/
def Tab.above [DecidableEq α] (d : Nat → α) : Nat → Tab α → Bool
  | _, [] => true
  | b, (j, v) :: t => decide (b ≤ j) && decide (v ≠ d j) && Tab.above d (j + 1) t

/-- The canonical form. -/
def Tab.wf [DecidableEq α] (d : Nat → α) (t : Tab α) : Bool := Tab.above d 0 t

end Sys2Proof.Machine
end

