-- ==== Sys2Proof/Machine/Reg.lean ====
section
/-! DEFINITION. The register map (R363): the address of every register, and a row for each register
array with its strides, its access (R8), its reset value, the rein and owner a write needs (R342),
what a read shows and what a write does. The values live in `State.regs`. -/

namespace Sys2Proof.Machine

/-- A reset value that depends on the register's place in its array, or a plain one. -/
inductive Rst
  | val (w : Word) | route | maxfrm | alpha | qcfg | dom | ticket | syn
deriving DecidableEq, Repr

/-- Who may write the register (R342). -/
inductive Gate
  /-- Anyone: TBL_RD_SEL and CYC_RD_SEL, or no writable field. -/
  | free
  /-- The PRINCIPAL, under R9. -/
  | dg
  | sys | own | port | swc | swcQueue | swcPort | tbl | tblPort | pvid | clk | clkRef | tsu | cyc
  | pin | gen | iunit | mgt | pmu | pmc
deriving DecidableEq, Repr

/-- What a read shows: the stored value, zero, the shadow of R355, or a word that other state
supplies. -/
inductive View
  | reg | zero | shadow | pairReg | halterRx | replayFloor
  | phyStat | feat | uptime | role | level | ctxStat | evtPend | ringStat | pool | dram | queueDram | fdbStat
  | shadowCtrl | shadowStat | lrnStat | lrnPop | tsuState | epoch | bridge | rawSnap | genLatch | buildout
  | tgCtrl | iuPop | iuStat | ttStat | cycStat | cycPhase | cycNow | cycArmed | shareCrc | pendShareCrc
  | pmuFix | pmcCnt | mgtStat | fwVer | feedStat | storeStat | logSeq | storeErase | tioLevel
deriving DecidableEq, Repr

/-- What a write does beyond the masks of its row. -/
inductive Act
  /-- Nothing is writable. -/
  | none
  /-- RW fields take the value, W1C bits clear. -/
  | plain
  /-- RWB/k. -/
  | buffered
  /-- The X of a double-write-guard pair (R361). -/
  | guard
  /-- The _LO of a writable pair (R356). -/
  | pairLo
  | queueSize | queueBase | cqHead | doorbell | ringBase | ringSize | ringCtrl | ringTail
  | evtStat | evtMask | evtRearm | maxfrm | pcpMap | capAdv | phyCtrl | eq | portCommit | alpha
  | swcCommit | poolLow | sample | qcfg | arbCommit | tblRdSel | shadowCtrl | clkSel | synCfg | refCfg
  | bridle | genField | tgCtrl | iuCtrl | cycCtrl | cycRdSel | pmcSel | pmcCnt | smpStat | lineCtrl
deriving DecidableEq, Repr

/-- A register array: register `(i, j)` with `lo ≤ i < n1` and `j < n2` stands at
`base + s1 * i + s2 * j`. -/
structure Row where
  base : Nat
  s1   : Nat := 0
  lo   : Nat := 0
  n1   : Nat := 1
  s2   : Nat := 0
  n2   : Nat := 1
  rw   : Word := 0
  w1c  : Word := 0
  rst  : Rst := .val 0
  gate : Gate := .free
  view : View := .reg
  act  : Act := .none
deriving DecidableEq, Repr

/-- The address of register `(i, j)` of a row. -/
def Row.addr (r : Row) (i j : Nat) : Nat := r.base + r.s1 * i + r.s2 * j

/-- The place of address `a` in the row, if it has one. -/
def Row.place (r : Row) (a : Nat) : Option (Nat × Nat) :=
  let o := a - r.base
  let i := if r.s1 = 0 then 0 else o / r.s1
  let o' := o - r.s1 * i
  let j := if r.s2 = 0 then 0 else o' / r.s2
  if r.base ≤ a ∧ r.lo ≤ i ∧ i < r.n1 ∧ j < r.n2 ∧ r.addr i j = a then some (i, j) else none

/-- sysId (R364). -/
def Reg.sysId : Nat := 0x0
def Reg.sysIdRow : Row := { base := 0x0, rst := .val 0x5E705B32, gate := .sys }
/-- sysRev (R364) (DESIGN CHOICE, log 10). -/
def Reg.sysRev : Nat := 0x4
def Reg.sysRevRow : Row := { base := 0x4, gate := .sys }
/-- sysFeat (R3, R364). -/
def Reg.sysFeat : Nat := 0x8
def Reg.sysFeatRow : Row := { base := 0x8, gate := .sys, view := .feat }
/-- sysScratch (R364). -/
def Reg.sysScratch : Nat := 0xC
def Reg.sysScratchRow : Row := { base := 0xC, rw := 0xFFFFFFFF, gate := .sys, act := .plain }
/-- sysUptimeLo (R208, R364). -/
def Reg.sysUptimeLo : Nat := 0x10
def Reg.sysUptimeLoRow : Row := { base := 0x10, gate := .sys, view := .uptime }
/-- sysUptimeHi (R208, R364). -/
def Reg.sysUptimeHi : Nat := 0x14
def Reg.sysUptimeHiRow : Row := { base := 0x14, gate := .sys, view := .shadow }
/-- sysReset (R361, R364, R386). -/
def Reg.sysReset : Nat := 0x20
def Reg.sysResetRow : Row := { base := 0x20, gate := .dg, view := .zero, act := .guard }
/-- sysFreezeEn (R361, R403). -/
def Reg.sysFreezeEn : Nat := 0x28
def Reg.sysFreezeEnRow : Row := { base := 0x28, gate := .dg, act := .guard }
/-- sysTapUnlock (R361, R405). -/
def Reg.sysTapUnlock : Nat := 0x30
def Reg.sysTapUnlockRow : Row := { base := 0x30, gate := .dg, act := .guard }
/-- hcxRole (R346). -/
def Reg.hcxRole (c : Nat) : Nat := 0x10000 + 0x1000 * c + 0x0
def Reg.hcxRoleRow : Row := { base := 0x10000, s1 := 0x1000, n1 := 8, gate := .own, view := .role }
/-- hcxLevel (R346). -/
def Reg.hcxLevel (c : Nat) : Nat := 0x10000 + 0x1000 * c + 0x4
def Reg.hcxLevelRow : Row := { base := 0x10004, s1 := 0x1000, n1 := 8, gate := .own, view := .level }
/-- hcxStat (R346). -/
def Reg.hcxStat (c : Nat) : Nat := 0x10000 + 0x1000 * c + 0x8
def Reg.hcxStatRow : Row := { base := 0x10008, s1 := 0x1000, n1 := 8, w1c := 0x700, gate := .own, view := .ctxStat, act := .plain }
/-- hcxBind (R346). -/
def Reg.hcxBind (c : Nat) : Nat := 0x10000 + 0x1000 * c + 0xC
def Reg.hcxBindRow : Row := { base := 0x1000C, s1 := 0x1000, n1 := 8, gate := .own }
/-- hcxSqBaseLo (R346). -/
def Reg.hcxSqBaseLo (c : Nat) : Nat := 0x10000 + 0x1000 * c + 0x10
def Reg.hcxSqBaseLoRow : Row := { base := 0x10010, s1 := 0x1000, n1 := 4, rw := 0xFFFFF000, gate := .own, view := .pairReg, act := .pairLo }
/-- hcxSqBaseHi (R346). -/
def Reg.hcxSqBaseHi (c : Nat) : Nat := 0x10000 + 0x1000 * c + 0x14
def Reg.hcxSqBaseHiRow : Row := { base := 0x10014, s1 := 0x1000, n1 := 4, rw := 0xFFFFFFFF, gate := .own, view := .shadow, act := .queueBase }
/-- hcxSqSize (R346). -/
def Reg.hcxSqSize (c : Nat) : Nat := 0x10000 + 0x1000 * c + 0x18
def Reg.hcxSqSizeRow : Row := { base := 0x10018, s1 := 0x1000, n1 := 4, rw := 0x7F, rst := .val 0x8, gate := .own, act := .queueSize }
/-- hcxSqHead (R346). -/
def Reg.hcxSqHead (c : Nat) : Nat := 0x10000 + 0x1000 * c + 0x1C
def Reg.hcxSqHeadRow : Row := { base := 0x1001C, s1 := 0x1000, n1 := 4, gate := .own }
/-- hcxCqBaseLo (R346). -/
def Reg.hcxCqBaseLo (c : Nat) : Nat := 0x10000 + 0x1000 * c + 0x20
def Reg.hcxCqBaseLoRow : Row := { base := 0x10020, s1 := 0x1000, n1 := 4, rw := 0xFFFFF000, gate := .own, view := .pairReg, act := .pairLo }
/-- hcxCqBaseHi (R346). -/
def Reg.hcxCqBaseHi (c : Nat) : Nat := 0x10000 + 0x1000 * c + 0x24
def Reg.hcxCqBaseHiRow : Row := { base := 0x10024, s1 := 0x1000, n1 := 4, rw := 0xFFFFFFFF, gate := .own, view := .shadow, act := .queueBase }
/-- hcxCqSize (R346). -/
def Reg.hcxCqSize (c : Nat) : Nat := 0x10000 + 0x1000 * c + 0x28
def Reg.hcxCqSizeRow : Row := { base := 0x10028, s1 := 0x1000, n1 := 4, rw := 0x7F, rst := .val 0x8, gate := .own, act := .queueSize }
/-- hcxCqHead (R346). -/
def Reg.hcxCqHead (c : Nat) : Nat := 0x10000 + 0x1000 * c + 0x2C
def Reg.hcxCqHeadRow : Row := { base := 0x1002C, s1 := 0x1000, n1 := 4, rw := 0x3F, gate := .own, act := .cqHead }
/-- hcxCqTail (R346). -/
def Reg.hcxCqTail (c : Nat) : Nat := 0x10000 + 0x1000 * c + 0x30
def Reg.hcxCqTailRow : Row := { base := 0x10030, s1 := 0x1000, n1 := 4, gate := .own }
/-- hcxQCtrl (R346). -/
def Reg.hcxQCtrl (c : Nat) : Nat := 0x10000 + 0x1000 * c + 0x34
def Reg.hcxQCtrlRow : Row := { base := 0x10034, s1 := 0x1000, n1 := 4, rw := 0xFFFFFFFF, gate := .own, act := .plain }
/-- hcxDoorbell (R346). -/
def Reg.hcxDoorbell (c : Nat) : Nat := 0x10000 + 0x1000 * c + 0x40
def Reg.hcxDoorbellRow : Row := { base := 0x10040, s1 := 0x1000, n1 := 4, gate := .own, view := .zero, act := .doorbell }
/-- hcxSeqGaps (R346). -/
def Reg.hcxSeqGaps (c : Nat) : Nat := 0x10000 + 0x1000 * c + 0x44
def Reg.hcxSeqGapsRow : Row := { base := 0x10044, s1 := 0x1000, n1 := 8, gate := .own }
/-- hcxCmdCount (R346). -/
def Reg.hcxCmdCount (c : Nat) : Nat := 0x10000 + 0x1000 * c + 0x48
def Reg.hcxCmdCountRow : Row := { base := 0x10048, s1 := 0x1000, n1 := 8, gate := .own }
/-- hcxIntPin (R346). -/
def Reg.hcxIntPin (c : Nat) : Nat := 0x10000 + 0x1000 * c + 0x50
def Reg.hcxIntPinRow : Row := { base := 0x10050, s1 := 0x1000, lo := 4, n1 := 6, rw := 0xFFFFFFFF, gate := .own, act := .plain }
/-- hcxPmuUserEn (R346, R377). -/
def Reg.hcxPmuUserEn (c : Nat) : Nat := 0x10000 + 0x1000 * c + 0x60
def Reg.hcxPmuUserEnRow : Row := { base := 0x10060, s1 := 0x1000, n1 := 4, rw := 0xFFFFFFFF, gate := .own, act := .plain }
/-- hcxReplayFloorLo (R329, R346). -/
def Reg.hcxReplayFloorLo (c : Nat) : Nat := 0x10000 + 0x1000 * c + 0x70
def Reg.hcxReplayFloorLoRow : Row := { base := 0x10070, s1 := 0x1000, lo := 6, n1 := 8, gate := .own, view := .replayFloor }
/-- hcxReplayFloorHi (R329, R346). -/
def Reg.hcxReplayFloorHi (c : Nat) : Nat := 0x10000 + 0x1000 * c + 0x74
def Reg.hcxReplayFloorHiRow : Row := { base := 0x10074, s1 := 0x1000, lo := 6, n1 := 8, gate := .own, view := .shadow }
/-- hcxAuthFail (R346). -/
def Reg.hcxAuthFail (c : Nat) : Nat := 0x10000 + 0x1000 * c + 0x78
def Reg.hcxAuthFailRow : Row := { base := 0x10078, s1 := 0x1000, lo := 6, n1 := 8, gate := .own }
/-- ringBaseLo (R106). -/
def Reg.ringBaseLo (c k : Nat) : Nat := 0x10000 + 0x1000 * c + 0x400 + 0x20 * k + 0x0
def Reg.ringBaseLoRow : Row := { base := 0x10400, s1 := 0x1000, n1 := 4, s2 := 0x20, n2 := 4, rw := 0xFFFFFFC0, gate := .own, view := .pairReg, act := .pairLo }
/-- ringBaseHi (R106). -/
def Reg.ringBaseHi (c k : Nat) : Nat := 0x10000 + 0x1000 * c + 0x400 + 0x20 * k + 0x4
def Reg.ringBaseHiRow : Row := { base := 0x10404, s1 := 0x1000, n1 := 4, s2 := 0x20, n2 := 4, rw := 0xFFFFFFFF, gate := .own, view := .shadow, act := .ringBase }
/-- ringSize (R106). -/
def Reg.ringSize (c k : Nat) : Nat := 0x10000 + 0x1000 * c + 0x400 + 0x20 * k + 0x8
def Reg.ringSizeRow : Row := { base := 0x10408, s1 := 0x1000, n1 := 4, s2 := 0x20, n2 := 4, rw := 0xFFFFFFFF, rst := .val 0x10, gate := .own, act := .ringSize }
/-- ringCtrl (R106). -/
def Reg.ringCtrl (c k : Nat) : Nat := 0x10000 + 0x1000 * c + 0x400 + 0x20 * k + 0xC
def Reg.ringCtrlRow : Row := { base := 0x1040C, s1 := 0x1000, n1 := 4, s2 := 0x20, n2 := 4, rw := 0xFFFFFFFF, rst := .val 0x640000, gate := .own, act := .ringCtrl }
/-- ringTail (R106). -/
def Reg.ringTail (c k : Nat) : Nat := 0x10000 + 0x1000 * c + 0x400 + 0x20 * k + 0x10
def Reg.ringTailRow : Row := { base := 0x10410, s1 := 0x1000, n1 := 4, s2 := 0x20, n2 := 4, rw := 0xFFFFFFFF, gate := .own, act := .ringTail }
/-- ringHead (R106). -/
def Reg.ringHead (c k : Nat) : Nat := 0x10000 + 0x1000 * c + 0x400 + 0x20 * k + 0x14
def Reg.ringHeadRow : Row := { base := 0x10414, s1 := 0x1000, n1 := 4, s2 := 0x20, n2 := 4, gate := .own }
/-- ringStat (R106). -/
def Reg.ringStat (c k : Nat) : Nat := 0x10000 + 0x1000 * c + 0x400 + 0x20 * k + 0x18
def Reg.ringStatRow : Row := { base := 0x10418, s1 := 0x1000, n1 := 4, s2 := 0x20, n2 := 4, w1c := 0x700, gate := .own, view := .ringStat, act := .plain }
/-- ringDrop (R106). -/
def Reg.ringDrop (c k : Nat) : Nat := 0x10000 + 0x1000 * c + 0x400 + 0x20 * k + 0x1C
def Reg.ringDropRow : Row := { base := 0x1041C, s1 := 0x1000, n1 := 4, s2 := 0x20, n2 := 4, gate := .own }
/-- hcxMacHi (R106). -/
def Reg.hcxMacHi (c : Nat) : Nat := 0x10000 + 0x1000 * c + 0x480
def Reg.hcxMacHiRow : Row := { base := 0x10480, s1 := 0x1000, n1 := 4, rw := 0xFFFFFFFF, gate := .own, act := .plain }
/-- hcxMacLo (R106). -/
def Reg.hcxMacLo (c : Nat) : Nat := 0x10000 + 0x1000 * c + 0x484
def Reg.hcxMacLoRow : Row := { base := 0x10484, s1 := 0x1000, n1 := 4, rw := 0xFFFFFFFF, gate := .own, act := .plain }
/-- evtStat (R366). -/
def Reg.evtStat (c j : Nat) : Nat := 0x20000 + 0x100 * c + 4 * j
def Reg.evtStatRow : Row := { base := 0x20000, s1 := 0x100, n1 := 8, s2 := 0x4, n2 := 8, w1c := 0xFFFFFFFF, gate := .own, act := .evtStat }
/-- evtMask (R366). -/
def Reg.evtMask (c j : Nat) : Nat := 0x20000 + 0x100 * c + 0x20 + 4 * j
def Reg.evtMaskRow : Row := { base := 0x20020, s1 := 0x100, n1 := 8, s2 := 0x4, n2 := 8, rw := 0xFFFFFFFF, rst := .val 0xFFFFFFFF, gate := .own, act := .evtMask }
/-- evtCfg (R366). -/
def Reg.evtCfg (c : Nat) : Nat := 0x20000 + 0x100 * c + 0x40
def Reg.evtCfgRow : Row := { base := 0x20040, s1 := 0x100, n1 := 8, rw := 0xFFFFFFFF, gate := .own, act := .plain }
/-- evtRearm (R366, R369). -/
def Reg.evtRearm (c : Nat) : Nat := 0x20000 + 0x100 * c + 0x44
def Reg.evtRearmRow : Row := { base := 0x20044, s1 := 0x100, n1 := 8, gate := .own, view := .zero, act := .evtRearm }
/-- evtPend (R366). -/
def Reg.evtPend (c : Nat) : Nat := 0x20000 + 0x100 * c + 0x48
def Reg.evtPendRow : Row := { base := 0x20048, s1 := 0x100, n1 := 8, gate := .own, view := .evtPend }
/-- evtRoute (R366, R370). -/
def Reg.evtRoute (n : Nat) : Nat := 0x20000 + 0x1000 + 4 * n
def Reg.evtRouteRow : Row := { base := 0x21000, s1 := 0x4, n1 := 256, rw := 0xFFFFFFFF, rst := .route, gate := .sys, act := .plain }
/-- portMaxfrm (R87). -/
def Reg.portMaxfrm (p : Nat) : Nat := 0x100000 + 0x2000 * p + 0x100
def Reg.portMaxfrmRow : Row := { base := 0x100100, s1 := 0x2000, n1 := 32, rw := 0xFFFFFFFF, rst := .maxfrm, gate := .port, act := .maxfrm }
/-- portFrmCtrl (R87). -/
def Reg.portFrmCtrl (p : Nat) : Nat := 0x100000 + 0x2000 * p + 0x104
def Reg.portFrmCtrlRow : Row := { base := 0x100104, s1 := 0x2000, n1 := 28, rw := 0xFFFFFFFF, rst := .val 0x1, gate := .port, act := .plain }
/-- portLineCtrl (R57). -/
def Reg.portLineCtrl (p : Nat) : Nat := 0x100000 + 0x2000 * p + 0x200
def Reg.portLineCtrlRow : Row := { base := 0x100200, s1 := 0x2000, n1 := 24, rw := 0xFFFFFFFF, rst := .val 0x100001, gate := .port, act := .lineCtrl }
/-- portLineStat (R58). -/
def Reg.portLineStat (p : Nat) : Nat := 0x100000 + 0x2000 * p + 0x204
/-- The row of PORT_LINE_STAT: fault reads 0 at reset, for which R58 gives no value (DESIGN CHOICE, log 10). -/
def Reg.portLineStatRow : Row := { base := 0x100204, s1 := 0x2000, n1 := 24, w1c := 0x1F00, gate := .port, act := .plain }
/-- portHalterRx (R56). -/
def Reg.portHalterRx (p n : Nat) : Nat := 0x100000 + 0x2000 * p + 0x240 + 4 * n
def Reg.portHalterRxRow : Row := { base := 0x100240, s1 := 0x2000, n1 := 24, s2 := 0x4, n2 := 6, gate := .port, view := .halterRx }
/-- portHalterStat (R59). -/
def Reg.portHalterStat (p : Nat) : Nat := 0x100000 + 0x2000 * p + 0x260
def Reg.portHalterStatRow : Row := { base := 0x100260, s1 := 0x2000, n1 := 24, w1c := 0xFF0000, gate := .port, act := .plain }
/-- portCapAdv (R56). -/
def Reg.portCapAdv (p : Nat) : Nat := 0x100000 + 0x2000 * p + 0x264
def Reg.portCapAdvRow : Row := { base := 0x100264, s1 := 0x2000, n1 := 24, rw := 0xFFFFFFFF, rst := .val 0xFF, gate := .port, act := .capAdv }
/-- portLerrCrc8 (R56). -/
def Reg.portLerrCrc8 (p : Nat) : Nat := 0x100000 + 0x2000 * p + 0x280
def Reg.portLerrCrc8Row : Row := { base := 0x100280, s1 := 0x2000, n1 := 24, gate := .port }
/-- portLerrStuff (R56). -/
def Reg.portLerrStuff (p : Nat) : Nat := 0x100000 + 0x2000 * p + 0x284
def Reg.portLerrStuffRow : Row := { base := 0x100284, s1 := 0x2000, n1 := 24, gate := .port }
/-- portLerrType (R56). -/
def Reg.portLerrType (p : Nat) : Nat := 0x100000 + 0x2000 * p + 0x288
def Reg.portLerrTypeRow : Row := { base := 0x100288, s1 := 0x2000, n1 := 24, gate := .port }
/-- portMarkMiss (R56). -/
def Reg.portMarkMiss (p : Nat) : Nat := 0x100000 + 0x2000 * p + 0x28c
def Reg.portMarkMissRow : Row := { base := 0x10028C, s1 := 0x2000, n1 := 24, gate := .port }
/-- portAlignLoss (R56). -/
def Reg.portAlignLoss (p : Nat) : Nat := 0x100000 + 0x2000 * p + 0x290
def Reg.portAlignLossRow : Row := { base := 0x100290, s1 := 0x2000, n1 := 24, gate := .port }
/-- portHalterDiscard (R56). -/
def Reg.portHalterDiscard (p : Nat) : Nat := 0x100000 + 0x2000 * p + 0x294
def Reg.portHalterDiscardRow : Row := { base := 0x100294, s1 := 0x2000, n1 := 24, gate := .port }
/-- portDozeEntry (R56). -/
def Reg.portDozeEntry (p : Nat) : Nat := 0x100000 + 0x2000 * p + 0x298
def Reg.portDozeEntryRow : Row := { base := 0x100298, s1 := 0x2000, n1 := 24, gate := .port }
/-- portPreemptTx (R56). -/
def Reg.portPreemptTx (p : Nat) : Nat := 0x100000 + 0x2000 * p + 0x29c
def Reg.portPreemptTxRow : Row := { base := 0x10029C, s1 := 0x2000, n1 := 24, gate := .port }
/-- portPreemptRx (R56). -/
def Reg.portPreemptRx (p : Nat) : Nat := 0x100000 + 0x2000 * p + 0x2a0
def Reg.portPreemptRxRow : Row := { base := 0x1002A0, s1 := 0x2000, n1 := 24, gate := .port }
/-- portPhyCtrl (R85). -/
def Reg.portPhyCtrl (p : Nat) : Nat := 0x100000 + 0x2000 * p + 0x300
def Reg.portPhyCtrlRow : Row := { base := 0x100300, s1 := 0x2000, n1 := 28, rw := 0xFFFFFFFF, gate := .port, act := .phyCtrl }
/-- portPhyStat (R85). -/
def Reg.portPhyStat (p : Nat) : Nat := 0x100000 + 0x2000 * p + 0x304
def Reg.portPhyStatRow : Row := { base := 0x100304, s1 := 0x2000, n1 := 28, w1c := 0x1F00, rst := .val 0x60, gate := .port, view := .phyStat, act := .plain }
/-- portEqTx (R85). -/
def Reg.portEqTx (p : Nat) : Nat := 0x100000 + 0x2000 * p + 0x310
def Reg.portEqTxRow : Row := { base := 0x100310, s1 := 0x2000, n1 := 24, rw := 0xFFFFFFFF, rst := .val 0x3F00, gate := .port, act := .eq }
/-- portEqRx (R85). -/
def Reg.portEqRx (p : Nat) : Nat := 0x100000 + 0x2000 * p + 0x314
def Reg.portEqRxRow : Row := { base := 0x100314, s1 := 0x2000, n1 := 24, rw := 0xFFFFFFFF, gate := .port, act := .eq }
/-- portEqDig (R85). -/
def Reg.portEqDig (p : Nat) : Nat := 0x100000 + 0x2000 * p + 0x318
def Reg.portEqDigRow : Row := { base := 0x100318, s1 := 0x2000, n1 := 24, rw := 0xFFFFFFFF, gate := .port, act := .eq }
/-- portCommit (R85, R360). -/
def Reg.portCommit (p : Nat) : Nat := 0x100000 + 0x2000 * p + 0x31C
def Reg.portCommitRow : Row := { base := 0x10031C, s1 := 0x2000, lo := 16, n1 := 24, gate := .port, view := .zero, act := .portCommit }
/-- portQual0 (R85). -/
def Reg.portQual0 (p : Nat) : Nat := 0x100000 + 0x2000 * p + 0x320
def Reg.portQual0Row : Row := { base := 0x100320, s1 := 0x2000, n1 := 24, gate := .port }
/-- portQual1 (R85). -/
def Reg.portQual1 (p : Nat) : Nat := 0x100000 + 0x2000 * p + 0x324
def Reg.portQual1Row : Row := { base := 0x100324, s1 := 0x2000, n1 := 24, rst := .val 0xFFFF, gate := .port }
/-- portOpt0 (R85). -/
def Reg.portOpt0 (p : Nat) : Nat := 0x100000 + 0x2000 * p + 0x330
def Reg.portOpt0Row : Row := { base := 0x100330, s1 := 0x2000, n1 := 16, gate := .port }
/-- portOpt1 (R85). -/
def Reg.portOpt1 (p : Nat) : Nat := 0x100000 + 0x2000 * p + 0x334
def Reg.portOpt1Row : Row := { base := 0x100334, s1 := 0x2000, n1 := 16, rw := 0xFFFF0000, rst := .val 0x1F40000, gate := .port, act := .plain }
/-- ttCtrl (R263). -/
def Reg.ttCtrl (p : Nat) : Nat := 0x100000 + 0x2000 * p + 0x500
def Reg.ttCtrlRow : Row := { base := 0x100500, s1 := 0x2000, n1 := 24, rw := 0xFFFFFFFF, rst := .val 0x1, gate := .port, act := .plain }
/-- ttStat (R263). -/
def Reg.ttStat (p : Nat) : Nat := 0x100000 + 0x2000 * p + 0x504
def Reg.ttStatRow : Row := { base := 0x100504, s1 := 0x2000, n1 := 24, w1c := 0xF00, gate := .port, view := .ttStat, act := .plain }
/-- ttAlpha (R263). -/
def Reg.ttAlpha (p : Nat) : Nat := 0x100000 + 0x2000 * p + 0x508
def Reg.ttAlphaRow : Row := { base := 0x100508, s1 := 0x2000, n1 := 24, rw := 0xFFFFFFFF, rst := .alpha, gate := .port, act := .alpha }
/-- ttAsym (R263). -/
def Reg.ttAsym (p : Nat) : Nat := 0x100000 + 0x2000 * p + 0x50C
def Reg.ttAsymRow : Row := { base := 0x10050C, s1 := 0x2000, n1 := 24, rw := 0xFFFFFFFF, gate := .port, act := .alpha }
/-- ttRtd (R263). -/
def Reg.ttRtd (p : Nat) : Nat := 0x100000 + 0x2000 * p + 0x510
def Reg.ttRtdRow : Row := { base := 0x100510, s1 := 0x2000, n1 := 24, gate := .port }
/-- ttDin (R263). -/
def Reg.ttDin (p : Nat) : Nat := 0x100000 + 0x2000 * p + 0x514
def Reg.ttDinRow : Row := { base := 0x100514, s1 := 0x2000, n1 := 24, gate := .port }
/-- ttTheta (R263). -/
def Reg.ttTheta (p d : Nat) : Nat := 0x100000 + 0x2000 * p + 0x518 + 4 * d
def Reg.ttThetaRow : Row := { base := 0x100518, s1 := 0x2000, n1 := 24, s2 := 0x4, n2 := 2, rst := .val 0x80000000, gate := .port }
/-- ttTavg (R263). -/
def Reg.ttTavg (p d : Nat) : Nat := 0x100000 + 0x2000 * p + 0x520 + 4 * d
def Reg.ttTavgRow : Row := { base := 0x100520, s1 := 0x2000, n1 := 24, s2 := 0x4, n2 := 2, rst := .val 0x80000000, gate := .port }
/-- ttNrr (R263). -/
def Reg.ttNrr (p : Nat) : Nat := 0x100000 + 0x2000 * p + 0x528
def Reg.ttNrrRow : Row := { base := 0x100528, s1 := 0x2000, n1 := 24, gate := .port }
/-- ttPhase (R263). -/
def Reg.ttPhase (p : Nat) : Nat := 0x100000 + 0x2000 * p + 0x52C
def Reg.ttPhaseRow : Row := { base := 0x10052C, s1 := 0x2000, n1 := 24, gate := .port }
/-- ttTxdly (R263) (DESIGN CHOICE, log 10). -/
def Reg.ttTxdly (p : Nat) : Nat := 0x100000 + 0x2000 * p + 0x530
def Reg.ttTxdlyRow : Row := { base := 0x100530, s1 := 0x2000, n1 := 24, gate := .port }
/-- ttRxdly (R263) (DESIGN CHOICE, log 10). -/
def Reg.ttRxdly (p : Nat) : Nat := 0x100000 + 0x2000 * p + 0x534
def Reg.ttRxdlyRow : Row := { base := 0x100534, s1 := 0x2000, n1 := 24, gate := .port }
/-- ttReqTx (R263). -/
def Reg.ttReqTx (p : Nat) : Nat := 0x100000 + 0x2000 * p + 0x540
def Reg.ttReqTxRow : Row := { base := 0x100540, s1 := 0x2000, n1 := 24, gate := .port }
/-- ttRespOk (R263). -/
def Reg.ttRespOk (p : Nat) : Nat := 0x100000 + 0x2000 * p + 0x544
def Reg.ttRespOkRow : Row := { base := 0x100544, s1 := 0x2000, n1 := 24, gate := .port }
/-- ttLost (R263). -/
def Reg.ttLost (p : Nat) : Nat := 0x100000 + 0x2000 * p + 0x548
def Reg.ttLostRow : Row := { base := 0x100548, s1 := 0x2000, n1 := 24, gate := .port }
/-- ttReject (R263). -/
def Reg.ttReject (p : Nat) : Nat := 0x100000 + 0x2000 * p + 0x54c
def Reg.ttRejectRow : Row := { base := 0x10054C, s1 := 0x2000, n1 := 24, gate := .port }
/-- rxRunt (R102). -/
def Reg.rxRunt (p : Nat) : Nat := 0x100000 + 0x2000 * p + 0x1000
def Reg.rxRuntRow : Row := { base := 0x101000, s1 := 0x2000, n1 := 32, gate := .port }
/-- rx64 (R102). -/
def Reg.rx64 (p : Nat) : Nat := 0x100000 + 0x2000 * p + 0x1004
def Reg.rx64Row : Row := { base := 0x101004, s1 := 0x2000, n1 := 32, gate := .port }
/-- rx65_127 (R102). -/
def Reg.rx65_127 (p : Nat) : Nat := 0x100000 + 0x2000 * p + 0x1008
def Reg.rx65_127Row : Row := { base := 0x101008, s1 := 0x2000, n1 := 32, gate := .port }
/-- rx128_255 (R102). -/
def Reg.rx128_255 (p : Nat) : Nat := 0x100000 + 0x2000 * p + 0x100c
def Reg.rx128_255Row : Row := { base := 0x10100C, s1 := 0x2000, n1 := 32, gate := .port }
/-- rx256_511 (R102). -/
def Reg.rx256_511 (p : Nat) : Nat := 0x100000 + 0x2000 * p + 0x1010
def Reg.rx256_511Row : Row := { base := 0x101010, s1 := 0x2000, n1 := 32, gate := .port }
/-- rx512_1023 (R102). -/
def Reg.rx512_1023 (p : Nat) : Nat := 0x100000 + 0x2000 * p + 0x1014
def Reg.rx512_1023Row : Row := { base := 0x101014, s1 := 0x2000, n1 := 32, gate := .port }
/-- rx1024_1518 (R102). -/
def Reg.rx1024_1518 (p : Nat) : Nat := 0x100000 + 0x2000 * p + 0x1018
def Reg.rx1024_1518Row : Row := { base := 0x101018, s1 := 0x2000, n1 := 32, gate := .port }
/-- rx1519_Max (R102). -/
def Reg.rx1519_Max (p : Nat) : Nat := 0x100000 + 0x2000 * p + 0x101c
def Reg.rx1519_MaxRow : Row := { base := 0x10101C, s1 := 0x2000, n1 := 32, gate := .port }
/-- rxOversize (R102). -/
def Reg.rxOversize (p : Nat) : Nat := 0x100000 + 0x2000 * p + 0x1020
def Reg.rxOversizeRow : Row := { base := 0x101020, s1 := 0x2000, n1 := 32, gate := .port }
/-- rxUcast (R102). -/
def Reg.rxUcast (p : Nat) : Nat := 0x100000 + 0x2000 * p + 0x1024
def Reg.rxUcastRow : Row := { base := 0x101024, s1 := 0x2000, n1 := 32, gate := .port }
/-- rxMcast (R102). -/
def Reg.rxMcast (p : Nat) : Nat := 0x100000 + 0x2000 * p + 0x1028
def Reg.rxMcastRow : Row := { base := 0x101028, s1 := 0x2000, n1 := 32, gate := .port }
/-- rxBcast (R102). -/
def Reg.rxBcast (p : Nat) : Nat := 0x100000 + 0x2000 * p + 0x102c
def Reg.rxBcastRow : Row := { base := 0x10102C, s1 := 0x2000, n1 := 32, gate := .port }
/-- rxCtrl (R102). -/
def Reg.rxCtrl (p : Nat) : Nat := 0x100000 + 0x2000 * p + 0x1030
def Reg.rxCtrlRow : Row := { base := 0x101030, s1 := 0x2000, n1 := 32, gate := .port }
/-- rxFcsErr (R102). -/
def Reg.rxFcsErr (p : Nat) : Nat := 0x100000 + 0x2000 * p + 0x1034
def Reg.rxFcsErrRow : Row := { base := 0x101034, s1 := 0x2000, n1 := 32, gate := .port }
/-- rxLineErr (R102). -/
def Reg.rxLineErr (p : Nat) : Nat := 0x100000 + 0x2000 * p + 0x1038
def Reg.rxLineErrRow : Row := { base := 0x101038, s1 := 0x2000, n1 := 28, gate := .port }
/-- rxAbort (R102). -/
def Reg.rxAbort (p : Nat) : Nat := 0x100000 + 0x2000 * p + 0x103c
def Reg.rxAbortRow : Row := { base := 0x10103C, s1 := 0x2000, n1 := 28, gate := .port }
/-- rxCrumbIns (R102). -/
def Reg.rxCrumbIns (p : Nat) : Nat := 0x100000 + 0x2000 * p + 0x1040
def Reg.rxCrumbInsRow : Row := { base := 0x101040, s1 := 0x2000, n1 := 24, gate := .port }
/-- rxCrumbDel (R102). -/
def Reg.rxCrumbDel (p : Nat) : Nat := 0x100000 + 0x2000 * p + 0x1044
def Reg.rxCrumbDelRow : Row := { base := 0x101044, s1 := 0x2000, n1 := 24, gate := .port }
/-- rxC7Discard (R102). -/
def Reg.rxC7Discard (p : Nat) : Nat := 0x100000 + 0x2000 * p + 0x1048
def Reg.rxC7DiscardRow : Row := { base := 0x101048, s1 := 0x2000, n1 := 24, gate := .port }
/-- tx64 (R102). -/
def Reg.tx64 (p : Nat) : Nat := 0x100000 + 0x2000 * p + 0x1080
def Reg.tx64Row : Row := { base := 0x101080, s1 := 0x2000, n1 := 32, gate := .port }
/-- tx65_127 (R102). -/
def Reg.tx65_127 (p : Nat) : Nat := 0x100000 + 0x2000 * p + 0x1084
def Reg.tx65_127Row : Row := { base := 0x101084, s1 := 0x2000, n1 := 32, gate := .port }
/-- tx128_255 (R102). -/
def Reg.tx128_255 (p : Nat) : Nat := 0x100000 + 0x2000 * p + 0x1088
def Reg.tx128_255Row : Row := { base := 0x101088, s1 := 0x2000, n1 := 32, gate := .port }
/-- tx256_511 (R102). -/
def Reg.tx256_511 (p : Nat) : Nat := 0x100000 + 0x2000 * p + 0x108c
def Reg.tx256_511Row : Row := { base := 0x10108C, s1 := 0x2000, n1 := 32, gate := .port }
/-- tx512_1023 (R102). -/
def Reg.tx512_1023 (p : Nat) : Nat := 0x100000 + 0x2000 * p + 0x1090
def Reg.tx512_1023Row : Row := { base := 0x101090, s1 := 0x2000, n1 := 32, gate := .port }
/-- tx1024_1518 (R102). -/
def Reg.tx1024_1518 (p : Nat) : Nat := 0x100000 + 0x2000 * p + 0x1094
def Reg.tx1024_1518Row : Row := { base := 0x101094, s1 := 0x2000, n1 := 32, gate := .port }
/-- tx1519_Max (R102). -/
def Reg.tx1519_Max (p : Nat) : Nat := 0x100000 + 0x2000 * p + 0x1098
def Reg.tx1519_MaxRow : Row := { base := 0x101098, s1 := 0x2000, n1 := 32, gate := .port }
/-- txOversize (R102). -/
def Reg.txOversize (p : Nat) : Nat := 0x100000 + 0x2000 * p + 0x109c
def Reg.txOversizeRow : Row := { base := 0x10109C, s1 := 0x2000, n1 := 28, gate := .port }
/-- txUcast (R102). -/
def Reg.txUcast (p : Nat) : Nat := 0x100000 + 0x2000 * p + 0x10a0
def Reg.txUcastRow : Row := { base := 0x1010A0, s1 := 0x2000, n1 := 32, gate := .port }
/-- txMcast (R102). -/
def Reg.txMcast (p : Nat) : Nat := 0x100000 + 0x2000 * p + 0x10a4
def Reg.txMcastRow : Row := { base := 0x1010A4, s1 := 0x2000, n1 := 32, gate := .port }
/-- txBcast (R102). -/
def Reg.txBcast (p : Nat) : Nat := 0x100000 + 0x2000 * p + 0x10a8
def Reg.txBcastRow : Row := { base := 0x1010A8, s1 := 0x2000, n1 := 32, gate := .port }
/-- txCtrl (R102). -/
def Reg.txCtrl (p : Nat) : Nat := 0x100000 + 0x2000 * p + 0x10ac
def Reg.txCtrlRow : Row := { base := 0x1010AC, s1 := 0x2000, n1 := 32, gate := .port }
/-- txAbort (R102). -/
def Reg.txAbort (p : Nat) : Nat := 0x100000 + 0x2000 * p + 0x10b0
def Reg.txAbortRow : Row := { base := 0x1010B0, s1 := 0x2000, n1 := 28, gate := .port }
/-- txColSingle (R102). -/
def Reg.txColSingle (p : Nat) : Nat := 0x100000 + 0x2000 * p + 0x10b4
def Reg.txColSingleRow : Row := { base := 0x1010B4, s1 := 0x2000, lo := 24, n1 := 28, gate := .port }
/-- txColMulti (R102). -/
def Reg.txColMulti (p : Nat) : Nat := 0x100000 + 0x2000 * p + 0x10b8
def Reg.txColMultiRow : Row := { base := 0x1010B8, s1 := 0x2000, lo := 24, n1 := 28, gate := .port }
/-- txColLate (R102). -/
def Reg.txColLate (p : Nat) : Nat := 0x100000 + 0x2000 * p + 0x10bc
def Reg.txColLateRow : Row := { base := 0x1010BC, s1 := 0x2000, lo := 24, n1 := 28, gate := .port }
/-- txColExcess (R102). -/
def Reg.txColExcess (p : Nat) : Nat := 0x100000 + 0x2000 * p + 0x10c0
def Reg.txColExcessRow : Row := { base := 0x1010C0, s1 := 0x2000, lo := 24, n1 := 28, gate := .port }
/-- txTrunc (R102). -/
def Reg.txTrunc (p : Nat) : Nat := 0x100000 + 0x2000 * p + 0x10c4
def Reg.txTruncRow : Row := { base := 0x1010C4, s1 := 0x2000, lo := 29, n1 := 31, gate := .port }
/-- mcastPartial (R102). -/
def Reg.mcastPartial (p : Nat) : Nat := 0x100000 + 0x2000 * p + 0x10c8
def Reg.mcastPartialRow : Row := { base := 0x1010C8, s1 := 0x2000, n1 := 28, gate := .port }
/-- txC7Blocked (R102). -/
def Reg.txC7Blocked (p : Nat) : Nat := 0x100000 + 0x2000 * p + 0x10cc
def Reg.txC7BlockedRow : Row := { base := 0x1010CC, s1 := 0x2000, n1 := 28, gate := .port }
/-- swcCommit (R133). -/
def Reg.swcCommit : Nat := 0x200000 + 0x0
def Reg.swcCommitRow : Row := { base := 0x200000, gate := .swc, view := .zero, act := .swcCommit }
/-- swcHeadroom (R133). -/
def Reg.swcHeadroom : Nat := 0x200000 + 0x4
def Reg.swcHeadroomRow : Row := { base := 0x200004, rw := 0xFFFFFFFF, rst := .val 0x900, gate := .swc, act := .buffered }
/-- swcPoolStat (R133). -/
def Reg.swcPoolStat : Nat := 0x200000 + 0x8
def Reg.swcPoolStatRow : Row := { base := 0x200008, gate := .swc, view := .pool }
/-- swcPoolLow (R133). -/
def Reg.swcPoolLow : Nat := 0x200000 + 0xC
def Reg.swcPoolLowRow : Row := { base := 0x20000C, rw := 0xFFFFFFFF, rst := .val 0x2000, gate := .swc, act := .poolLow }
/-- swcAgeSram (R133). -/
def Reg.swcAgeSram : Nat := 0x200000 + 0x10
def Reg.swcAgeSramRow : Row := { base := 0x200010, rw := 0xFFFFFFFF, rst := .val 0xFA0, gate := .swc, act := .buffered }
/-- swcAgeDram (R133). -/
def Reg.swcAgeDram : Nat := 0x200000 + 0x14
def Reg.swcAgeDramRow : Row := { base := 0x200014, rw := 0xFFFFFFFF, rst := .val 0xFA00, gate := .swc, act := .buffered }
/-- swcAgeC6 (R133). -/
def Reg.swcAgeC6 : Nat := 0x200000 + 0x18
def Reg.swcAgeC6Row : Row := { base := 0x200018, rw := 0xFFFFFFFF, rst := .val 0x1F40, gate := .swc, act := .buffered }
/-- swcSpillStage (R133). -/
def Reg.swcSpillStage : Nat := 0x200000 + 0x1C
def Reg.swcSpillStageRow : Row := { base := 0x20001C, rw := 0xFFFFFFFF, rst := .val 0x1000, gate := .swc, act := .buffered }
/-- swcReturnThr (R133). -/
def Reg.swcReturnThr : Nat := 0x200000 + 0x20
def Reg.swcReturnThrRow : Row := { base := 0x200020, rw := 0xFFFFFFFF, rst := .val 0x100, gate := .swc, act := .buffered }
/-- swcDramStat (R133). -/
def Reg.swcDramStat : Nat := 0x200000 + 0x24
def Reg.swcDramStatRow : Row := { base := 0x200024, gate := .swc, view := .dram }
/-- swcCfgStat (R133). -/
def Reg.swcCfgStat : Nat := 0x200000 + 0x28
def Reg.swcCfgStatRow : Row := { base := 0x200028, w1c := 0x1, gate := .swc, act := .plain }
/-- swcEccCorr (R133). -/
def Reg.swcEccCorr : Nat := 0x200000 + 0x2C
def Reg.swcEccCorrRow : Row := { base := 0x20002C, gate := .swc }
/-- swcEccUncorr (R133). -/
def Reg.swcEccUncorr : Nat := 0x200000 + 0x30
def Reg.swcEccUncorrRow : Row := { base := 0x200030, gate := .swc }
/-- swcSampleDrop (R133). -/
def Reg.swcSampleDrop : Nat := 0x200000 + 0x34
def Reg.swcSampleDropRow : Row := { base := 0x200034, gate := .swc }
/-- swcLastDrop (R133). -/
def Reg.swcLastDrop : Nat := 0x200000 + 0x38
def Reg.swcLastDropRow : Row := { base := 0x200038, gate := .swc }
/-- swcPcpMap (R133). -/
def Reg.swcPcpMap (p : Nat) : Nat := 0x200000 + 0x100 + 4 * p
def Reg.swcPcpMapRow : Row := { base := 0x200100, s1 := 0x4, n1 := 32, rw := 0xFFFFFFFF, rst := .val 0xB63440, gate := .swcPort, act := .pcpMap }
/-- swcSample (R133). -/
def Reg.swcSample (p : Nat) : Nat := 0x200000 + 0x180 + 4 * p
def Reg.swcSampleRow : Row := { base := 0x200180, s1 := 0x4, n1 := 28, rw := 0xFFFFFFFF, gate := .swcPort, act := .sample }
/-- swcDrr0 (R133). -/
def Reg.swcDrr0 (p : Nat) : Nat := 0x200000 + 0x200 + 8 * p
def Reg.swcDrr0Row : Row := { base := 0x200200, s1 := 0x8, n1 := 32, rw := 0xFFFFFFFF, rst := .val 0x18181818, gate := .swcPort, act := .buffered }
/-- swcDrr1 (R133). -/
def Reg.swcDrr1 (p : Nat) : Nat := 0x200000 + 0x204 + 8 * p
def Reg.swcDrr1Row : Row := { base := 0x200204, s1 := 0x8, n1 := 32, rw := 0xFFFFFFFF, rst := .val 0x1818, gate := .swcPort, act := .buffered }
/-- swcQcfg (R134). -/
def Reg.swcQcfg (q : Nat) : Nat := 0x200000 + 0x1000 + 0x20 * q
def Reg.swcQcfgRow : Row := { base := 0x201000, s1 := 0x20, n1 := 256, rw := 0xFFFFFFFF, rst := .qcfg, gate := .swcQueue, act := .qcfg }
/-- swcQdramCfg (R134). -/
def Reg.swcQdramCfg (q : Nat) : Nat := 0x200000 + 0x1000 + 0x20 * q + 0x4
def Reg.swcQdramCfgRow : Row := { base := 0x201004, s1 := 0x20, n1 := 256, rw := 0xFFFFFFFF, rst := .val 0x400, gate := .swcQueue, act := .buffered }
/-- swcQocc (R134). -/
def Reg.swcQocc (q : Nat) : Nat := 0x200000 + 0x1000 + 0x20 * q + 0x8
def Reg.swcQoccRow : Row := { base := 0x201008, s1 := 0x20, n1 := 256, gate := .swcQueue }
/-- swcQdramOcc (R134). -/
def Reg.swcQdramOcc (q : Nat) : Nat := 0x200000 + 0x1000 + 0x20 * q + 0xC
def Reg.swcQdramOccRow : Row := { base := 0x20100C, s1 := 0x20, n1 := 256, gate := .swcQueue, view := .queueDram }
/-- swcQdrop (R134). -/
def Reg.swcQdrop (q : Nat) : Nat := 0x200000 + 0x1000 + 0x20 * q + 0x10
def Reg.swcQdropRow : Row := { base := 0x201010, s1 := 0x20, n1 := 256, gate := .swcQueue }
/-- swcQaged (R134). -/
def Reg.swcQaged (q : Nat) : Nat := 0x200000 + 0x1000 + 0x20 * q + 0x14
def Reg.swcQagedRow : Row := { base := 0x201014, s1 := 0x20, n1 := 256, gate := .swcQueue }
/-- swcQspilled (R134). -/
def Reg.swcQspilled (q : Nat) : Nat := 0x200000 + 0x1000 + 0x20 * q + 0x18
def Reg.swcQspilledRow : Row := { base := 0x201018, s1 := 0x20, n1 := 256, gate := .swcQueue }
/-- swcQreturned (R134). -/
def Reg.swcQreturned (q : Nat) : Nat := 0x200000 + 0x1000 + 0x20 * q + 0x1c
def Reg.swcQreturnedRow : Row := { base := 0x20101C, s1 := 0x20, n1 := 256, gate := .swcQueue }
/-- tblFdbSeed (R166). -/
def Reg.tblFdbSeed : Nat := 0x300000 + 0x0
def Reg.tblFdbSeedRow : Row := { base := 0x300000, rst := .val 0x1D5EA7B3, gate := .tbl }
/-- tblFdbSeedOld (R166) (DESIGN CHOICE, log 10). -/
def Reg.tblFdbSeedOld : Nat := 0x300000 + 0x4
def Reg.tblFdbSeedOldRow : Row := { base := 0x300004, gate := .tbl }
/-- tblFdbStat (R166). -/
def Reg.tblFdbStat : Nat := 0x300000 + 0x8
def Reg.tblFdbStatRow : Row := { base := 0x300008, gate := .tbl, view := .fdbStat }
/-- tblFdbStranded (R166) (DESIGN CHOICE, log 10). -/
def Reg.tblFdbStranded : Nat := 0x300000 + 0xC
def Reg.tblFdbStrandedRow : Row := { base := 0x30000C, gate := .tbl }
/-- tblCfgEpoch (R166). -/
def Reg.tblCfgEpoch : Nat := 0x300000 + 0x10
def Reg.tblCfgEpochRow : Row := { base := 0x300010, gate := .tbl }
/-- tblAge (R166). -/
def Reg.tblAge : Nat := 0x300000 + 0x14
def Reg.tblAgeRow : Row := { base := 0x300014, rw := 0xFFFFFFFF, rst := .val 0x12C, gate := .tbl, act := .plain }
/-- tblLlDest (R166). -/
def Reg.tblLlDest : Nat := 0x300000 + 0x18
def Reg.tblLlDestRow : Row := { base := 0x300018, rw := 0xFFFFFFFF, rst := .val 0x10000000, gate := .tbl, act := .plain }
/-- tblFloodMask (R166). -/
def Reg.tblFloodMask : Nat := 0x300000 + 0x1C
def Reg.tblFloodMaskRow : Row := { base := 0x30001C, rw := 0xFFFFFFFF, rst := .val 0x7FFFFFFF, gate := .tbl, act := .plain }
/-- tblLearnEn (R166). -/
def Reg.tblLearnEn : Nat := 0x300000 + 0x20
def Reg.tblLearnEnRow : Row := { base := 0x300020, rw := 0xFFFFFFFF, rst := .val 0x6FFFFFFF, gate := .tbl, act := .plain }
/-- tblShadowCtrl (R166). -/
def Reg.tblShadowCtrl : Nat := 0x300000 + 0x24
def Reg.tblShadowCtrlRow : Row := { base := 0x300024, rw := 0xFFFFFFFF, rst := .val 0xF0, gate := .swc, view := .shadowCtrl, act := .shadowCtrl }
/-- tblShadowStat (R166). -/
def Reg.tblShadowStat : Nat := 0x300000 + 0x28
def Reg.tblShadowStatRow : Row := { base := 0x300028, w1c := 0x100, gate := .tbl, view := .shadowStat, act := .plain }
/-- tblShadowPass (R166). -/
def Reg.tblShadowPass : Nat := 0x300000 + 0x2c
def Reg.tblShadowPassRow : Row := { base := 0x30002C, gate := .tbl }
/-- tblMmCount (R166). -/
def Reg.tblMmCount : Nat := 0x300000 + 0x30
def Reg.tblMmCountRow : Row := { base := 0x300030, gate := .tbl }
/-- tblEccCorr (R166). -/
def Reg.tblEccCorr : Nat := 0x300000 + 0x34
def Reg.tblEccCorrRow : Row := { base := 0x300034, gate := .tbl }
/-- tblEccUncorr (R166). -/
def Reg.tblEccUncorr : Nat := 0x300000 + 0x38
def Reg.tblEccUncorrRow : Row := { base := 0x300038, gate := .tbl }
/-- tblPvid (R166). -/
def Reg.tblPvid (p : Nat) : Nat := 0x300000 + 0x40 + 4 * p
def Reg.tblPvidRow : Row := { base := 0x300040, s1 := 0x4, n1 := 32, rw := 0xFFFFFFFF, rst := .val 0x1, gate := .pvid, act := .plain }
/-- tblLearnRate (R166). -/
def Reg.tblLearnRate (p : Nat) : Nat := 0x300000 + 0xC0 + 4 * p
def Reg.tblLearnRateRow : Row := { base := 0x3000C0, s1 := 0x4, n1 := 32, rw := 0xFFFFFFFF, rst := .val 0x100, gate := .tblPort, act := .plain }
/-- tblFiltered (R166). -/
def Reg.tblFiltered : Nat := 0x300000 + 0x200
def Reg.tblFilteredRow : Row := { base := 0x300200, gate := .tbl }
/-- tblVlanDrop (R166). -/
def Reg.tblVlanDrop : Nat := 0x300000 + 0x204
def Reg.tblVlanDropRow : Row := { base := 0x300204, gate := .tbl }
/-- tblStreamMiss (R166). -/
def Reg.tblStreamMiss : Nat := 0x300000 + 0x208
def Reg.tblStreamMissRow : Row := { base := 0x300208, gate := .tbl }
/-- tblFdbMoves (R166). -/
def Reg.tblFdbMoves : Nat := 0x300000 + 0x20c
def Reg.tblFdbMovesRow : Row := { base := 0x30020C, gate := .tbl }
/-- tblFdbAged (R166). -/
def Reg.tblFdbAged : Nat := 0x300000 + 0x210
def Reg.tblFdbAgedRow : Row := { base := 0x300210, gate := .tbl }
/-- tblStaticConflict (R166). -/
def Reg.tblStaticConflict : Nat := 0x300000 + 0x214
def Reg.tblStaticConflictRow : Row := { base := 0x300214, gate := .tbl }
/-- tblLearnLimited (R166). -/
def Reg.tblLearnLimited : Nat := 0x300000 + 0x218
def Reg.tblLearnLimitedRow : Row := { base := 0x300218, gate := .tbl }
/-- tblLearnQdrop (R166). -/
def Reg.tblLearnQdrop : Nat := 0x300000 + 0x21c
def Reg.tblLearnQdropRow : Row := { base := 0x30021C, gate := .tbl }
/-- tblProt (R166). -/
def Reg.tblProt (q : Nat) : Nat := 0x300000 + 0x300 + 4 * q
def Reg.tblProtRow : Row := { base := 0x300300, s1 := 0x4, n1 := 16, rst := .val 0x28000, gate := .tbl }
/-- tblLrnStat (R166). -/
def Reg.tblLrnStat (c : Nat) : Nat := 0x300000 + 0x400 + 0x20 * c
def Reg.tblLrnStatRow : Row := { base := 0x300400, s1 := 0x20, n1 := 8, gate := .tbl, view := .lrnStat }
/-- tblLrnPop (R166). -/
def Reg.tblLrnPop (c : Nat) : Nat := 0x300000 + 0x404 + 0x20 * c
def Reg.tblLrnPopRow : Row := { base := 0x300404, s1 := 0x20, n1 := 8, gate := .tbl, view := .lrnPop }
/-- tblLrnW (R166). -/
def Reg.tblLrnW (c k : Nat) : Nat := 0x300000 + 0x408 + 0x20 * c + 4 * k
def Reg.tblLrnWRow : Row := { base := 0x300408, s1 := 0x20, n1 := 8, s2 := 0x4, n2 := 5, gate := .tbl, view := .shadow }
/-- tblRdSel (R166). -/
def Reg.tblRdSel : Nat := 0x300000 + 0x1000
def Reg.tblRdSelRow : Row := { base := 0x301000, view := .zero, act := .tblRdSel }
/-- tblRdW (R166). -/
def Reg.tblRdW (k : Nat) : Nat := 0x300000 + 0x1004 + 4 * k
def Reg.tblRdWRow : Row := { base := 0x301004, s1 := 0x4, n1 := 8, gate := .tbl, view := .shadow }
/-- tsuCtrl (R236). -/
def Reg.tsuCtrl : Nat := 0x400000 + 0x0
def Reg.tsuCtrlRow : Row := { base := 0x400000, rw := 0xFFFFFFFF, rst := .val 0xA, gate := .tsu, act := .plain }
/-- tsuState (R236). -/
def Reg.tsuState : Nat := 0x400000 + 0x4
def Reg.tsuStateRow : Row := { base := 0x400004, w1c := 0x700, gate := .tsu, view := .tsuState, act := .plain }
/-- tsuEpoch (R236). -/
def Reg.tsuEpoch : Nat := 0x400000 + 0x8
def Reg.tsuEpochRow : Row := { base := 0x400008, gate := .tsu, view := .epoch }
/-- tsuEpochReset (R236). -/
def Reg.tsuEpochReset : Nat := 0x400000 + 0x10
def Reg.tsuEpochResetRow : Row := { base := 0x400010, gate := .dg, view := .zero, act := .guard }
/-- tsuSlewMax (R236). -/
def Reg.tsuSlewMax : Nat := 0x400000 + 0x18
def Reg.tsuSlewMaxRow : Row := { base := 0x400018, rw := 0xFFFFFFFF, rst := .val 0x3E8, gate := .tsu, act := .plain }
/-- tsuSwitchLimit (R236). -/
def Reg.tsuSwitchLimit : Nat := 0x400000 + 0x1C
def Reg.tsuSwitchLimitRow : Row := { base := 0x40001C, rw := 0xFFFFFFFF, rst := .val 0x3E8, gate := .tsu, act := .plain }
/-- tsuBridgeLo (R236). -/
def Reg.tsuBridgeLo : Nat := 0x400000 + 0x20
def Reg.tsuBridgeLoRow : Row := { base := 0x400020, gate := .tsu, view := .bridge }
/-- tsuBridgeHi (R236). -/
def Reg.tsuBridgeHi : Nat := 0x400000 + 0x24
def Reg.tsuBridgeHiRow : Row := { base := 0x400024, gate := .tsu, view := .shadow }
/-- tsuRawLo (R236). -/
def Reg.tsuRawLo : Nat := 0x400000 + 0x40
def Reg.tsuRawLoRow : Row := { base := 0x400040, gate := .tsu, view := .rawSnap }
/-- tsuRawHi (R236). -/
def Reg.tsuRawHi : Nat := 0x400000 + 0x44
def Reg.tsuRawHiRow : Row := { base := 0x400044, gate := .tsu, view := .shadow }
/-- tsuSnap (R236). -/
def Reg.tsuSnap (k : Nat) : Nat := 0x400000 + 0x48 + 4 * k
def Reg.tsuSnapRow : Row := { base := 0x400048, s1 := 0x4, n1 := 5, gate := .tsu, view := .shadow }
/-- tsuDom (R236). -/
def Reg.tsuDom (d : Nat) : Nat := 0x400000 + 0x100 + 0x80 * d
def Reg.tsuDomRow : Row := { base := 0x400100, s1 := 0x80, n1 := 2, w1c := 0xF000000, rst := .dom, gate := .tsu, act := .plain }
/-- tsuGen (R236). -/
def Reg.tsuGen (d : Nat) : Nat := 0x400000 + 0x100 + 0x80 * d + 0x4
def Reg.tsuGenRow : Row := { base := 0x400104, s1 := 0x80, n1 := 2, gate := .tsu, view := .genLatch }
/-- tsuRate (R236). -/
def Reg.tsuRate (d : Nat) : Nat := 0x400000 + 0x100 + 0x80 * d + 0x8
def Reg.tsuRateRow : Row := { base := 0x400108, s1 := 0x80, n1 := 2, gate := .tsu, view := .shadow }
/-- tsuRawBase (R236). -/
def Reg.tsuRawBase (d k : Nat) : Nat := 0x400000 + 0x100 + 0x80 * d + 0xC + 4 * k
def Reg.tsuRawBaseRow : Row := { base := 0x40010C, s1 := 0x80, n1 := 2, s2 := 0x4, n2 := 2, gate := .tsu, view := .shadow }
/-- tsuBase (R236). -/
def Reg.tsuBase (d k : Nat) : Nat := 0x400000 + 0x100 + 0x80 * d + 0x14 + 4 * k
def Reg.tsuBaseRow : Row := { base := 0x400114, s1 := 0x80, n1 := 2, s2 := 0x4, n2 := 4, gate := .tsu, view := .shadow }
/-- tsuOffset (R236). -/
def Reg.tsuOffset (d : Nat) : Nat := 0x400000 + 0x100 + 0x80 * d + 0x24
def Reg.tsuOffsetRow : Row := { base := 0x400124, s1 := 0x80, n1 := 2, gate := .tsu }
/-- tsuGmIdLo (R236). -/
def Reg.tsuGmIdLo (d : Nat) : Nat := 0x400000 + 0x100 + 0x80 * d + 0x28
def Reg.tsuGmIdLoRow : Row := { base := 0x400128, s1 := 0x80, n1 := 2, gate := .tsu, view := .pairReg }
/-- tsuGmIdHi (R236). -/
def Reg.tsuGmIdHi (d : Nat) : Nat := 0x400000 + 0x100 + 0x80 * d + 0x2C
def Reg.tsuGmIdHiRow : Row := { base := 0x40012C, s1 := 0x80, n1 := 2, gate := .tsu, view := .shadow }
/-- tsuGmQ (R236). -/
def Reg.tsuGmQ (d : Nat) : Nat := 0x400000 + 0x100 + 0x80 * d + 0x30
def Reg.tsuGmQRow : Row := { base := 0x400130, s1 := 0x80, n1 := 2, rst := .val 0xFEFF, gate := .tsu }
/-- tsuServo (R236). -/
def Reg.tsuServo (d : Nat) : Nat := 0x400000 + 0x100 + 0x80 * d + 0x34
def Reg.tsuServoRow : Row := { base := 0x400134, s1 := 0x80, n1 := 2, rw := 0xFFFFFFFF, rst := .val 0x271002, gate := .tsu, act := .plain }
/-- tsuLockcfg (R236). -/
def Reg.tsuLockcfg (d : Nat) : Nat := 0x400000 + 0x100 + 0x80 * d + 0x38
def Reg.tsuLockcfgRow : Row := { base := 0x400138, s1 := 0x80, n1 := 2, rw := 0xFFFFFFFF, rst := .val 0x19014, gate := .tsu, act := .plain }
/-- tsuUtc (R236). -/
def Reg.tsuUtc (d : Nat) : Nat := 0x400000 + 0x100 + 0x80 * d + 0x3C
def Reg.tsuUtcRow : Row := { base := 0x40013C, s1 := 0x80, n1 := 2, gate := .tsu }
/-- tsuTcDone (R236). -/
def Reg.tsuTcDone : Nat := 0x400000 + 0x200
def Reg.tsuTcDoneRow : Row := { base := 0x400200, gate := .tsu }
/-- tsuTcSkip (R236). -/
def Reg.tsuTcSkip : Nat := 0x400000 + 0x204
def Reg.tsuTcSkipRow : Row := { base := 0x400204, gate := .tsu }
/-- tsuOnestepTx (R236). -/
def Reg.tsuOnestepTx : Nat := 0x400000 + 0x208
def Reg.tsuOnestepTxRow : Row := { base := 0x400208, gate := .tsu }
/-- tsuPtpDiscard (R236). -/
def Reg.tsuPtpDiscard : Nat := 0x400000 + 0x20c
def Reg.tsuPtpDiscardRow : Row := { base := 0x40020C, gate := .tsu }
/-- clkOven (R292) (DESIGN CHOICE, log 10). -/
def Reg.clkOven : Nat := 0x480000 + 0x0
def Reg.clkOvenRow : Row := { base := 0x480000, w1c := 0x100, gate := .clk, act := .plain }
/-- clkRsel (R292). -/
def Reg.clkRsel : Nat := 0x480000 + 0x4
def Reg.clkRselRow : Row := { base := 0x480004, gate := .clk }
/-- clkSel (R292). -/
def Reg.clkSel : Nat := 0x480000 + 0x8
def Reg.clkSelRow : Row := { base := 0x480008, rw := 0xFFFFFFFF, gate := .clk, act := .clkSel }
/-- clkSwitch (R292). -/
def Reg.clkSwitch : Nat := 0x480000 + 0xC
def Reg.clkSwitchRow : Row := { base := 0x48000C, rw := 0xFFFFFFFF, rst := .val 0x12C0000, gate := .clk, act := .plain }
/-- clkDisagree (R292). -/
def Reg.clkDisagree : Nat := 0x480000 + 0x10
def Reg.clkDisagreeRow : Row := { base := 0x480010, rw := 0xFFFFFFFF, rst := .val 0x64, gate := .clk, act := .plain }
/-- clkDpllCfg (R292). -/
def Reg.clkDpllCfg : Nat := 0x480000 + 0x14
def Reg.clkDpllCfgRow : Row := { base := 0x480014, rw := 0xFFFFFFFF, rst := .val 0x14, gate := .clk, act := .plain }
/-- clkDpllStat (R292). -/
def Reg.clkDpllStat : Nat := 0x480000 + 0x18
def Reg.clkDpllStatRow : Row := { base := 0x480018, w1c := 0x700, rst := .val 0x1C, gate := .clk, act := .plain }
/-- clkDac (R292) (DESIGN CHOICE, log 10). -/
def Reg.clkDac : Nat := 0x480000 + 0x1C
def Reg.clkDacRow : Row := { base := 0x48001C, gate := .clk }
/-- clkDacHold (R292) (DESIGN CHOICE, log 10). -/
def Reg.clkDacHold : Nat := 0x480000 + 0x20
def Reg.clkDacHoldRow : Row := { base := 0x480020, gate := .clk }
/-- clkDacCentre (R292) (DESIGN CHOICE, log 10). -/
def Reg.clkDacCentre : Nat := 0x480000 + 0x24
def Reg.clkDacCentreRow : Row := { base := 0x480024, gate := .clk }
/-- clkBuildoutLo (R292). -/
def Reg.clkBuildoutLo : Nat := 0x480000 + 0x28
def Reg.clkBuildoutLoRow : Row := { base := 0x480028, gate := .clk, view := .buildout }
/-- clkBuildoutHi (R292). -/
def Reg.clkBuildoutHi : Nat := 0x480000 + 0x2C
def Reg.clkBuildoutHiRow : Row := { base := 0x48002C, gate := .clk, view := .shadow }
/-- clkPhaseErr (R292). -/
def Reg.clkPhaseErr : Nat := 0x480000 + 0x30
def Reg.clkPhaseErrRow : Row := { base := 0x480030, rst := .val 0x80000000, gate := .clk }
/-- clkRefCfg (R292). -/
def Reg.clkRefCfg (i : Nat) : Nat := 0x480000 + 0x40 + 0x10 * i
def Reg.clkRefCfgRow : Row := { base := 0x480040, s1 := 0x10, n1 := 6, rw := 0xFFFFFFFF, rst := .val 0x1F00, gate := .clkRef, act := .refCfg }
/-- clkRefStat (R292). -/
def Reg.clkRefStat (i : Nat) : Nat := 0x480000 + 0x44 + 0x10 * i
def Reg.clkRefStatRow : Row := { base := 0x480044, s1 := 0x10, n1 := 6, w1c := 0xF00, gate := .clk, act := .plain }
/-- clkRefFoff1 (R292). -/
def Reg.clkRefFoff1 (i : Nat) : Nat := 0x480000 + 0x48 + 0x10 * i
def Reg.clkRefFoff1Row : Row := { base := 0x480048, s1 := 0x10, n1 := 6, rst := .val 0x80000000, gate := .clk }
/-- clkRefFoff64 (R292). -/
def Reg.clkRefFoff64 (i : Nat) : Nat := 0x480000 + 0x4C + 0x10 * i
def Reg.clkRefFoff64Row : Row := { base := 0x48004C, s1 := 0x10, n1 := 6, rst := .val 0x80000000, gate := .clk }
/-- clkSynCfg (R292). -/
def Reg.clkSynCfg (n : Nat) : Nat := 0x480000 + 0x100 + 0x10 * n
def Reg.clkSynCfgRow : Row := { base := 0x480100, s1 := 0x10, n1 := 8, rw := 0xFFFFFFFF, gate := .clk, act := .synCfg }
/-- clkSynStat (R292). -/
def Reg.clkSynStat (n : Nat) : Nat := 0x480000 + 0x104 + 0x10 * n
def Reg.clkSynStatRow : Row := { base := 0x480104, s1 := 0x10, n1 := 8, w1c := 0x3000000, rst := .syn, gate := .clk, act := .plain }
/-- clkSynBand (R292) (DESIGN CHOICE, log 10). -/
def Reg.clkSynBand (n : Nat) : Nat := 0x480000 + 0x108 + 0x10 * n
def Reg.clkSynBandRow : Row := { base := 0x480108, s1 := 0x10, n1 := 8, gate := .clk }
/-- clkSwitches (R292). -/
def Reg.clkSwitches : Nat := 0x480000 + 0x200
def Reg.clkSwitchesRow : Row := { base := 0x480200, gate := .clk }
/-- clkHoldovers (R292). -/
def Reg.clkHoldovers : Nat := 0x480000 + 0x204
def Reg.clkHoldoversRow : Row := { base := 0x480204, gate := .clk }
/-- clkDisquals (R292). -/
def Reg.clkDisquals : Nat := 0x480000 + 0x208
def Reg.clkDisqualsRow : Row := { base := 0x480208, gate := .clk }
/-- clkSynRelocks (R292). -/
def Reg.clkSynRelocks : Nat := 0x480000 + 0x20c
def Reg.clkSynRelocksRow : Row := { base := 0x48020C, gate := .clk }
/-- tioBridle (R315). -/
def Reg.tioBridle (n : Nat) : Nat := 0x500000 + 4 * n
def Reg.tioBridleRow : Row := { base := 0x500000, s1 := 0x4, n1 := 16, rw := 0x3FF, gate := .pin, act := .bridle }
/-- tioLevel (R315). -/
def Reg.tioLevel : Nat := 0x500000 + 0x40
def Reg.tioLevelRow : Row := { base := 0x500040, view := .tioLevel }
/-- tgCtrl (R315). -/
def Reg.tgCtrl (g : Nat) : Nat := 0x500000 + 0x1000 + 0x40 * g
def Reg.tgCtrlRow : Row := { base := 0x501000, s1 := 0x40, n1 := 16, rw := 0xFFFFFFFF, gate := .gen, view := .tgCtrl, act := .tgCtrl }
/-- tgStat (R315). -/
def Reg.tgStat (g : Nat) : Nat := 0x500000 + 0x1000 + 0x40 * g + 0x4
def Reg.tgStatRow : Row := { base := 0x501004, s1 := 0x40, n1 := 16, w1c := 0x1E, gate := .gen, act := .plain }
/-- tgTgtLo (R315). -/
def Reg.tgTgtLo (g : Nat) : Nat := 0x500000 + 0x1000 + 0x40 * g + 0x8
def Reg.tgTgtLoRow : Row := { base := 0x501008, s1 := 0x40, n1 := 16, rw := 0xFFFFFFFF, gate := .gen, view := .pairReg, act := .pairLo }
/-- tgTgtHi (R315). -/
def Reg.tgTgtHi (g : Nat) : Nat := 0x500000 + 0x1000 + 0x40 * g + 0xC
def Reg.tgTgtHiRow : Row := { base := 0x50100C, s1 := 0x40, n1 := 16, rw := 0xFFFFFFFF, gate := .gen, view := .shadow, act := .genField }
/-- tgFine (R315). -/
def Reg.tgFine (g : Nat) : Nat := 0x500000 + 0x1000 + 0x40 * g + 0x10
def Reg.tgFineRow : Row := { base := 0x501010, s1 := 0x40, n1 := 16, rw := 0xFFFFFFFF, gate := .gen, act := .genField }
/-- tgNtLo (R315). -/
def Reg.tgNtLo (g : Nat) : Nat := 0x500000 + 0x1000 + 0x40 * g + 0x14
def Reg.tgNtLoRow : Row := { base := 0x501014, s1 := 0x40, n1 := 16, rw := 0xFFFFFFFF, gate := .gen, view := .pairReg, act := .pairLo }
/-- tgNtHi (R315). -/
def Reg.tgNtHi (g : Nat) : Nat := 0x500000 + 0x1000 + 0x40 * g + 0x18
def Reg.tgNtHiRow : Row := { base := 0x501018, s1 := 0x40, n1 := 16, rw := 0xFFFFFFFF, gate := .gen, view := .shadow, act := .genField }
/-- tgPeriodLo (R315). -/
def Reg.tgPeriodLo (g : Nat) : Nat := 0x500000 + 0x1000 + 0x40 * g + 0x20
def Reg.tgPeriodLoRow : Row := { base := 0x501020, s1 := 0x40, n1 := 16, rw := 0xFFFFFFFF, gate := .gen, view := .pairReg, act := .pairLo }
/-- tgPeriodHi (R315). -/
def Reg.tgPeriodHi (g : Nat) : Nat := 0x500000 + 0x1000 + 0x40 * g + 0x24
def Reg.tgPeriodHiRow : Row := { base := 0x501024, s1 := 0x40, n1 := 16, rw := 0xFFFFFFFF, gate := .gen, view := .shadow, act := .genField }
/-- tgCount (R315). -/
def Reg.tgCount (g : Nat) : Nat := 0x500000 + 0x1000 + 0x40 * g + 0x28
def Reg.tgCountRow : Row := { base := 0x501028, s1 := 0x40, n1 := 16, rw := 0xFFFFFFFF, gate := .gen, act := .genField }
/-- tgWidth (R315). -/
def Reg.tgWidth (g : Nat) : Nat := 0x500000 + 0x1000 + 0x40 * g + 0x2C
def Reg.tgWidthRow : Row := { base := 0x50102C, s1 := 0x40, n1 := 16, rw := 0xFFFFFFFF, rst := .val 0x1, gate := .gen, act := .genField }
/-- tgFired (R315). -/
def Reg.tgFired (g : Nat) : Nat := 0x500000 + 0x1000 + 0x40 * g + 0x30
def Reg.tgFiredRow : Row := { base := 0x501030, s1 := 0x40, n1 := 16, gate := .gen }
/-- tgLeft (R315). -/
def Reg.tgLeft (g : Nat) : Nat := 0x500000 + 0x1000 + 0x40 * g + 0x34
def Reg.tgLeftRow : Row := { base := 0x501034, s1 := 0x40, n1 := 16, gate := .gen }
/-- iuCfg (R315). -/
def Reg.iuCfg (u : Nat) : Nat := 0x500000 + 0x2000 + 0x100 * u
def Reg.iuCfgRow : Row := { base := 0x502000, s1 := 0x100, n1 := 4, rw := 0xFFFFFFFF, gate := .iunit, act := .plain }
/-- iuWindow (R315). -/
def Reg.iuWindow (u : Nat) : Nat := 0x500000 + 0x2000 + 0x100 * u + 0x4
def Reg.iuWindowRow : Row := { base := 0x502004, s1 := 0x100, n1 := 4, rw := 0xFFFFFFFF, gate := .iunit, act := .plain }
/-- iuCtrl (R315). -/
def Reg.iuCtrl (u : Nat) : Nat := 0x500000 + 0x2000 + 0x100 * u + 0x8
def Reg.iuCtrlRow : Row := { base := 0x502008, s1 := 0x100, n1 := 4, gate := .iunit, view := .zero, act := .iuCtrl }
/-- iuStat (R315). -/
def Reg.iuStat (u : Nat) : Nat := 0x500000 + 0x2000 + 0x100 * u + 0xC
def Reg.iuStatRow : Row := { base := 0x50200C, s1 := 0x100, n1 := 4, w1c := 0x70000, gate := .iunit, view := .iuStat, act := .plain }
/-- iuResPop (R315). -/
def Reg.iuResPop (u : Nat) : Nat := 0x500000 + 0x2000 + 0x100 * u + 0x10
def Reg.iuResPopRow : Row := { base := 0x502010, s1 := 0x100, n1 := 4, gate := .iunit, view := .iuPop }
/-- iuResW (R315). -/
def Reg.iuResW (u k : Nat) : Nat := 0x500000 + 0x2000 + 0x100 * u + 0x14 + 4 * k
def Reg.iuResWRow : Row := { base := 0x502014, s1 := 0x100, n1 := 4, s2 := 0x4, n2 := 7, gate := .iunit, view := .shadow }
/-- iuCalStat (R315). -/
def Reg.iuCalStat (u : Nat) : Nat := 0x500000 + 0x2000 + 0x100 * u + 0x30
def Reg.iuCalStatRow : Row := { base := 0x502030, s1 := 0x100, n1 := 4, rst := .val 0xFFFFFFFF, gate := .iunit }
/-- iuCalTemp (R315). -/
def Reg.iuCalTemp (u : Nat) : Nat := 0x500000 + 0x2000 + 0x100 * u + 0x34
def Reg.iuCalTempRow : Row := { base := 0x502034, s1 := 0x100, n1 := 4, gate := .iunit }
/-- iuResults (R315). -/
def Reg.iuResults (u : Nat) : Nat := 0x500000 + 0x2000 + 0x100 * u + 0x38
def Reg.iuResultsRow : Row := { base := 0x502038, s1 := 0x100, n1 := 4, gate := .iunit }
/-- iuOverruns (R315). -/
def Reg.iuOverruns (u : Nat) : Nat := 0x500000 + 0x2000 + 0x100 * u + 0x3c
def Reg.iuOverrunsRow : Row := { base := 0x50203C, s1 := 0x100, n1 := 4, gate := .iunit }
/-- iuWinExp (R315). -/
def Reg.iuWinExp (u : Nat) : Nat := 0x500000 + 0x2000 + 0x100 * u + 0x40
def Reg.iuWinExpRow : Row := { base := 0x502040, s1 := 0x100, n1 := 4, gate := .iunit }
/-- cycCtrl (R203). -/
def Reg.cycCtrl : Nat := 0x580000 + 0x0
def Reg.cycCtrlRow : Row := { base := 0x580000, rw := 0xFFFFFE0F, gate := .cyc, act := .cycCtrl }
/-- cycStat (R203). -/
def Reg.cycStat : Nat := 0x580000 + 0x4
def Reg.cycStatRow : Row := { base := 0x580004, w1c := 0xF00, gate := .cyc, view := .cycStat, act := .plain }
/-- cycPeriod (R203). -/
def Reg.cycPeriod : Nat := 0x580000 + 0x8
def Reg.cycPeriodRow : Row := { base := 0x580008, gate := .cyc }
/-- cycPeriodPend (R203). -/
def Reg.cycPeriodPend : Nat := 0x580000 + 0xC
def Reg.cycPeriodPendRow : Row := { base := 0x58000C, gate := .cyc }
/-- cycPhaseLo (R203). -/
def Reg.cycPhaseLo : Nat := 0x580000 + 0x10
def Reg.cycPhaseLoRow : Row := { base := 0x580010, gate := .cyc, view := .cycPhase }
/-- cycPhaseHi (R203). -/
def Reg.cycPhaseHi : Nat := 0x580000 + 0x14
def Reg.cycPhaseHiRow : Row := { base := 0x580014, gate := .cyc, view := .shadow }
/-- cycNowLo (R203). -/
def Reg.cycNowLo : Nat := 0x580000 + 0x18
def Reg.cycNowLoRow : Row := { base := 0x580018, gate := .cyc, view := .cycNow }
/-- cycNowHi (R203). -/
def Reg.cycNowHi : Nat := 0x580000 + 0x1C
def Reg.cycNowHiRow : Row := { base := 0x58001C, gate := .cyc, view := .shadow }
/-- cycArmedLo (R203). -/
def Reg.cycArmedLo : Nat := 0x580000 + 0x20
def Reg.cycArmedLoRow : Row := { base := 0x580020, gate := .cyc, view := .cycArmed }
/-- cycArmedHi (R203). -/
def Reg.cycArmedHi : Nat := 0x580000 + 0x24
def Reg.cycArmedHiRow : Row := { base := 0x580024, gate := .cyc, view := .shadow }
/-- cycNetHash (R203). -/
def Reg.cycNetHash : Nat := 0x580000 + 0x28
def Reg.cycNetHashRow : Row := { base := 0x580028, gate := .cyc }
/-- cycShareCrc (R203). -/
def Reg.cycShareCrc : Nat := 0x580000 + 0x2C
def Reg.cycShareCrcRow : Row := { base := 0x58002C, gate := .cyc, view := .shareCrc }
/-- cycPendShareCrc (R203). -/
def Reg.cycPendShareCrc : Nat := 0x580000 + 0x30
def Reg.cycPendShareCrcRow : Row := { base := 0x580030, gate := .cyc, view := .pendShareCrc }
/-- cycLaunched (R203). -/
def Reg.cycLaunched : Nat := 0x580000 + 0x100
def Reg.cycLaunchedRow : Row := { base := 0x580100, gate := .cyc }
/-- cycSkipped (R203). -/
def Reg.cycSkipped : Nat := 0x580000 + 0x104
def Reg.cycSkippedRow : Row := { base := 0x580104, gate := .cyc }
/-- cycRepeated (R203). -/
def Reg.cycRepeated : Nat := 0x580000 + 0x108
def Reg.cycRepeatedRow : Row := { base := 0x580108, gate := .cyc }
/-- cycLaunchLate (R203). -/
def Reg.cycLaunchLate : Nat := 0x580000 + 0x10c
def Reg.cycLaunchLateRow : Row := { base := 0x58010C, gate := .cyc }
/-- cycBlocked (R203). -/
def Reg.cycBlocked : Nat := 0x580000 + 0x110
def Reg.cycBlockedRow : Row := { base := 0x580110, gate := .cyc }
/-- cycInFiled (R203). -/
def Reg.cycInFiled : Nat := 0x580000 + 0x114
def Reg.cycInFiledRow : Row := { base := 0x580114, gate := .cyc }
/-- cycInLate (R203). -/
def Reg.cycInLate : Nat := 0x580000 + 0x118
def Reg.cycInLateRow : Row := { base := 0x580118, gate := .cyc }
/-- cycInEarly (R203). -/
def Reg.cycInEarly : Nat := 0x580000 + 0x11c
def Reg.cycInEarlyRow : Row := { base := 0x58011C, gate := .cyc }
/-- cycInDup (R203). -/
def Reg.cycInDup : Nat := 0x580000 + 0x120
def Reg.cycInDupRow : Row := { base := 0x580120, gate := .cyc }
/-- cycInLenerr (R203). -/
def Reg.cycInLenerr : Nat := 0x580000 + 0x124
def Reg.cycInLenerrRow : Row := { base := 0x580124, gate := .cyc }
/-- cycRdSel (R203). -/
def Reg.cycRdSel : Nat := 0x580000 + 0x1000
def Reg.cycRdSelRow : Row := { base := 0x581000, view := .zero, act := .cycRdSel }
/-- cycRdW (R203). -/
def Reg.cycRdW (k : Nat) : Nat := 0x580000 + 0x1004 + 4 * k
def Reg.cycRdWRow : Row := { base := 0x581004, s1 := 0x4, n1 := 16, gate := .cyc, view := .shadow }
/-- pmuFixLo (R373). -/
def Reg.pmuFixLo (n : Nat) : Nat := 0x600000 + 8 * n
def Reg.pmuFixLoRow : Row := { base := 0x600000, s1 := 0x8, n1 := 512, gate := .pmu, view := .pmuFix }
/-- pmuFixHi (R373). -/
def Reg.pmuFixHi (n : Nat) : Nat := 0x600000 + 8 * n + 4
def Reg.pmuFixHiRow : Row := { base := 0x600004, s1 := 0x8, n1 := 512, gate := .pmu, view := .shadow }
/-- pmcSel (R373). -/
def Reg.pmcSel (m : Nat) : Nat := 0x600000 + 0x1000 + 0x10 * m
def Reg.pmcSelRow : Row := { base := 0x601000, s1 := 0x10, n1 := 16, rw := 0x7FFFFFFF, gate := .pmc, act := .pmcSel }
/-- pmcCntLo (R373). -/
def Reg.pmcCntLo (m : Nat) : Nat := 0x600000 + 0x1000 + 0x10 * m + 0x8
def Reg.pmcCntLoRow : Row := { base := 0x601008, s1 := 0x10, n1 := 16, gate := .pmc, view := .pmcCnt, act := .pairLo }
/-- pmcCntHi (R373). -/
def Reg.pmcCntHi (m : Nat) : Nat := 0x600000 + 0x1000 + 0x10 * m + 0xC
def Reg.pmcCntHiRow : Row := { base := 0x60100C, s1 := 0x10, n1 := 16, gate := .pmc, view := .shadow, act := .pmcCnt }
/-- pmuOvf (R373). -/
def Reg.pmuOvf (j : Nat) : Nat := 0x600000 + 0x2000 + 4 * j
def Reg.pmuOvfRow : Row := { base := 0x602000, s1 := 0x4, n1 := 16, w1c := 0xFFFFFFFF, gate := .pmu, act := .plain }
/-- pmuSmpStat (R373). -/
def Reg.pmuSmpStat : Nat := 0x600000 + 0x2080
def Reg.pmuSmpStatRow : Row := { base := 0x602080, w1c := 0x100, gate := .pmu, act := .smpStat }
/-- pmuSmpRawLo (R373). -/
def Reg.pmuSmpRawLo : Nat := 0x600000 + 0x2088
def Reg.pmuSmpRawLoRow : Row := { base := 0x602088, gate := .pmu, view := .pairReg }
/-- pmuSmpRawHi (R373). -/
def Reg.pmuSmpRawHi : Nat := 0x600000 + 0x208C
def Reg.pmuSmpRawHiRow : Row := { base := 0x60208C, gate := .pmu, view := .shadow }
/-- pmuSmpPc (R373). -/
def Reg.pmuSmpPc : Nat := 0x600000 + 0x2090
def Reg.pmuSmpPcRow : Row := { base := 0x602090, gate := .pmu }
/-- mgtStat (R408). -/
def Reg.mgtStat : Nat := 0x680000
def Reg.mgtStatRow : Row := { base := 0x680000, gate := .mgt, view := .mgtStat }
/-- mgtBootCause (R408). -/
def Reg.mgtBootCause : Nat := 0x680004
def Reg.mgtBootCauseRow : Row := { base := 0x680004, gate := .mgt }
/-- mgtFwVer (R408). -/
def Reg.mgtFwVer : Nat := 0x680008
def Reg.mgtFwVerRow : Row := { base := 0x680008, gate := .mgt, view := .fwVer }
/-- mgtFeedStat (R408). -/
def Reg.mgtFeedStat : Nat := 0x680010
def Reg.mgtFeedStatRow : Row := { base := 0x680010, w1c := 0x300, gate := .mgt, view := .feedStat, act := .plain }
/-- mgtFeedA (R408). -/
def Reg.mgtFeedA : Nat := 0x680014
def Reg.mgtFeedARow : Row := { base := 0x680014, gate := .mgt }
/-- mgtFeedB (R408). -/
def Reg.mgtFeedB : Nat := 0x680018
def Reg.mgtFeedBRow : Row := { base := 0x680018, gate := .mgt }
/-- mgtBus (R408). -/
def Reg.mgtBus : Nat := 0x68001C
def Reg.mgtBusRow : Row := { base := 0x68001C, gate := .mgt }
/-- mgtFeedForce (R408). -/
def Reg.mgtFeedForce : Nat := 0x680040
def Reg.mgtFeedForceRow : Row := { base := 0x680040, gate := .dg, view := .zero, act := .guard }
/-- mgtLaserOvr (R68, R408). -/
def Reg.mgtLaserOvr : Nat := 0x680048
def Reg.mgtLaserOvrRow : Row := { base := 0x680048, gate := .dg, act := .guard }
/-- mgtFailovers (R408). -/
def Reg.mgtFailovers : Nat := 0x680050
def Reg.mgtFailoversRow : Row := { base := 0x680050, gate := .mgt }
/-- mgtTemp (R408). -/
def Reg.mgtTemp (n : Nat) : Nat := 0x680060 + 4 * n
def Reg.mgtTempRow : Row := { base := 0x680060, s1 := 0x4, n1 := 12, gate := .mgt }
/-- mgtOven (R408). -/
def Reg.mgtOven : Nat := 0x680090
def Reg.mgtOvenRow : Row := { base := 0x680090, gate := .mgt }
/-- mgtRail (R408). -/
def Reg.mgtRail (n : Nat) : Nat := 0x6800A0 + 4 * n
def Reg.mgtRailRow : Row := { base := 0x6800A0, s1 := 0x4, n1 := 9, gate := .mgt }
/-- mgtStoreStat (R408). -/
def Reg.mgtStoreStat : Nat := 0x680100
def Reg.mgtStoreStatRow : Row := { base := 0x680100, gate := .mgt, view := .storeStat }
/-- mgtUpdStat (R408). -/
def Reg.mgtUpdStat : Nat := 0x680104
def Reg.mgtUpdStatRow : Row := { base := 0x680104, gate := .mgt }
/-- mgtLogSeq (R408). -/
def Reg.mgtLogSeq : Nat := 0x680108
def Reg.mgtLogSeqRow : Row := { base := 0x680108, gate := .mgt, view := .logSeq }
/-- arbTicketSh (R137). -/
def Reg.arbTicketSh (i : Nat) : Nat := 0x700100 + 4 * i
def Reg.arbTicketShRow : Row := { base := 0x700100, s1 := 0x4, n1 := 6, rw := 0xFFFFFFFF, rst := .ticket, gate := .swc, act := .buffered }
/-- arbCommit (R137). -/
def Reg.arbCommit : Nat := 0x700120
def Reg.arbCommitRow : Row := { base := 0x700120, gate := .swc, view := .zero, act := .arbCommit }
/-- arbLfsrSeed (R137). -/
def Reg.arbLfsrSeed : Nat := 0x700124
def Reg.arbLfsrSeedRow : Row := { base := 0x700124, rw := 0xFFFFFFFF, rst := .val 0x5EED0001, gate := .swc, act := .buffered }
/-- arbTicket (R137). -/
def Reg.arbTicket (i : Nat) : Nat := 0x700130 + 4 * i
def Reg.arbTicketRow : Row := { base := 0x700130, s1 := 0x4, n1 := 6, rst := .ticket, gate := .swc }
/-- arbGrant (R137). -/
def Reg.arbGrant (i : Nat) : Nat := 0x700150 + 4 * i
def Reg.arbGrantRow : Row := { base := 0x700150, s1 := 0x4, n1 := 6, gate := .swc }
/-- arbLfsr (R137). -/
def Reg.arbLfsr : Nat := 0x700170
def Reg.arbLfsrRow : Row := { base := 0x700170, rst := .val 0x5EED0001, gate := .swc }
/-- memStoreErase (R394, R408). -/
def Reg.memStoreErase : Nat := 0x700200
def Reg.memStoreEraseRow : Row := { base := 0x700200, gate := .dg, view := .storeErase, act := .guard }
def Reg.sysRows : List Row := [Reg.sysIdRow, Reg.sysRevRow, Reg.sysFeatRow, Reg.sysScratchRow, Reg.sysUptimeLoRow, Reg.sysUptimeHiRow, Reg.sysResetRow, Reg.sysFreezeEnRow, Reg.sysTapUnlockRow]
def Reg.hcxRows : List Row := [Reg.hcxRoleRow, Reg.hcxLevelRow, Reg.hcxStatRow, Reg.hcxBindRow, Reg.hcxSqBaseLoRow, Reg.hcxSqBaseHiRow, Reg.hcxSqSizeRow, Reg.hcxSqHeadRow, Reg.hcxCqBaseLoRow, Reg.hcxCqBaseHiRow, Reg.hcxCqSizeRow, Reg.hcxCqHeadRow, Reg.hcxCqTailRow, Reg.hcxQCtrlRow, Reg.hcxDoorbellRow, Reg.hcxSeqGapsRow, Reg.hcxCmdCountRow, Reg.hcxIntPinRow, Reg.hcxPmuUserEnRow, Reg.hcxReplayFloorLoRow, Reg.hcxReplayFloorHiRow, Reg.hcxAuthFailRow, Reg.ringBaseLoRow, Reg.ringBaseHiRow, Reg.ringSizeRow, Reg.ringCtrlRow, Reg.ringTailRow, Reg.ringHeadRow, Reg.ringStatRow, Reg.ringDropRow, Reg.hcxMacHiRow, Reg.hcxMacLoRow]
def Reg.evtRows : List Row := [Reg.evtStatRow, Reg.evtMaskRow, Reg.evtCfgRow, Reg.evtRearmRow, Reg.evtPendRow, Reg.evtRouteRow]
def Reg.portRows0 : List Row := [Reg.portMaxfrmRow, Reg.portFrmCtrlRow, Reg.portLineCtrlRow, Reg.portLineStatRow, Reg.portHalterRxRow, Reg.portHalterStatRow, Reg.portCapAdvRow, Reg.portLerrCrc8Row, Reg.portLerrStuffRow, Reg.portLerrTypeRow, Reg.portMarkMissRow, Reg.portAlignLossRow, Reg.portHalterDiscardRow, Reg.portDozeEntryRow, Reg.portPreemptTxRow, Reg.portPreemptRxRow, Reg.portPhyCtrlRow, Reg.portPhyStatRow, Reg.portEqTxRow, Reg.portEqRxRow, Reg.portEqDigRow, Reg.portCommitRow, Reg.portQual0Row, Reg.portQual1Row, Reg.portOpt0Row, Reg.portOpt1Row, Reg.ttCtrlRow, Reg.ttStatRow, Reg.ttAlphaRow, Reg.ttAsymRow, Reg.ttRtdRow, Reg.ttDinRow, Reg.ttThetaRow, Reg.ttTavgRow, Reg.ttNrrRow, Reg.ttPhaseRow, Reg.ttTxdlyRow, Reg.ttRxdlyRow, Reg.ttReqTxRow, Reg.ttRespOkRow]
def Reg.portRows1 : List Row := [Reg.ttLostRow, Reg.ttRejectRow, Reg.rxRuntRow, Reg.rx64Row, Reg.rx65_127Row, Reg.rx128_255Row, Reg.rx256_511Row, Reg.rx512_1023Row, Reg.rx1024_1518Row, Reg.rx1519_MaxRow, Reg.rxOversizeRow, Reg.rxUcastRow, Reg.rxMcastRow, Reg.rxBcastRow, Reg.rxCtrlRow, Reg.rxFcsErrRow, Reg.rxLineErrRow, Reg.rxAbortRow, Reg.rxCrumbInsRow, Reg.rxCrumbDelRow, Reg.rxC7DiscardRow, Reg.tx64Row, Reg.tx65_127Row, Reg.tx128_255Row, Reg.tx256_511Row, Reg.tx512_1023Row, Reg.tx1024_1518Row, Reg.tx1519_MaxRow, Reg.txOversizeRow, Reg.txUcastRow, Reg.txMcastRow, Reg.txBcastRow, Reg.txCtrlRow, Reg.txAbortRow, Reg.txColSingleRow, Reg.txColMultiRow, Reg.txColLateRow, Reg.txColExcessRow, Reg.txTruncRow, Reg.mcastPartialRow]
def Reg.portRows2 : List Row := [Reg.txC7BlockedRow]
def Reg.portRows : List Row := Reg.portRows0 ++ Reg.portRows1 ++ Reg.portRows2
def Reg.swcRows : List Row := [Reg.swcCommitRow, Reg.swcHeadroomRow, Reg.swcPoolStatRow, Reg.swcPoolLowRow, Reg.swcAgeSramRow, Reg.swcAgeDramRow, Reg.swcAgeC6Row, Reg.swcSpillStageRow, Reg.swcReturnThrRow, Reg.swcDramStatRow, Reg.swcCfgStatRow, Reg.swcEccCorrRow, Reg.swcEccUncorrRow, Reg.swcSampleDropRow, Reg.swcLastDropRow, Reg.swcPcpMapRow, Reg.swcSampleRow, Reg.swcDrr0Row, Reg.swcDrr1Row, Reg.swcQcfgRow, Reg.swcQdramCfgRow, Reg.swcQoccRow, Reg.swcQdramOccRow, Reg.swcQdropRow, Reg.swcQagedRow, Reg.swcQspilledRow, Reg.swcQreturnedRow]
def Reg.tblRows : List Row := [Reg.tblFdbSeedRow, Reg.tblFdbSeedOldRow, Reg.tblFdbStatRow, Reg.tblFdbStrandedRow, Reg.tblCfgEpochRow, Reg.tblAgeRow, Reg.tblLlDestRow, Reg.tblFloodMaskRow, Reg.tblLearnEnRow, Reg.tblShadowCtrlRow, Reg.tblShadowStatRow, Reg.tblShadowPassRow, Reg.tblMmCountRow, Reg.tblEccCorrRow, Reg.tblEccUncorrRow, Reg.tblPvidRow, Reg.tblLearnRateRow, Reg.tblFilteredRow, Reg.tblVlanDropRow, Reg.tblStreamMissRow, Reg.tblFdbMovesRow, Reg.tblFdbAgedRow, Reg.tblStaticConflictRow, Reg.tblLearnLimitedRow, Reg.tblLearnQdropRow, Reg.tblProtRow, Reg.tblLrnStatRow, Reg.tblLrnPopRow, Reg.tblLrnWRow, Reg.tblRdSelRow, Reg.tblRdWRow]
def Reg.tsuRows : List Row := [Reg.tsuCtrlRow, Reg.tsuStateRow, Reg.tsuEpochRow, Reg.tsuEpochResetRow, Reg.tsuSlewMaxRow, Reg.tsuSwitchLimitRow, Reg.tsuBridgeLoRow, Reg.tsuBridgeHiRow, Reg.tsuRawLoRow, Reg.tsuRawHiRow, Reg.tsuSnapRow, Reg.tsuDomRow, Reg.tsuGenRow, Reg.tsuRateRow, Reg.tsuRawBaseRow, Reg.tsuBaseRow, Reg.tsuOffsetRow, Reg.tsuGmIdLoRow, Reg.tsuGmIdHiRow, Reg.tsuGmQRow, Reg.tsuServoRow, Reg.tsuLockcfgRow, Reg.tsuUtcRow, Reg.tsuTcDoneRow, Reg.tsuTcSkipRow, Reg.tsuOnestepTxRow, Reg.tsuPtpDiscardRow]
def Reg.clkRows : List Row := [Reg.clkOvenRow, Reg.clkRselRow, Reg.clkSelRow, Reg.clkSwitchRow, Reg.clkDisagreeRow, Reg.clkDpllCfgRow, Reg.clkDpllStatRow, Reg.clkDacRow, Reg.clkDacHoldRow, Reg.clkDacCentreRow, Reg.clkBuildoutLoRow, Reg.clkBuildoutHiRow, Reg.clkPhaseErrRow, Reg.clkRefCfgRow, Reg.clkRefStatRow, Reg.clkRefFoff1Row, Reg.clkRefFoff64Row, Reg.clkSynCfgRow, Reg.clkSynStatRow, Reg.clkSynBandRow, Reg.clkSwitchesRow, Reg.clkHoldoversRow, Reg.clkDisqualsRow, Reg.clkSynRelocksRow]
def Reg.tioRows : List Row := [Reg.tioBridleRow, Reg.tioLevelRow, Reg.tgCtrlRow, Reg.tgStatRow, Reg.tgTgtLoRow, Reg.tgTgtHiRow, Reg.tgFineRow, Reg.tgNtLoRow, Reg.tgNtHiRow, Reg.tgPeriodLoRow, Reg.tgPeriodHiRow, Reg.tgCountRow, Reg.tgWidthRow, Reg.tgFiredRow, Reg.tgLeftRow, Reg.iuCfgRow, Reg.iuWindowRow, Reg.iuCtrlRow, Reg.iuStatRow, Reg.iuResPopRow, Reg.iuResWRow, Reg.iuCalStatRow, Reg.iuCalTempRow, Reg.iuResultsRow, Reg.iuOverrunsRow, Reg.iuWinExpRow]
def Reg.cycRows : List Row := [Reg.cycCtrlRow, Reg.cycStatRow, Reg.cycPeriodRow, Reg.cycPeriodPendRow, Reg.cycPhaseLoRow, Reg.cycPhaseHiRow, Reg.cycNowLoRow, Reg.cycNowHiRow, Reg.cycArmedLoRow, Reg.cycArmedHiRow, Reg.cycNetHashRow, Reg.cycShareCrcRow, Reg.cycPendShareCrcRow, Reg.cycLaunchedRow, Reg.cycSkippedRow, Reg.cycRepeatedRow, Reg.cycLaunchLateRow, Reg.cycBlockedRow, Reg.cycInFiledRow, Reg.cycInLateRow, Reg.cycInEarlyRow, Reg.cycInDupRow, Reg.cycInLenerrRow, Reg.cycRdSelRow, Reg.cycRdWRow]
def Reg.pmuRows : List Row := [Reg.pmuFixLoRow, Reg.pmuFixHiRow, Reg.pmcSelRow, Reg.pmcCntLoRow, Reg.pmcCntHiRow, Reg.pmuOvfRow, Reg.pmuSmpStatRow, Reg.pmuSmpRawLoRow, Reg.pmuSmpRawHiRow, Reg.pmuSmpPcRow]
def Reg.mgtRows : List Row := [Reg.mgtStatRow, Reg.mgtBootCauseRow, Reg.mgtFwVerRow, Reg.mgtFeedStatRow, Reg.mgtFeedARow, Reg.mgtFeedBRow, Reg.mgtBusRow, Reg.mgtFeedForceRow, Reg.mgtLaserOvrRow, Reg.mgtFailoversRow, Reg.mgtTempRow, Reg.mgtOvenRow, Reg.mgtRailRow, Reg.mgtStoreStatRow, Reg.mgtUpdStatRow, Reg.mgtLogSeqRow]
def Reg.memRows : List Row := [Reg.arbTicketShRow, Reg.arbCommitRow, Reg.arbLfsrSeedRow, Reg.arbTicketRow, Reg.arbGrantRow, Reg.arbLfsrRow, Reg.memStoreEraseRow]

/-- The rows of the block an address lies in (R363). -/
def Reg.rowsAt (a : Nat) : List Row :=
  if a < 0x10000 then Reg.sysRows
  else if a < 0x20000 then Reg.hcxRows
  else if a < 0x100000 then Reg.evtRows
  else if a < 0x200000 then Reg.portRows
  else if a < 0x300000 then Reg.swcRows
  else if a < 0x400000 then Reg.tblRows
  else if a < 0x480000 then Reg.tsuRows
  else if a < 0x500000 then Reg.clkRows
  else if a < 0x580000 then Reg.tioRows
  else if a < 0x600000 then Reg.cycRows
  else if a < 0x680000 then Reg.pmuRows
  else if a < 0x700000 then Reg.mgtRows
  else if a < 0x1000000 then Reg.memRows
  else []

/-- The first row of a list that holds address `a`, with the place. -/
def Reg.findIn : List Row → Nat → Option (Row × Nat × Nat)
  | [], _ => none
  | r :: t, a =>
    match r.place a with
    | some (i, j) => some (r, i, j)
    | none => Reg.findIn t a

/-- The register at an address; `none` where the address is unimplemented (R352). -/
def Reg.find (a : Nat) : Option (Row × Nat × Nat) :=
  if a % 4 = 0 then Reg.findIn (Reg.rowsAt a) a else none

/-- The reset queue configuration of queue `q` = 8 * egress + class (R134). -/
def Reg.qcfgReset (q : Nat) : Word :=
  let e := q / 8
  let c := q % 8
  let floor := if 6 ≤ c then 32 else 16
  let alpha := if c = 7 then 0 else if c = 6 then 6 else 4
  let spill := if c < 6 ∧ (e < 24 ∨ e = 29 ∨ e = 30) then 1 else 0
  BitVec.ofNat 32 (floor + alpha * 2 ^ 12 + 0x40 * 2 ^ 16 + spill * 2 ^ 28)

/-- The reset value of register `(i, j)` under a reset rule. -/
def Rst.at (r : Rst) (i : Nat) : Word :=
  match r with
  | .val w => w
  -- R370
  | .route =>
    if 224 ≤ i ∧ i < 232 then BitVec.ofNat 32 (2 ^ (i - 224))
    else if 232 ≤ i ∧ i < 240 then BitVec.ofNat 32 (2 ^ (i - 232)) ||| 1
    else if 243 ≤ i ∧ i < 247 then BitVec.ofNat 32 (2 ^ (i - 243))
    else 1
  -- R87
  | .maxfrm => if i < 28 then 1522 else 9216
  -- R263
  | .alpha => if i < 16 then 0x001A36E3 else 0
  | .qcfg => Reg.qcfgReset i
  -- R236: numbers 0 and 1, no upstream port
  | .dom => if i = 0 then 0x001F0000 else 0x001F0100
  -- R137
  | .ticket => if i < 2 then 80 else if i < 4 then 32 else 16
  -- R286, R288 to R290: line synthesisers search with N = 825, the core and DRAM ones are locked
  | .syn => if i < 6 then 2 + 825 * 512 else if i = 6 then 1 + 80 * 512 else 1 + 512 * 512

/-- The reset value of the register at an address. -/
def Reg.reset (a : Nat) : Word :=
  match Reg.find a with
  | some (r, i, _) => r.rst.at i
  | none => 0

end Sys2Proof.Machine
end

