-- ==== Sys2Proof/Machine/Ops.lean ====
section
/-! DEFINITION. The named operations over registers, counters, events, contexts and time that the
meanings share. -/

namespace Sys2Proof.Machine

/-! Fields of a register word. -/

/-- Field `[lo + len - 1 : lo]` of a word. -/
def getFld (w : Word) (lo len : Nat) : Nat := w.toNat / 2 ^ lo % 2 ^ len

/-- The word with field `[lo + len - 1 : lo]` replaced. -/
def putFld (w : Word) (lo len v : Nat) : Word :=
  BitVec.ofNat 32 (w.toNat - getFld w lo len * 2 ^ lo + v % 2 ^ len * 2 ^ lo)

/-- Bit `i` of a word. -/
def bit (w : Word) (i : Nat) : Bool := w.toNat.testBit i

/-- The word with bit `i` set. -/
def orBit (w : Word) (i : Nat) : Word := w ||| (1#32 <<< i)

/-- A number as a 32-bit word. -/
def w32 (n : Nat) : Word := BitVec.ofNat 32 n

/-- A signed number as a 32-bit word, saturating. -/
def sat32 (i : Int) : Word :=
  BitVec.ofInt 32 (max (-2147483648) (min 2147483647 i))

/-- A Bool as a number. -/
def b2n (b : Bool) : Nat := if b then 1 else 0

/-- The nearest whole number to `n / d`. Conventions: log 15. -/
def roundDiv (n d : Int) : Int := (2 * n + d) / (2 * d)

/-! Registers. -/

/-- The value in force of the register at `a`. -/
def State.rd (s : State) (a : Nat) : Word := Tab.get Reg.reset s.regs a

/-- The register at `a` set to `v`. -/
def State.wr (s : State) (a : Nat) (v : Word) : State :=
  { s with regs := Tab.set Reg.reset s.regs a v }

/-- A field of a register. -/
def State.fld (s : State) (a lo len : Nat) : Nat := getFld (s.rd a) lo len

/-- A field of a register set. -/
def State.setFld (s : State) (a lo len v : Nat) : State := s.wr a (putFld (s.rd a) lo len v)

/-- A bit of a register. -/
def State.bitAt (s : State) (a i : Nat) : Bool := bit (s.rd a) i

/-- Bits of the register at `a` that the hardware set in this tick: a W1C in the same tick leaves them set (R8, R370). -/
def State.freshBits (s : State) (a : Nat) : Word := if s.setAt = s.raw then Tab.get (fun _ => 0) s.setNow a else 0

/-- A bit of a register set, as the hardware sets a sticky bit (R8). -/
def State.stick (s : State) (a i : Nat) : State :=
  { s.wr a (orBit (s.rd a) i) with
    setAt := s.raw,
    setNow := Tab.set (fun _ => 0) (if s.setAt = s.raw then s.setNow else []) a (orBit (s.freshBits a) i) }

/-- A register staged for its commit (RWB/k, R359). -/
def State.stage (s : State) (a : Nat) (v : Word) : State := { s with pendK := Tab.put s.pendK a v }

/-- What a register reads back: the value where one is pending, staged, captured by an ARB_COMMIT or buffered (R8, R137). -/
def State.readBack (s : State) (a : Nat) : Word :=
  Tab.get (Tab.get (Tab.get s.rd s.pendF) (s.sw.arbDue.getD [])) s.pendK a

/-- Staged values of the addresses a predicate picks are applied (R359). -/
def State.applyK (s : State) (p : Nat → Bool) : State :=
  let due := s.pendK.filter fun x => p x.1
  due.foldl (fun t x => t.wr x.1 x.2) { s with pendK := s.pendK.filter fun x => !p x.1 }

/-- Staged values of the addresses a predicate picks are discarded (R345). -/
def State.dropK (s : State) (p : Nat → Bool) : State :=
  { s with pendK := s.pendK.filter fun x => !p x.1 }

/-! Units. -/

/-- The context of an index. -/
def State.cx (s : State) (c : Nat) : Ctx := Tab.get (fun _ => {}) s.ctx c

/-- A context changed. -/
def State.onCx (s : State) (c : Nat) (f : Ctx → Ctx) : State :=
  { s with ctx := Tab.set (fun _ => {}) s.ctx c (f (s.cx c)) }

/-- Words latched into a context's read shadow (R355). -/
def State.latch (s : State) (c : Nat) (l : List (Nat × Word)) : State :=
  s.onCx c fun x => { x with shadow := l.foldl (fun t y => Tab.set (fun _ => 0) t y.1 y.2) x.shadow }

/-- The role of a context; the reset roles are those of R15. -/
def State.role (s : State) (c : Nat) : Role :=
  Tab.get (fun k => if k = 0 then Role.principal else Role.observer) s.roles c

/-- The role of a context set. -/
def State.setRole (s : State) (c : Nat) (r : Role) : State :=
  { s with roles := Tab.set (fun k => if k = 0 then Role.principal else Role.observer) s.roles c r }

/-- The rein `r` as it is held. -/
def State.rein (s : State) (r : Nat) : Option Rein := Tab.get (fun _ => none) s.reins r

/-- The rein `r` given or freed. -/
def State.setRein (s : State) (r : Nat) (v : Option Rein) : State :=
  { s with reins := Tab.set (fun _ => none) s.reins r v }

/-- The line state of a port. -/
def State.pt (s : State) (p : Nat) : PortSt := Tab.get (fun _ => {}) s.port p

/-- A port's line state changed. -/
def State.onPt (s : State) (p : Nat) (f : PortSt → PortSt) : State :=
  { s with port := Tab.set (fun _ => {}) s.port p (f (s.pt p)) }

/-- A port's time state. -/
def State.ptm (s : State) (p : Nat) : PortTime := Tab.get (fun _ => {}) s.ptime p

/-- A port's time state changed. -/
def State.onPtm (s : State) (p : Nat) (f : PortTime → PortTime) : State :=
  { s with ptime := Tab.set (fun _ => {}) s.ptime p (f (s.ptm p)) }

/-- A time domain. -/
def State.dm (s : State) (d : Nat) : DomSt := Tab.get (fun _ => {}) s.tim.dom d

/-- A time domain changed. -/
def State.onDm (s : State) (d : Nat) (f : DomSt → DomSt) : State :=
  { s with tim := { s.tim with dom := Tab.set (fun _ => {}) s.tim.dom d (f (s.dm d)) } }

/-- The management state changed. -/
def State.onMgt (s : State) (f : Mgt → Mgt) : State := { s with mgt := f s.mgt }

/-- The clock state changed. -/
def State.onClk (s : State) (f : Clk → Clk) : State := { s with clk := f s.clk }

/-- Raw time as a number of ticks. -/
def State.now (s : State) : Nat := s.raw.toNat

/-- Fibre ports absent on the SKX32-I08 (R1). -/
def State.absent (s : State) (p : Nat) : Bool :=
  decide (s.code = .i08) && (decide (4 ≤ p ∧ p < 8) || decide (12 ≤ p ∧ p < 16))

/-- Switch ports that exist. -/
def State.exists (s : State) (p : Nat) : Bool := decide (p < 32) && !s.absent p

/-- The port group of an F or L port (R12). -/
def groupOf (p : Nat) : Nat := p / 4

/-- The rein that covers a port's settings: 1 to 6 for its group, 7 for M ports (R342). -/
def portRein (p : Nat) : Nat := if p < 24 then groupOf p + 1 else 7

/-- A native port (R13). -/
def State.native (s : State) (p : Nat) : Bool :=
  decide (p < 24) && (decide ((s.pt p).mode = .native25) || decide ((s.pt p).mode = .native10))

/-- The module runs: powered, out of reset, not frozen (R386, R404). -/
def State.live (s : State) : Bool := decide (s.life = .up)

/-- The firmware serves commands. -/
def State.fwOn (s : State) : Bool := s.live && decide (s.mgt.fw = .ready)

/-- A free value is drawn: the counter advances (DESIGN CHOICE, log 7). -/
def State.drawn (s : State) : State := { s with freeCtr := s.freeCtr + 1 }

/-! Time (R209 to R214, R223, R234). -/

/-- T_x at a raw time in 1/256 tick, in 2^-32 ns (R209): one tick is 4/5 ns. Conventions: log 16. -/
def DomSt.at (d : DomSt) (r256 : Int) : Int :=
  d.base + (r256 - d.rawBase) * 4 * 2 ^ 32 * (2 ^ 40 + d.rate) / (5 * 256 * 2 ^ 40)

/-- A rebase at `r256` to a new rate (R210); the 64 last are kept (R215). Conventions: log 16. -/
def DomSt.rebase (d : DomSt) (r256 : Nat) (rate : Int) : DomSt :=
  let r := max (-2147483648) (min 2147483647 rate)
  { d with base := d.at r256, rawBase := r256, rate := r,
           hist := ({ base := d.at r256, rawBase := r256, rate := r } :: d.hist).take 64 }

/-- The state of a domain: 0 UNLOCKED, 1 FIRST_LOCK, 2 LOCKED (R216). -/
def State.domState (s : State) (d : Nat) : Nat := s.fld (Reg.tsuDom d) 0 2

/-- The bridge in 2^-16 ns, digits below dropped (R223). -/
def Tim.b16 (t : Tim) : Int := Int.tdiv t.bridge 9765625

/-- The output time O at a raw time in 1/256 tick, in 2^-32 ns (R223). -/
def State.outAt (s : State) (r256 : Int) : Int := (s.dm s.tim.active).at r256 + s.tim.b16 * 2 ^ 16

/-- Seconds, nanoseconds and 2^-16 ns of a time in 2^-32 ns, digits below dropped (R209). -/
def ptpOf (t : Int) : Nat × Nat × Nat :=
  let n := t.toNat
  let ns := n / 2 ^ 32
  (ns / 1000000000 % 2 ^ 48, ns % 1000000000, n / 2 ^ 16 % 2 ^ 16)

/-- The output time now, all zero while the active domain is UNLOCKED (R234). -/
def State.netTime (s : State) : Nat × Nat × Nat :=
  if s.domState s.tim.active = 0 then (0, 0, 0) else ptpOf (s.outAt (s.now * 256))

/-- The network tick count N of a time (R211). Conventions: log 16. -/
def ticksOf (t : Nat × Nat × Nat) : Nat :=
  t.1 * 1250000000 + (t.2.1 * 65536 + t.2.2) * 5 / (4 * 65536)

/-- TSU_SNAP_FLAGS as read (R234, R236). -/
def State.snapFlags (s : State) : Nat :=
  let a := s.tim.active
  let st := s.domState a
  st + a * 4 + b2n s.tim.slewing * 8 + s.fld (Reg.tsuDom a) 2 1 * 16 + s.fld (Reg.tsuDom a) 3 1 * 32
    + s.fld (Reg.tsuDom a) 5 1 * 64 + (if st = 0 then 0 else 128) + (if st = 2 then 256 else 0)

/-! Banks of the store (R392, R393). -/

/-- The valid bank with the higher seq, bank 0 on equal seq; `none` for none (R392). -/
def winner (v0 v1 : Bool) (q0 q1 : Nat) : Option Nat :=
  if v0 && (!v1 || decide (q1 ≤ q0)) then some 0 else if v1 then some 1 else none

/-- A firmware bank. -/
def Mgt.fwb (m : Mgt) (i : Nat) : FwBank := Tab.get (fun _ => {}) m.fwBanks i

/-- A configuration bank. -/
def Mgt.cfgb (m : Mgt) (i : Nat) : CfgBank := Tab.get (fun _ => {}) m.cfgBanks i

/-- A saved-state bank. -/
def Mgt.svb (m : Mgt) (i : Nat) : SavedState := Tab.get (fun _ => {}) m.savedBanks i

/-- The winning configuration bank. -/
def Mgt.cfgWinner (m : Mgt) : Option Nat :=
  winner (m.cfgb 0).valid (m.cfgb 1).valid (m.cfgb 0).seq (m.cfgb 1).seq

/-- The winning saved-state bank. -/
def Mgt.savedWinner (m : Mgt) : Option Nat :=
  winner (m.svb 0).valid (m.svb 1).valid (m.svb 0).seq (m.svb 1).seq

/-- The bank that does not hold the winner (R393). -/
def otherBank : Option Nat → Nat
  | some 0 => 1
  | _ => 0

/-- A write of the saved state starts where no write runs (R393). -/
def Mgt.saveState (m : Mgt) : Mgt :=
  if m.job.isNone then { m with job := some (.saved (otherBank m.savedWinner)) } else m

/-- A sequence of the in-band kind passes a multiple of 2^20: the firmware records it (R329). -/
def State.floorMark (s : State) (i old new : Nat) : State :=
  if old / 2 ^ 20 < new / 2 ^ 20 then
    s.onMgt fun m => { m with saved := { m.saved with floors := m.saved.floors.set i (new / 2 ^ 20 * 2 ^ 20) } }.saveState
  else s

/-! Events, the log and MSI-X (R366 to R370, R395, R396). -/

/-- EVT_PEND.pending of a context (R366). -/
def State.evtPending (s : State) (c : Nat) : Bool :=
  (List.range 8).any fun j => (s.rd (Reg.evtStat c j) &&& ~~~ s.rd (Reg.evtMask c j)) != 0

/-- An event message of HC0 to HC3 is due: it is issued, or waits for the holdoff (R369). -/
def State.postMsg (s : State) (c : Nat) : State :=
  let hold := s.fld (Reg.evtCfg c) 16 16 * 1250
  let ready : Bool := match (s.cx c).lastMsg with
    | none => true
    | some t => decide (t + hold ≤ s.now)
  if ready then
    s.onCx c fun x => { x with msix := s.fld (Reg.evtCfg c) 0 5 :: x.msix, lastMsg := some s.now, msgWait := false }
  else s.onCx c fun x => { x with msgWait := true }

/-- An event frame of HC6 or HC7 (R369): for the source of the last accepted frame, and not before one has been accepted;
the firmware builds it. Conventions: log 29. -/
def State.eventFrame (s : State) (c : Nat) : State :=
  match (s.cx c).lastSrc with
  | none => s
  | some dst =>
    if s.fwOn then
      s.onCx c fun x =>
        { x with lastMsg := some s.now,
                 out := x.out ++ [{ kind := 2, dst := dst,
                                    reply := { op := 0x8903, tag := Config.eventHead 0 % 65536, status := 0, seq := Config.eventHead 1 % 2 ^ 32,
                                               deferred := false,
                                               params := (List.range 8).map (fun j => (s.rd (Reg.evtStat c j)).toNat) ++ [s.now] } }] }
    else s

/-- Delivery when pending may have gone from 0 to 1 (R369); INTn_N follows pending by itself. Conventions: log 48. -/
def State.deliver (s : State) (c : Nat) (before : Bool) : State :=
  if !before && s.evtPending c then
    if c < 4 then s.postMsg c else if 6 ≤ c then s.eventFrame c else s
  else s

/-- A source raised in one context (R367). -/
def State.raiseIn (s : State) (n c : Nat) : State :=
  if s.bitAt (Reg.evtRoute n) c then
    (s.stick (Reg.evtStat c (n / 32)) (n % 32)).deliver c (s.evtPending c)
  else s

/-- A source raised in every context its route names (R367). -/
def State.raiseBits (s : State) (n : Nat) : State :=
  let route := s.rd (Reg.evtRoute n)
  (List.range 8).foldl (fun t c => if bit route c then t.raiseIn n c else t) s

/-- The next record enters a sector that holds older records (R395). -/
def State.logTurns (s : State) : Bool :=
  decide ((s.mgt.logSeq + 1) % 1024 = 0) && s.mgt.log.any fun x => decide (x.seq + 64512 ≤ s.mgt.logSeq + 1)

/-- A record appended to the log: at most 200 a second; a sector that is entered loses its records (R395, R396).
Conventions: logs 13, 23. -/
def State.logOne (s : State) (source code : Nat) (args : List Nat) : State :=
  if !s.fwOn then s else
  let sec := s.uptime / 1000000000
  let n := if s.mgt.logSecond = sec then s.mgt.logCount else 0
  if 200 ≤ n then s.onMgt fun m => { m with logSecond := sec, logCount := n, suppressed := m.suppressed + 1 }
  else
    let q := s.mgt.logSeq + 1
    let t := s.netTime
    let st := s.domState s.tim.active
    let r : LogRec :=
      { seq := q, uptime := s.uptime, sec := t.1, ns := t.2.1,
        flags := (if st = 0 then 0 else 1) + (if st = 2 then 2 else 0) + s.tim.active * 4,
        epoch := s.epoch % 256, source := source, code := code, args := args }
    let kept := if s.logTurns then s.mgt.log.filter fun x => decide (q < x.seq + 64512) else s.mgt.log
    s.onMgt fun m => { m with log := kept ++ [r], logSeq := q, logSecond := sec, logCount := n + 1 }

/-- A record, and source 251 with its own record where it turns the log (R395, R396). -/
def State.logRec (s : State) (source code : Nat) (args : List Nat) : State :=
  let t := s.logOne source code args
  if s.logTurns && decide (t.mgt.logSeq ≠ s.mgt.logSeq) then
    let u := t.raiseBits 251
    if u.mgt.logMask.getLsbD 251 then u.logOne 251 1 [0, 0] else u
  else t

/-- A source raised, with the status register and the unit its log record names (R367, R395).
Conventions: logs 13, 23. -/
def State.raiseAt (s : State) (n : Nat) (stat : Word) (unit : Nat) : State :=
  let t := s.raiseBits n
  if s.mgt.logMask.getLsbD n then t.logRec n 1 [stat.toNat, unit] else t

/-- The port, unit, generator, domain or context that a source's number names (R368, R395). Conventions: log 13. -/
def unitOf (n : Nat) : Nat :=
  if 32 ≤ n ∧ n < 96 then n % 32
  else if (128 ≤ n ∧ n < 130) ∨ (136 ≤ n ∧ n < 138) then n % 2
  else if n = 134 then 1
  else if 160 ≤ n ∧ n < 176 then n - 160
  else if 180 ≤ n ∧ n < 184 then n - 180
  else if 224 ≤ n ∧ n < 240 then n % 8
  else if 243 ≤ n ∧ n < 247 then n - 243
  else 0

/-- A source raised. -/
def State.raise (s : State) (n : Nat) : State := s.raiseAt n 0 (unitOf n)

/-- A source that the firmware raises: it stays clear while the firmware does not run (R378). Conventions: log 23. -/
def State.raiseFw (s : State) (n : Nat) : State := if s.fwOn then s.raise n else s

/-- A source raised where a condition holds. -/
def State.raiseIf (s : State) (b : Bool) (n : Nat) : State := if b then s.raise n else s

/-! Counters (R102, R104, R373 to R376). -/

/-- A 32-bit counter counts one; reaching half range raises its source (R104). -/
def State.count (s : State) (a src : Nat) : State :=
  let v := s.rd a + 1
  let t := s.wr a v
  if v = 0x80000000 then t.raise src else t

/-- A counter of a port counts one; half range raises source 64 + p (R102, R368). -/
def State.countP (s : State) (a p : Nat) : State := s.count a (64 + p)

/-- A counter counts `k`. -/
def State.countN (s : State) (a src k : Nat) : State :=
  let v := s.rd a
  let t := s.wr a (v + w32 k)
  if v.toNat < 2147483648 ∧ 2147483648 ≤ v.toNat + k then t.raise src else t

/-- The count of a fixed counter. -/
def State.fixAt (s : State) (n : Nat) : Nat := Tab.get (fun _ => 0) s.pmuFix n

/-- The count of a programmable counter. -/
def State.pmcAt (s : State) (m : Nat) : Nat := Tab.get (fun _ => 0) s.pmc m

/-- A programmable counter set. -/
def State.setPmc (s : State) (m v : Nat) : State := { s with pmc := Tab.set (fun _ => 0) s.pmc m v }

/-- A sample record at an overflow (R376). Conventions: log 49. -/
def State.sample (s : State) (m : Nat) : State :=
  if s.bitAt (Reg.pmcSel m) 11 then
    if s.bitAt Reg.pmuSmpStat 8 then
      s.setFld Reg.pmuSmpStat 16 16 (min 65535 (s.fld Reg.pmuSmpStat 16 16 + 1))
    else
      ((((s.setFld Reg.pmuSmpStat 0 4 m).stick Reg.pmuSmpStat 8).wr Reg.pmuSmpRawLo (w32 s.now)).wr
        Reg.pmuSmpRawHi (w32 (s.now / 2 ^ 32))).wr Reg.pmuSmpPc (Config.programCounter s.freeCtr) |>.drawn
  else s

/-- PMCm is chained: it counts the wraps of the counter below it (R375). -/
def State.chained (s : State) (m : Nat) : Bool := decide (13 ≤ m ∧ m < 16) && s.bitAt (Reg.pmcSel m) 10

/-- A programmable counter counts one; a wrap sets ovf, samples, and feeds the counter chained above
or raises source 248 (R375, R376). The first argument bounds the chain. Conventions: log 49. -/
def State.pmcInc : Nat → State → Nat → State
  | 0, s, _ => s
  | fuel + 1, s, m =>
    if s.pmcAt m + 1 < 2 ^ 48 then s.setPmc m (s.pmcAt m + 1)
    else
      let t := ((s.setPmc m 0).stick (Reg.pmcSel m) 31).sample m
      if t.chained (m + 1) then (if t.bitAt (Reg.pmcSel (m + 1)) 9 then State.pmcInc fuel t (m + 1) else t)
      else t.raise 248

/-- The fixed counter of event `n` counts one; a wrap sets its OVF and raises source 247 (R373). Conventions: log 49. -/
def State.fixInc (s : State) (n : Nat) : State :=
  if s.fixAt n + 1 < 2 ^ 48 then { s with pmuFix := Tab.set (fun _ => 0) s.pmuFix n (s.fixAt n + 1) }
  else
    ((({ s with pmuFix := Tab.set (fun _ => 0) s.pmuFix n 0 } : State).stick (Reg.pmuOvf (n / 32)) (n % 32))).raise 247

/-- Performance event `n` happens (R372): the fixed counter and every enabled programmable counter
that selects it count it. Conventions: log 49. -/
def State.perf (s : State) (n : Nat) : State :=
  (List.range 16).foldl
    (fun t m =>
      if t.bitAt (Reg.pmcSel m) 9 && !t.chained m && decide (t.fld (Reg.pmcSel m) 0 9 = n) then State.pmcInc 4 t m
      else t)
    (s.fixInc n)

/-! Ownership and reins (R338 to R345). -/

/-- The key of an owned resource: kind 0 port, 1 stream, 2 outbound slot, 3 inbound slot (R338). -/
def ownKey (kind idx : Nat) : Nat := kind * 65536 + idx

/-- The owner of a resource; `none` for one that is free or has no owner. Kinds 4 to 6 are pins,
generators and units. -/
def State.owner (s : State) (kind idx : Nat) : Option Nat :=
  match kind with
  | 4 => if s.bitAt (Reg.tioBridle idx) 19 then some (s.fld (Reg.tioBridle idx) 16 3) else none
  | 5 => if s.bitAt (Reg.tgStat idx) 19 then some (s.fld (Reg.tgStat idx) 16 3) else none
  | 6 => if s.bitAt (Reg.iuStat idx) 27 then some (s.fld (Reg.iuStat idx) 24 3) else none
  | _ => if kind = 0 ∧ (idx = 28 ∨ idx = 31) then none else some (Tab.get (fun _ => 0) s.owners (ownKey kind idx))

/-- The owner of a resource set. -/
def State.setOwner (s : State) (kind idx c : Nat) : State :=
  match kind with
  | 4 => (s.setFld (Reg.tioBridle idx) 16 3 c).setFld (Reg.tioBridle idx) 19 1 1
  | 5 => (s.setFld (Reg.tgStat idx) 16 3 c).setFld (Reg.tgStat idx) 19 1 1
  | 6 => (s.setFld (Reg.iuStat idx) 24 3 c).setFld (Reg.iuStat idx) 27 1 1
  | _ => { s with owners := Tab.set (fun _ => 0) s.owners (ownKey kind idx) c }

/-- Context `c` may act on the port: it owns it, or the port has no owner (R342). -/
def State.ownsPort (s : State) (c p : Nat) : Bool :=
  match s.owner 0 p with
  | none => true
  | some o => decide (o = c)

/-- The context holds the rein. -/
def State.holds (s : State) (c r : Nat) : Bool :=
  match s.rein r with
  | none => false
  | some x => decide (x.holder = c)

/-- The rein is held by the context or free (R341). -/
def State.freeFor (s : State) (c r : Nat) : Bool :=
  match s.rein r with
  | none => true
  | some x => decide (x.holder = c)

/-- The lease left in ms (R333, R345). -/
def State.leaseLeft (s : State) (r : Nat) : Nat :=
  match s.rein r with
  | none => 0
  | some x => (x.ends - s.uptime) / 1000000

/-- A command received from a holder renews the leases of all its reins (R343). -/
def State.renew (s : State) (c : Nat) : State :=
  { s with reins := s.reins.map fun x =>
      (x.1, match x.2 with
            | none => none
            | some v => some (if v.holder = c then { v with ends := s.uptime + v.lease * 1000000 } else v)) }

/-! Replies (R322 to R332). -/

/-- HCX_CQ_TAIL follows the replies placed in the CQ: at most one less than its entries (R322). -/
def State.syncTail (s : State) (c : Nat) : State :=
  if c < 4 then
    let n := s.fld (Reg.hcxCqSize c) 0 7
    let k := min (s.cx c).replies.length (n - 1)
    s.wr (Reg.hcxCqTail c) (w32 ((s.fld (Reg.hcxCqHead c) 0 6 + k) % n))
  else s

/-- A reply or deferred completion is queued, written to the CQ or handed to MGMT for a frame; the reply queue
going from empty to nonempty raises source 224 + c (R322, R328, R331, R347). Conventions: logs 4, 14, 29. -/
def State.reply (s : State) (c op tag status : Nat) (params : List Nat) (deferred : Bool) : State :=
  let x := s.cx c
  let r : Reply := { op := op + 0x8000, tag := tag, status := status, seq := x.repSeq % 2 ^ 32,
                     deferred := deferred, params := params, expert := if deferred then op.testBit 7 else x.cmdX }
  if c < 6 then
    let t := (s.onCx c fun y => { y with replies := y.replies ++ [r], repSeq := y.repSeq + 1 }).syncTail c
    if x.replies.isEmpty then t.raise (224 + c) else t
  else
    (s.onCx c fun y => { y with repSeq := y.repSeq + 1, out := y.out ++ [{ kind := 1, dst := y.lastSrc.getD y.rxSrc, reply := r }] }).raise
      (224 + c)

/-- The place for a reply: a CQ slot, or one of eight on SPI (R323, R325). Conventions: log 3. -/
def State.hasRoom (s : State) (c : Nat) : Bool :=
  if c < 4 then decide ((s.cx c).replies.length + 1 < s.fld (Reg.hcxCqSize c) 0 7)
  else if c < 6 then decide ((s.cx c).replies.length < 8)
  else true

/-- The deferred completion of an operation, sent where it is still pending (R332). -/
def State.complete (s : State) (op idx status : Nat) (params : List Nat) : State :=
  match s.deferred.find? fun d => decide (d.op = op) && decide (d.idx = idx) with
  | none => s
  | some d => ({ s with deferred := s.deferred.erase d } : State).reply d.ctx op d.tag status params true

/-! Status codes (R333). -/
namespace St
def ok : Nat := 0x0000
def accepted : Nat := 0x0001
def badCrc : Nat := 0x0101
def badLength : Nat := 0x0102
def unknownOpcode : Nat := 0x0103
def notOwner : Nat := 0x0201
def reinHeld : Nat := 0x0202
def reinOrder : Nat := 0x0203
def level : Nat := 0x0204
def role : Nat := 0x0205
def busy : Nat := 0x0301
def full : Nat := 0x0302
def exists_ : Nat := 0x0303
def notFound : Nat := 0x0304
def range : Nat := 0x0305
def state : Nat := 0x0306
def mismatch : Nat := 0x0307
def auth : Nat := 0x0401
def replay : Nat := 0x0402
end St

/-- Who may issue a command (R336). -/
inductive RoleNeed
  | any | oper | prin
deriving DecidableEq, Repr

/-- What checks 6 to 11 of R333 ask of a command: its role, the index of the first named resource
that does not exist, the resources (kind, index) the context must own, the reins, and the index of
the first field out of range. -/
structure Need where
  role  : RoleNeed := .oper
  gone  : Option Nat := none
  owned : List (Nat × Nat) := []
  order : Option Nat := none
  reins : List Nat := []
  bad   : Option Nat := none

/-- How a command that passed its checks ends: with a status of its own and no change, with OK, or
ACCEPTED with a deferred completion to come (R332, R333). -/
inductive CmdEnd
  | refuse (status : Nat) (params : List Nat)
  /-- A status of its own beside a report in the state. -/
  | refuseWith (status : Nat) (params : List Nat) (s : State)
  | done (params : List Nat) (s : State)
  | accepted (idx : Nat) (params : List Nat) (s : State)

/-- The number of a role as replies and HCX_ROLE give it (R346). -/
def Role.num : Role → Nat
  | .observer => 0
  | .operator => 1
  | .principal => 2

/-- The role admits the command (R336). -/
def Role.may : Role → RoleNeed → Bool
  | _, .any => true
  | .observer, _ => false
  | .operator, .oper => true
  | .operator, .prin => false
  | .principal, _ => true

/-- The first index whose test fails. Conventions: log 34. -/
def firstBad : List (Nat × Bool) → Option Nat
  | [] => none
  | (i, ok) :: t => if ok then firstBad t else some i

/-- Checks 5 to 11 of R333 in their order: the first that fails gives the status and its parameters.
The EXPERT flag must equal bit 7 of the opcode (R331). Conventions: log 32. -/
def State.check (s : State) (h : CmdHdr) (op : Nat) (n : Need) : Option (Nat × List Nat) :=
  let c := h.ctx
  let x : Bool := decide (op / 128 % 2 = 1)
  if (x && !(s.cx c).expert) || (h.expert != x) then some (St.level, [])
  else if !(s.role c).may n.role then some (St.role, [(s.role c).num])
  else match n.gone with
  | some i => some (St.range, [i])
  | none =>
    match n.owned.find? fun k => decide (s.owner k.1 k.2 ≠ some c) with
    | some k => some (St.notOwner, [k.1, k.2, (s.owner k.1 k.2).getD 0xFF])
    | none =>
      match n.order with
      | some r => some (St.reinOrder, [r])
      | none =>
        match n.reins.find? fun r => !s.freeFor c r with
        | some r => some (St.reinHeld, [r, ((s.rein r).map (·.holder)).getD 0xFF, s.leaseLeft r])
        | none => n.bad.map fun i => (St.range, [i])

/-- Reception of a command (R321, R343): a packet that waits in `held` was received before; the
command counts (R346). Conventions: log 3. -/
def State.receive (s : State) (h : CmdHdr) (op : Nat) : State :=
  let new := s.renew h.ctx |>.onCx h.ctx fun x => { x with cmdAt := s.raw, cmdX := h.expert }
  let t : State := match (s.cx h.ctx).held with
    | [] => new
    | k :: rest =>
      if k.op = op ∧ k.tag = h.tag then s.onCx h.ctx fun x => { x with held := rest, cmdAt := k.at_, cmdX := h.expert } else new
  (t.count (Reg.hcxCmdCount h.ctx) 242).perf 0x184

/-- The reply of a command that ended with OK: none where it has no parameters and ACKREQ is clear
(R331). Conventions: log 4. -/
def State.answerOk (s : State) (h : CmdHdr) (op : Nat) (ps : List Nat) : State :=
  if ps.isEmpty && !h.ackreq then s else s.reply h.ctx op h.tag St.ok ps false

/-- In recovery HC0 issues only SYS_GET and the update commands, and every other command is answered
STATE (R389). Conventions: log 12. -/
def recoveryAdmits (c op : Nat) : Bool :=
  decide (c = 0) && (decide (op = 0x0001) || decide (0x0801 ≤ op ∧ op ≤ 0x0805))

/-- A command executes (R320, R333): checks 5 to 11, then its own rules. It waits while the firmware
does not serve commands (R350) or its context has no place for a reply (R323, R325). Conventions: log 3. -/
def State.command (s : State) (h : CmdHdr) (op : Nat) (need : State → Need) (body : State → CmdEnd) : State :=
  if !s.fwOn || !s.hasRoom h.ctx then s else
  let r := s.receive h op
  match r.check h op (need r) with
  | some (st, ps) => r.reply h.ctx op h.tag st ps false
  | none =>
    if r.bitAt Reg.mgtStat 1 && !recoveryAdmits h.ctx op then r.reply h.ctx op h.tag St.state [] false
    else match body r with
    | .refuse st ps => r.reply h.ctx op h.tag st ps false
    | .refuseWith st ps t => t.reply h.ctx op h.tag st ps false
    | .done ps t => t.answerOk h op ps
    | .accepted idx ps t =>
      ({ t with deferred := t.deferred ++ [{ ctx := h.ctx, op := op, tag := h.tag, idx := idx }] } : State).reply
        h.ctx op h.tag St.accepted ps false

/-- A command of a context that exists. Conventions: log 5. -/
def State.cmd (s : State) (h : CmdHdr) (op : Nat) (need : State → Need) (body : State → CmdEnd) :
    Host.Outcome State Fault Refusal :=
  if h.ctx < 8 then .next (s.command h op need body) else .fault .noSuchUnit

/-- A change of the state where the unit exists. -/
def onUnit (n i : Nat) (t : State) : Host.Outcome State Fault Refusal :=
  if i < n then .next t else .fault .noSuchUnit

/-- A change of the state where a second unit exists; otherwise nothing: used inside `onUnit`. -/
def onUnitS (n i : Nat) (t s : State) : State := if i < n then t else s

/-- An event of the hardware: nothing happens unless the module runs. -/
def State.event (s : State) (f : State → State) : State := if s.live then f s else s

/-- Egress ports on which spill can be enabled (R127). -/
def spillPort (e : Nat) : Bool := decide (e < 24) || decide (e = 29) || decide (e = 30)

end Sys2Proof.Machine
end

