-- ==== Sys2Proof/Machine/TimeOps.lean ====
section
/-! DEFINITION. The time scale: offsets, the servo (R212), domain states (R216, R217), the switch (R224) and
the conversions of R215. -/

namespace Sys2Proof.Machine

/-- 2 * pi in units of 10^-15 (DEDUCED, log 15). -/
def twoPi : Int := 6283185307179586

/-- The loop's natural frequency w = min(2 pi 2^-b, 0.5 / Ts) as a fraction, Ts = tn / td (R212). Conventions: log 15. -/
def servoW (b tn td : Nat) : Int × Int :=
  if twoPi * 2 * tn ≤ 2 ^ b * 10 ^ 15 * td then (twoPi, 2 ^ b * 10 ^ 15) else ((td : Int), 2 * (tn : Int))

/-- ki * theta to the nearest unit of 2^-40, theta in 2^-32 ns (R212). Conventions: log 15. -/
def servoI (b tn td : Nat) (theta : Int) : Int :=
  let w := servoW b tn td
  roundDiv (w.1 * w.1 * tn * 2 ^ 40 * theta) (w.2 * w.2 * td * 2 ^ 32 * 10 ^ 9)

/-- kp * theta to the nearest unit of 2^-40 (R212). Conventions: log 15. -/
def servoP (b tn td : Nat) (theta : Int) : Int :=
  let w := servoW b tn td
  roundDiv (2 * w.1 * 2 ^ 40 * theta) (w.2 * 2 ^ 32 * 10 ^ 9)

/-- pull_max in units of 2^-40; 0 acts as 1 (R212, R236). -/
def pullMax (ppb : Nat) : Int := roundDiv (max 1 ppb * 2 ^ 40) (10 ^ 9)

/-- A value held to a range. -/
def clamp (lo hi v : Int) : Int := max lo (min hi v)

/-- Saturating at the range of rate_x (R209). -/
def satRate (v : Int) : Int := clamp (-2147483648) 2147483647 v

/-- 2^-32 ns to ps, nearest. -/
def toPs (t : Int) : Int := roundDiv (t * 1000) (2 ^ 32)

/-- A cause of R200: the module is to arm the bound generator, where the engine stands in WAIT, enabled, with a generator
bound, a P, and no hand of the host on the generator. -/
def State.armCause (s : State) : State :=
  if s.fld Reg.cycStat 0 2 = 1 ∧ s.bitAt Reg.cycCtrl 0 ∧ s.bitAt Reg.cycCtrl 8 ∧ s.rd Reg.cycPeriod ≠ 0 ∧ !s.cyc.handsOff then
    { s with cyc := { s.cyc with armDue := true } }
  else s

/-- Holdover set or cleared: sources 133, 134 (R237, R240). Entering it, rate_x takes f_x (R212). Conventions: log 54. -/
def State.setHold (s : State) (d : Nat) (on : Bool) : State :=
  if s.bitAt (Reg.tsuDom d) 2 = on then s
  else
    let t := (s.setFld (Reg.tsuDom d) 2 1 (b2n on)).raise (133 + d)
    if on then
      (t.onDm d fun x => { x.rebase (t.now * 256) x.freq with holdAt := t.uptime }).setFld (Reg.tsuGen d) 0 16 (t.fld (Reg.tsuGen d) 0 16 + 1)
    else t

/-- A domain's sticky bit and its source; the active domain's entry to LOCKED is a cause of R200. UNLOCKED ends a holdover
(R216, R237). Conventions: log 54. -/
def State.setDomState (s : State) (d n : Nat) : State :=
  if s.domState d = n then s
  else
    let t := ((s.setFld (Reg.tsuDom d) 0 2 n).stick (Reg.tsuDom d) 27).raise (128 + d)
    let t := if n = 0 then t.setHold d false else t
    let t := if n = 2 ∧ d = s.tim.active then t.armCause else t
    t.onDm d fun x => { x with inLock := 0, agree := if n = 0 then [] else x.agree, marks := if n = 0 then [] else x.marks }

/-- A field of TSU_DOM_x that stands for traceability changes: source 138 (R235, R237). Conventions: log 54. -/
def State.setTrace (s : State) (d : Nat) (tr fr ps : Bool) : State :=
  let t := ((s.setFld (Reg.tsuDom d) 3 1 (b2n tr)).setFld (Reg.tsuDom d) 4 1 (b2n fr)).setFld (Reg.tsuDom d) 5 1 (b2n ps)
  if s.rd (Reg.tsuDom d) = t.rd (Reg.tsuDom d) then t else t.raiseAt 138 0 d

/-- A rebase of domain `d` now (R210): gen counts it, and it is a performance event. -/
def State.rebase (s : State) (d : Nat) (rate : Int) : State :=
  ((s.onDm d fun x => x.rebase (s.now * 256) rate).setFld (Reg.tsuGen d) 0 16 (s.fld (Reg.tsuGen d) 0 16 + 1)).perf (0x138 + d)

/-- The single step on entry to FIRST_LOCK (R217), which is no rebase (R210): `up` is the upstream's time at raw time `r256`.
Conventions: log 17. -/
def State.firstLock (s : State) (d : Nat) (up : Int) (r256 : Nat) (rate : Int) : State :=
  let t := s.onDm d fun x =>
    { x with base := up, rawBase := r256, rate := satRate rate, freq := satRate rate, lockAt := s.now, stepAt := s.now,
             agree := [], marks := [], inLock := 0, hist := [{ base := up, rawBase := r256, rate := satRate rate }] }
  t.setDomState d 1

/-- Four offsets in a row agree within 100 ns (R217). -/
def agreeing (l : List Int) : Bool :=
  decide (4 ≤ l.length) && (l.take 4).all fun a => (l.take 4).all fun b => decide (a - b ≤ 100 * 2 ^ 32)

/-- The oven is ready (R268). -/
def State.ovenReady (s : State) : Bool := s.bitAt Reg.clkOven 0

/-- The measured frequency offset (R217): how much faster the upstream's time ran than the raw count between the first
and the last of the measurements held, in 2^-40. Conventions: log 55. -/
def slopeOf (l : List (Int × Nat)) : Int :=
  let n := l.headD (0, 0)
  let o := l.getLastD (0, 0)
  let dr : Int := ((n.2 : Int) - o.2) * 4 * 2 ^ 32
  if dr ≤ 0 then 0 else roundDiv (((n.1 - o.1) * 1280 - dr) * 2 ^ 40) dr

/-- One offset measurement of domain `d` against its upstream (R212, R216 to R218): `theta` in 2^-32 ns,
positive when the domain is ahead; `up` is the upstream's time at raw time `r256`; Ts = tn / td. Conventions: log 55. -/
def State.measure (s : State) (d : Nat) (theta up : Int) (r256 : Nat) (tn td : Nat) : State :=
  let s := s.wr (Reg.tsuOffset d) (sat32 (toPs theta))
  let x := s.dm d
  match s.domState d with
  | 0 =>
    let l := (theta :: x.agree).take 4
    let m := ((up, r256) :: x.marks).take 4
    let t := s.onDm d fun y => { y with agree := l, marks := m }
    if agreeing l && s.ovenReady then t.firstLock d up r256 (slopeOf m) else t
  | st =>
    let s := s.setHold d false
    let bw := min 10 (s.fld (Reg.tsuServo d) 0 4)
    let b := if st = 1 then bw - 2 else bw
    let f := satRate (x.freq - servoI b tn td theta)
    let m := pullMax (s.fld (Reg.tsuServo d) 8 16)
    let p := clamp (-m) m (servoP b tn td theta)
    let t := (s.onDm d fun y => { y with freq := f }).rebase d (f - p)
    let abs := theta.natAbs
    let near := decide (abs ≤ s.fld (Reg.tsuLockcfg d) 0 10 * 2 ^ 32)
    let n := if near then x.inLock + 1 else 0
    let t := t.onDm d fun y => { y with inLock := n }
    let t := if st = 1 ∧ 16 ≤ n then t.setDomState d 2 else t
    if st = 2 ∧ s.fld (Reg.tsuLockcfg d) 10 16 * 2 ^ 32 < abs ∧ !s.bitAt (Reg.tsuDom d) 25 then
      (t.stick (Reg.tsuDom d) 25).raiseAt 139 0 d
    else t

/-- The upstream of a domain is lost (R216, R240): FIRST_LOCK falls back, LOCKED holds over. Conventions: log 54. -/
def State.loseUpstream (s : State) (d : Nat) : State :=
  let t := (s.setFld (Reg.tsuDom d) 16 5 0x1F).setFld (Reg.tsuDom d) 21 3 0
  match s.domState d with
  | 0 => t.onDm d fun x => { x with agree := [], marks := [] }
  | 1 => t.setDomState d 0
  | _ => t.setHold d true

/-- The grandmaster identity a domain follows changes (R237, R240). -/
def State.setGmId (s : State) (d gm : Nat) : State :=
  let old := s.fld (Reg.tsuGmIdLo d) 0 32 + s.fld (Reg.tsuGmIdHi d) 0 32 * 2 ^ 32
  if old = gm then s
  else ((((s.wr (Reg.tsuGmIdLo d) (w32 gm)).wr (Reg.tsuGmIdHi d) (w32 (gm / 2 ^ 32))).stick (Reg.tsuDom d) 24).raise (136 + d))

/-- TSU_UTC_x from announced values (R235). -/
def State.setUtc (s : State) (d : Nat) (off : Int) (valid l61 l59 : Bool) : State :=
  s.wr (Reg.tsuUtc d) (w32 ((off % 65536).toNat + b2n valid * 65536 + b2n l61 * 131072 + b2n l59 * 262144))

/-- The module's EUI-64 from its serial number (R260): the construction is not given. -/
def State.eui (s : State) : Nat := (Config.eui s.serial).toNat

/-- The slew's step in one tick, in units of the bridge: s_ppb * 0.8 ns (R224, R236). Conventions: log 16. -/
def State.slewStep (s : State) : Int := 512 * (clamp 1 100000 (s.fld Reg.tsuSlewMax 0 17) : Int)

/-- A bridge after `n` ticks of a fall by `k` in each: it never passes 0 (R224). -/
def bridgeFall (b k : Int) (n : Nat) : Int := if 0 ≤ b then max 0 (b - k * n) else min 0 (b + k * n)

/-- The history of the bridge (R215) takes another step of the slew, from the tick before on. -/
def Tim.segsFor (t : Tim) (now dom : Nat) (k : Int) : List BridgeSeg :=
  match t.segs with
  | [] => []
  | g :: _ => if g.step = k then t.segs else { raw := now - 1, dom := dom, bridge := t.bridge, step := k } :: t.segs

/-- The slew has reached 0: slewing clears, with source 131 (R224). -/
def State.slewDone (s : State) : State :=
  (({ s with tim := { s.tim with slewing := false } } : State).stick Reg.tsuState 9).raise 131

/-- One tick of a slew (R224): |b| falls and never passes 0; at 0, source 131. Conventions: log 16. -/
def State.slewTick (s : State) : State :=
  if s.tim.slewing then
    let b' := bridgeFall s.tim.bridge s.slewStep 1
    let t : State := { s with tim := { s.tim with bridge := b', segs := s.tim.segsFor s.now s.tim.active s.slewStep } }
    if b' = 0 then t.slewDone else t
  else s

/-- The active domain and the bridge change at a switch, in one tick (R224); the bridge history starts afresh (R215). -/
def Tim.switch (t : Tim) (now d : Nat) (b step : Int) (slews : Bool) : Tim :=
  { t with onB := decide (d = 1), bridge := b, slewing := slews, armed := none,
           segs := [{ raw := now, dom := d, bridge := b, step := step }] }

/-- A domain's switch takes place at once (R224), or `none` where it is refused. Conventions: log 16. -/
def State.switchTo (s : State) (d : Nat) (force : Bool) : Option State :=
  if s.domState d ≠ 2 then none
  else
    let r := (s.now * 256 : Nat)
    if s.domState s.tim.active = 0 then
      let t : State := { s with tim := s.tim.switch s.now d 0 0 false }
      some ((t.stick Reg.tsuState 8).raise 130).armCause
    else
      let delta := (s.dm d).at r - s.outAt r
      if !force && decide (s.fld Reg.tsuSwitchLimit 0 32 * 2 ^ 32 < delta.natAbs) then none
      else
        let b := -(delta / 2 ^ 16) * 9765625
        let t : State := { s with tim := s.tim.switch s.now d b s.slewStep true }
        some ((t.stick Reg.tsuState 8).raise 130)

/-- Both deferred completions of a switch (R225): the one that is pending is sent. -/
def State.completeSwitch (s : State) (status : Nat) (ps : List Nat) : State :=
  (s.complete 0x0410 0 status ps).complete 0x0490 0 status ps

/-- An armed switch is cancelled with the reason of R225. -/
def State.cancelSwitch (s : State) (why : Nat) : State :=
  match s.tim.armed with
  | none => s
  | some _ => (({ s with tim := { s.tim with armed := none } } : State).completeSwitch St.state [why]).raise 141

/-- T_x at raw time `r` from the history (R215): the terms in force then, with the flag 0 exact, 1
approximate, 2 invalid. -/
def State.domAt (s : State) (d r : Nat) : Int × Nat :=
  let x := s.dm d
  if s.domState d = 0 ∨ r < x.stepAt then (0, 2)
  else match x.hist.find? fun h => decide (h.rawBase ≤ r * 256) with
    | some h => (({ x with base := h.base, rawBase := h.rawBase, rate := h.rate } : DomSt).at (r * 256), 0)
    | none => (x.at (r * 256), 1)

/-- The output time at raw time `r` (R215): the bridge as its history gives it, 0 where no switch has been; before the last
switch approximate, from the current terms. -/
def State.outputAt (s : State) (r : Nat) : Int × Nat :=
  match s.tim.segs.find? fun g => decide (g.raw ≤ r) with
  | some g =>
    let v := s.domAt g.dom r
    (v.1 + Int.tdiv (bridgeFall g.bridge g.step (r - g.raw)) 9765625 * 2 ^ 16, v.2)
  | none =>
    let v := s.domAt s.tim.active r
    if s.tim.segs.isEmpty then v else (v.1 + s.tim.b16 * 2 ^ 16, max v.2 1)

/-- Seconds, nanoseconds and fraction as reply fields. -/
def ptpFields (t : Int) : List Nat :=
  let p := ptpOf t
  [p.1, p.2.1, p.2.2]

/-- A target in network ticks converted to a raw time (R227): the raw time at which O reaches N, in
1/256 tick, by the active domain's terms and the bridge in force. -/
def State.rawOfTicks (s : State) (n : Int) : Int :=
  let x := s.dm s.tim.active
  let t : Int := n * 4 * 2 ^ 32 / 5 - s.tim.b16 * 2 ^ 16
  x.rawBase + (t - x.base) * 5 * 256 * 2 ^ 40 / (4 * 2 ^ 32 * (2 ^ 40 + x.rate))

/-- The ticks left to a target by the low 40 bits (R227): positive when it lies ahead. -/
def dueIn (target now : Nat) : Int :=
  let d : Nat := (target + 2 ^ 40 - now % 2 ^ 40) % 2 ^ 40
  if d < 2 ^ 39 then d else (d : Int) - 2 ^ 40

/-- The words TSU_GEN_x latches, from TSU_RATE_x to TSU_BASE_FRAC_x (R213). -/
def State.genWords (s : State) (d : Nat) : List Word :=
  let x := s.dm d
  let b := ptpOf x.base
  [sat32 x.rate, w32 (x.rawBase / 256), w32 (x.rawBase / 256 / 2 ^ 32), w32 b.1, w32 (b.1 / 2 ^ 32), w32 b.2.1, w32 b.2.2]

/-- The words a read of TSU_RAW_LO latches: raw high, seconds, ns, fraction and flags (R213). -/
def State.snapWords (s : State) : List Word :=
  let t := s.netTime
  [w32 (s.now / 2 ^ 32), w32 t.1, w32 (t.1 / 2 ^ 32), w32 t.2.1, w32 t.2.2, w32 s.snapFlags]

/-- TSU_BRIDGE, 64 bits (R223). -/
def State.bridgeWord (s : State) : Nat := (BitVec.ofInt 64 s.tim.b16).toNat

/-! Stamps (R207, R249 to R251), in units of 1/64 ps: 51,200 to a tick. Conventions: log 46. -/

/-- A beat of a native port (R250). -/
def State.beatU (s : State) (p : Nat) : Int := if (s.pt p).mode = .native25 then 81920 else 204800

/-- The transmit phase of a port's group (R250): a step of the vernier is 0.390625 ps. -/
def State.phaseU (s : State) (p : Nat) : Int := 25 * (Tab.get (fun _ => 0) s.clk.phase (groupOf p) : Nat)

/-- The latest transmit beat boundary at or before an instant (R250). -/
def State.beatBefore (s : State) (p : Nat) (t : Int) : Int := t - (t - s.phaseU p) % s.beatU p

/-- The transmit beat boundary nearest to an instant: the one the coarse path means, known exactly (R250). -/
def State.beatNear (s : State) (p : Nat) (t : Int) : Int :=
  let a := s.beatBefore p t
  if 2 * (t - a) ≤ s.beatU p then a else a + s.beatU p

/-- A serialiser instant in 1/256 tick at the reference plane (R20, R251): M ports are stamped at the pad (R230).
Conventions: log 46. -/
def State.txPlane (s : State) (p at_ : Nat) : Int :=
  let t : Int := at_ * 200
  if 24 ≤ p then t
  else (if s.native p then s.beatNear p t else t) + 4 * ((s.rd (Reg.ttTxdly p)).toNat : Int)

/-- A received beat boundary (R250): the latest transmit boundary before the coarse instant and the fitted phase; where the
phase lies within 100 ps of 0 or of a beat and the coarse instant puts it at the other end, the phase decides. -/
def State.rxBoundary (s : State) (p : Nat) (r : RxStamp) : Int :=
  let t : Int := r.at_ * 200
  let b := s.beatU p
  let a := s.beatBefore p t
  let f : Int := (r.phase : Int) % b
  if f < 6400 ∧ b < 2 * (t - a) then a + b + f
  else if b - 6400 < f ∧ 2 * (t - a) < b then a - b + f
  else a + f

/-- A deserialiser instant at the reference plane (R251); without a valid fit a native stamp is whole ticks (R249).
Conventions: log 46. -/
def State.rxPlane (s : State) (p : Nat) (r : RxStamp) : Int :=
  let d : Int := 4 * ((s.rd (Reg.ttRxdly p)).toNat : Int)
  if 24 ≤ p then r.at_ * 200
  else if !s.native p then r.at_ * 200 - d
  else if s.bitAt (Reg.ttStat p) 0 then s.rxBoundary p r - d
  else (r.at_ * 200 - d) / 51200 * 51200

/-- A stamp in 1/256 tick, 3.125 ps (R207), and in 2^-16 tick (R242). -/
def stamp256 (u : Int) : Nat := (roundDiv u 200).toNat
def stampFine (u : Int) : Int := roundDiv (u * 32) 25

/-- PORT_TT_PHASE shows the phase of the last timing point (R263). -/
def State.notePhase (s : State) (p : Nat) (r : RxStamp) : State :=
  if s.native p && s.bitAt (Reg.ttStat p) 0 then s.wr (Reg.ttPhase p) (w32 (((r.phase : Int) % s.beatU p).toNat / 4)) else s

/-- TSU_STATE as read (R236). -/
def State.tsuStateWord (s : State) : Word :=
  putFld (s.rd Reg.tsuState) 0 6
    (s.domState s.tim.active + s.tim.active * 4 + b2n s.tim.slewing * 8 + b2n s.tim.armed.isSome * 16
      + s.fld (Reg.tsuDom s.tim.active) 2 1 * 32)

end Sys2Proof.Machine
end

