-- ==== Sys2Proof/Machine/LinkTime.lean ====
section
/-! DEFINITION. Time transfer on a link: participation, the exchange, the link equations (R241 to R255), and
the choice of upstream and grandmaster (R257 to R260). -/

namespace Sys2Proof.Machine

/-- A word of the last valid halter received (R56). -/
def State.halterWord (s : State) (p i : Nat) : Nat := s.fld (Reg.portHalterRx p (i / 2)) (16 * (i % 2)) 16

/-- A KX-32's capability bits, masked by PORT_CAP_ADV (R53). -/
def State.caps (s : State) (p : Nat) : Nat := Nat.land 0x7F (s.fld (Reg.portCapAdv p) 0 8)

/-- Both ends of a link advertise a capability (R53, R54). -/
def State.bothCan (s : State) (p i : Nat) : Bool := (s.halterWord p 9).testBit i && (s.caps p).testBit i

/-- A native port takes part in time transfer (R241). -/
def State.takesPart (s : State) (p : Nat) : Bool :=
  s.native p && (s.pt p).up && s.bitAt (Reg.portHalterStat p) 0 && !s.bitAt (Reg.portHalterStat p) 5
    && !s.bitAt (Reg.portHalterStat p) 6 && s.bitAt (Reg.ttCtrl p) 0

/-- The port's messages carry valid fine parts (R249): the fit is valid, and the module has the vernier (bit 6 of caps, R53,
R266). Conventions: log 58. -/
def State.fineOn (s : State) (p : Nat) : Bool := s.bitAt (Reg.ttStat p) 0 && (s.caps p).testBit 6

/-- The port carries domain `d` (R241): its mismatch bit is clear, and for domain B both ends have tandem domains (bit 4 of
caps, R54). Conventions: log 58. -/
def State.carries (s : State) (p d : Nat) : Bool := s.takesPart p && (decide (d = 0) || s.bothCan p 4) && !s.bitAt (Reg.portHalterStat p) (3 + d)

/-- The port is the upstream of domain `d` (R263). -/
def State.isUp (s : State) (p d : Nat) : Bool :=
  decide (s.fld (Reg.tsuDom d) 16 5 = p) && decide (s.fld (Reg.tsuDom d) 21 3 = 1)

/-- REQs run at 16 a second (R241). -/
def State.fastReq (s : State) (p : Nat) : Bool := s.isUp p 0 || s.isUp p 1 || s.bitAt (Reg.ttCtrl p) 1

/-- The interval between REQs in ticks (R241). -/
def State.reqEvery (s : State) (p : Nat) : Nat := if s.fastReq p then 78125000 else 1250000000

/-- T_x at a raw time in 2^-16 tick, in 2^-32 ns (R209). -/
def DomSt.atFine (d : DomSt) (r : Int) : Int :=
  d.base + (r - d.rawBase * 256) * 4 * 2 ^ 32 * (2 ^ 40 + d.rate) / (5 * 65536 * 2 ^ 40)

/-- A time in 2^-32 ns as ticks and 2^-16 tick (R243). -/
def respDom (valid : Bool) (t : Int) : RespDom :=
  let u := (t * 5 / (4 * 65536)).toNat
  { valid := valid, n := if valid then u / 65536 else 0, f := if valid then u % 65536 else 0 }

/-- The module is the domain's grandmaster (R258). -/
def State.gmSelf (s : State) (d : Nat) : Bool := s.bitAt (Reg.tsuDom d) 6

/-- Histories of a port clear (R263), and with them the registers that show them. Conventions: log 55. -/
def State.clearHist (s : State) (p : Nat) : State :=
  let t := s.onPtm p fun x => { x with rts := [], rejects := 0, pairs := [], thA := [], thB := [], waiting := false }
  (((((t.wr (Reg.ttTheta p 0) 0x80000000).wr (Reg.ttTheta p 1) 0x80000000).wr (Reg.ttTavg p 0) 0x80000000).wr
    (Reg.ttTavg p 1) 0x80000000).wr (Reg.ttRtd p) 0).wr (Reg.ttNrr p) 0

/-- 2^-32 ns as signed 1/16 ps, saturating (R263). -/
def to16ps (t : Int) : Word := sat32 (roundDiv (t * 16000) (2 ^ 32))

/-- The sum of a list. -/
def sumInt (l : List Int) : Int := l.foldl (· + ·) 0

/-- The mean of a list, 0 for none. -/
def mean (l : List Int) : Int := if l.isEmpty then 0 else roundDiv (sumInt l) l.length

/-- The median; of an even number of values, the mean of the two middle ones (R246). -/
def median (l : List Int) : Int :=
  let m := l.mergeSort (fun a b => decide (a ≤ b))
  let n := m.length
  if n % 2 = 1 then m.getD (n / 2) 0 else (m.getD (n / 2 - 1) 0 + m.getD (n / 2) 0) / 2

/-- d_in of R254 in 2^-32 ns, from the round trip in 2^-32 ns. -/
def State.dIn (s : State) (p : Nat) (ns : Int) : Int :=
  let a := (s.rd (Reg.ttAlpha p)).toInt
  let dl := (s.rd (Reg.ttAsym p)).toInt * 2 ^ 32 / 16000
  (if p < 8 then ns * (2 ^ 32 + a) / (2 * 2 ^ 32 + a) else if p < 16 then ns * 2 ^ 32 / (2 * 2 ^ 32 + a) else ns / 2) + dl

/-- The offset of one domain from an accepted exchange (R255): the registers follow, and the upstream's
offset drives the servo. -/
def State.offset (s : State) (p d : Nat) (r : RespDom) (t4 din : Int) : State :=
  if !r.valid || !s.carries p d then s
  else
    let x := s.dm d
    let up : Int := ((r.n : Int) * 65536 + r.f) * 4 * 65536 / 5
    let dl := din * (2 ^ 40 + x.rate) / 2 ^ 40
    let theta := x.atFine t4 - up - dl
    let v := (to16ps theta).toInt
    let s := s.wr (Reg.ttTheta p d) (to16ps theta)
    let s := s.onPtm p fun y => if d = 0 then { y with thA := (v :: y.thA).take 1024 } else { y with thB := (v :: y.thB).take 1024 }
    let h := if d = 0 then (s.ptm p).thA else (s.ptm p).thB
    let s := if h.length = 1024 then s.wr (Reg.ttTavg p d) (sat32 (mean h)) else s
    if s.isUp p d && !s.gmSelf d then s.measure d theta (up + dl - t4 % 256 * (4 * 65536) / 5) (t4 / 256).toNat 1 16 else s

/-- An exchange accepted under R245, from REQ to offsets (R246, R253 to R255). -/
def State.exchange (s : State) (p : Nat) (m : RespMsg) (t4 : Int) : State :=
  let x := s.ptm p
  -- without fine_valid the partner's fine parts say nothing (R243, R266)
  let t2 : Int := m.t2.toNat * 65536 + (if m.fine then m.t2f else 0 : Nat)
  let t3 : Int := m.t3.toNat * 65536 + (if m.fine then m.t3f else 0 : Nat)
  let pairs := ((t3, t4) :: x.pairs).take 17
  let o := pairs.getLastD (t3, t4)
  let up := t3 - o.1
  let dn := t4 - o.2
  let held : Bool := decide (1 < pairs.length) && decide (0 < up) && decide (0 < dn)
  let rt := if held then (t4 - x.t1) - (t3 - t2) * dn / up else (t4 - x.t1) - (t3 - t2)
  let freq := if held then (up - dn) * 2 ^ 40 / dn else 0
  let s := ((s.onPtm p fun y => { y with waiting := false, exchAt := some s.now, pairs := pairs }).count (Reg.ttRespOk p) (64 + p)).perf
    (0x120 + p)
  let out : Bool := !x.rts.isEmpty && decide (81920 < (rt - median x.rts).natAbs)
  let s := if out then s.count (Reg.ttReject p) (64 + p) else s
  if out && decide (x.rejects + 1 < 4) then s.onPtm p fun y => { y with rejects := y.rejects + 1 }
  else
    let rts := if out then [rt] else (rt :: x.rts).take 16
    let s := s.onPtm p fun y => { y with rts := rts, rejects := 0 }
    let s := if out then (s.stick (Reg.ttStat p) 9).raiseAt (64 + p) ((s.stick (Reg.ttStat p) 9).rd (Reg.ttStat p)) p else s
    let din := s.dIn p (rt * 4 * 65536 / 5)
    let s := s.wr (Reg.ttRtd p) (to16ps (mean rts * 4 * 65536 / 5))
    let s := (s.wr (Reg.ttDin p) (to16ps din)).wr (Reg.ttNrr p) (sat32 freq)
    (s.offset p 0 m.a t4 din).offset p 1 m.b t4 din

/-! The words of TIME messages (R243, R247); the CRC-32C of R51 follows them. -/

/-- A 64-bit value as four words, the lowest first. -/
def words64 (n : Nat) : List Nat := (List.range 4).map fun i => n / 65536 ^ i % 65536

/-- The value four words from place `i` on give. -/
def word64 (ws : List Nat) (i : Nat) : Nat := (List.range 4).foldl (fun a k => a + ws.getD (i + k) 0 * 65536 ^ k) 0

/-- A stamp in 2^-16 tick as five words: ticks and fine part. -/
def stampWords (t : Int) : List Nat := words64 (t.toNat / 65536) ++ [t.toNat % 65536]

/-- Words of a TIME message of a kind are in order (R51, R243): 0 REQ, 1 RESP, 2 INFO. -/
def timeOk (kind : Nat) (ws : List Nat) : Bool :=
  msgOk ws && decide (ws.getD 0 0 / 8192 % 4 = kind) && decide ((if kind = 1 then 24 else 14) ≤ ws.length)

/-- REQ (R243). -/
def reqWords (seq : Nat) (fine : Bool) (t1 : Int) : List Nat :=
  [0x010E, seq % 256 + b2n fine * 256] ++ stampWords t1 ++ [0, 0, 0, 0, 0]

/-- RESP (R243). -/
def respWords (m : RespMsg) : List Nat :=
  [0x2118, m.echo % 256 + b2n m.fine * 256 + b2n m.a.valid * 512 + b2n m.b.valid * 1024]
    ++ words64 m.t2.toNat ++ [m.t2f % 65536] ++ words64 m.t3.toNat ++ [m.t3f % 65536]
    ++ words64 m.a.n ++ [m.a.f % 65536] ++ words64 m.b.n ++ [m.b.f % 65536]

/-- The RESP that words give (R243). -/
def respOf (ws : List Nat) : RespMsg :=
  let w := ws.getD 1 0
  { echo := w % 256, fine := w.testBit 8, t2 := BitVec.ofNat 64 (word64 ws 2), t2f := ws.getD 6 0,
    t3 := BitVec.ofNat 64 (word64 ws 7), t3f := ws.getD 11 0,
    a := { valid := w.testBit 9, n := word64 ws 12, f := ws.getD 16 0 }, b := { valid := w.testBit 10, n := word64 ws 17, f := ws.getD 21 0 } }

/-- INFO (R247). -/
def infoWords (m : InfoMsg) : List Nat :=
  [0x410E, m.domNum % 256 + m.which % 2 * 256] ++ words64 m.gmId
    ++ [m.prio1 % 256 + m.prio2 % 256 * 256, m.cls % 256 + m.accuracy % 256 * 256,
        m.steps % 256 + b2n m.traceable * 256 + b2n m.freqTraceable * 512 + b2n m.ptpTimescale * 1024 + b2n m.holdover * 2048
          + b2n m.locked * 4096 + b2n m.utcValid * 8192 + b2n m.leap61 * 16384 + b2n m.leap59 * 32768,
        (m.utcOffset % 65536).toNat, 0, 0]

/-- The INFO that words give (R247). -/
def infoMsgOf (ws : List Nat) : InfoMsg :=
  let w := fun i => ws.getD i 0
  { domNum := w 1 % 256, which := w 1 / 256 % 2, gmId := word64 ws 2, prio1 := w 6 % 256, prio2 := w 6 / 256, cls := w 7 % 256,
    accuracy := w 7 / 256, steps := w 8 % 256, traceable := (w 8).testBit 8, freqTraceable := (w 8).testBit 9,
    ptpTimescale := (w 8).testBit 10, holdover := (w 8).testBit 11, locked := (w 8).testBit 12, utcValid := (w 8).testBit 13,
    leap61 := (w 8).testBit 14, leap59 := (w 8).testBit 15, utcOffset := (BitVec.ofNat 16 (w 9)).toInt }

/-! Upstream and grandmaster. -/

/-- The held INFO of a domain (R247). -/
def PortTime.info (x : PortTime) (d : Nat) : Option (InfoMsg × Nat) := if d = 0 then x.infoA else x.infoB

/-- A native port is eligible as the upstream of a domain (R257). -/
def State.eligible (s : State) (p d : Nat) : Bool :=
  s.carries p d
    && (match (s.ptm p).exchAt with
        | none => false
        | some t => decide (s.now < t + 1250000000))
    && (match (s.ptm p).info d with
        | none => false
        | some (m, t) => decide (s.now < t + 3750000000) && m.locked && !m.holdover && decide (m.steps ≤ 63))
    && decide (s.halterWord p 10 / 2 ^ (4 + d) % 2 = 0) && !s.bitAt (Reg.ttCtrl p) 2

/-- A PTP port is eligible for a domain on its Announce, with stepsRemoved for steps; no_upstream bars it as well (R257,
R263). -/
def State.eligiblePtp (s : State) (p d : Nat) : Bool :=
  let x := s.ptm p
  (s.pt p).up && decide (1 ≤ x.profile ∧ x.profile ≤ 3) && decide (x.flags / 2 ^ d % 2 = 1) && decide (x.flags / 64 % 4 ≠ 1)
    && (match x.announce with
        | none => false
        | some (m, _) => decide (m.domain = s.fld (Reg.tsuDom d) 8 8) && decide (m.info.steps ≤ 63))
    && !(decide (p < 24) && s.bitAt (Reg.ttCtrl p) 2)

/-- The tuple of R258 for a port's candidacy. -/
def infoTuple (m : InfoMsg) (node port : Nat) : List Nat :=
  [m.prio1, m.cls, m.accuracy, m.prio2, m.gmId, m.steps, node, port]

/-- Lower wins, field by field (R258). -/
def lexLt : List Nat → List Nat → Bool
  | a :: s, b :: t => decide (a < b) || (decide (a = b) && lexLt s t)
  | _, _ => false

/-- The candidates of a domain (R258): the module's own first (port 31 stands for it), then ports. -/
def State.candidates (s : State) (d : Nat) : List (Nat × List Nat) :=
  let g := (s.dm d).gm
  (if g.flags % 2 = 1 then [(31, [g.prio1, g.cls, g.accuracy, g.prio2, s.eui, 0, 0, 0])] else [])
    ++ (List.range 28).filterMap fun p =>
      if s.native p then
        if s.eligible p d then ((s.ptm p).info d).map fun m => (p, infoTuple m.1 (s.halterWord p 1 % 2 ^ 14) p) else none
      else if s.eligiblePtp p d then (s.ptm p).announce.map fun m => (p, infoTuple m.1.info 0xFFFF p)
      else none

/-- The winner: the first of the least. -/
def best : List (Nat × List Nat) → Option (Nat × List Nat)
  | [] => none
  | c :: t =>
    match best t with
    | none => some c
    | some b => if lexLt b.2 c.2 then some b else some c

/-- The attributes of a domain follow its grandmaster's INFO or Announce (R235, R247). -/
def State.follow (s : State) (d : Nat) (m : InfoMsg) : State :=
  let t := s.setGmId d m.gmId
  let t := t.wr (Reg.tsuGmQ d) (w32 (m.cls % 256 + m.accuracy % 256 * 256 + min 255 m.steps * 65536))
  let t := t.onDm d fun x => { x with prio1 := m.prio1, prio2 := m.prio2 }
  (t.setTrace d m.traceable m.freqTraceable m.ptpTimescale).setUtc d m.utcOffset m.utcValid m.leap61 m.leap59

/-- The module becomes the domain's grandmaster (R258, R260): attributes as given; UNLOCKED, it makes its
single step once the oven is ready. Without pps_align nothing steers the domain, and it counts as
LOCKED at once. Conventions: log 17. -/
def State.beGm (s : State) (d : Nat) : State :=
  let g := (s.dm d).gm
  let f := g.flags
  let t := ((s.setFld (Reg.tsuDom d) 16 5 0x1F).setFld (Reg.tsuDom d) 21 3 3).setFld (Reg.tsuDom d) 6 1 1
  let t := (t.setHold d false).wr (Reg.tsuOffset d) 0
  let t := t.follow d
    { gmId := s.eui, prio1 := g.prio1, prio2 := g.prio2, cls := g.cls, accuracy := g.accuracy, steps := 0,
      traceable := f.testBit 1, freqTraceable := f.testBit 2, ptpTimescale := f.testBit 3 && g.init.isSome,
      utcValid := f.testBit 5, leap61 := f.testBit 6, leap59 := f.testBit 7, utcOffset := g.utc }
  if t.domState d = 0 ∧ t.ovenReady then
    let i := g.init.getD (0, 0)
    let u := t.firstLock d (((i.1 : Int) * 1000000000 + i.2) * 2 ^ 32) (t.now * 256) 0
    if f.testBit 4 then u else u.setDomState d 2
  else t

/-- A port becomes the domain's upstream (R258, R259). -/
def State.beUp (s : State) (d p : Nat) : State :=
  let t := ((s.setFld (Reg.tsuDom d) 16 5 p).setFld (Reg.tsuDom d) 21 3 (if s.native p then 1 else 2)).setFld (Reg.tsuDom d) 6 1 0
  let m := if s.native p then ((s.ptm p).info d).map (·.1) else (s.ptm p).announce.map fun a => a.1.info
  match m with
  | none => t
  | some i => t.follow d { i with steps := i.steps + 1 }

/-- The winner takes its place (R258). -/
def State.choose (s : State) (d : Nat) (w : Nat) : State :=
  let t := s.onDm d fun x => { x with rival := none }
  if w = 31 then t.beGm d else t.beUp d w

/-- What the domain follows now: 31 for the module itself, none for no upstream. -/
def State.following (s : State) (d : Nat) : Option Nat :=
  if s.gmSelf d then some 31 else if s.fld (Reg.tsuDom d) 21 3 = 0 then none else some (s.fld (Reg.tsuDom d) 16 5)

/-- The INFO the module sends for a domain (R247). -/
def State.infoOf (s : State) (d : Nat) : InfoMsg :=
  let w := s.rd (Reg.tsuDom d)
  let u := s.rd (Reg.tsuUtc d)
  let q := s.rd (Reg.tsuGmQ d)
  { domNum := getFld w 8 8, which := d,
    gmId := s.fld (Reg.tsuGmIdLo d) 0 32 + s.fld (Reg.tsuGmIdHi d) 0 32 * 2 ^ 32,
    prio1 := (s.dm d).prio1, prio2 := (s.dm d).prio2, cls := getFld q 0 8, accuracy := getFld q 8 8, steps := getFld q 16 8,
    traceable := bit w 3, freqTraceable := bit w 4, ptpTimescale := bit w 5, holdover := bit w 2,
    locked := decide (getFld w 0 2 = 2) || bit w 6, utcValid := bit u 16, leap61 := bit u 17, leap59 := bit u 18,
    utcOffset := (BitVec.ofNat 16 (getFld u 0 16)).toInt }

/-- PORT_TT_STAT as read (R263): exch_ok, up_a, up_b and fast_run follow what they report. Conventions: log 55. -/
def State.ttWord (s : State) (p : Nat) : Word :=
  let ok : Bool := match (s.ptm p).exchAt with
    | none => false
    | some r => decide (s.now < r + 1250000000)
  putFld (s.rd (Reg.ttStat p)) 2 4 (b2n ok + b2n (decide (s.following 0 = some p)) * 2 + b2n (decide (s.following 1 = some p)) * 4
    + b2n (s.takesPart p && s.fastReq p) * 8)

/-- A port stops being able to serve as upstream: the domains that follow it lose it (R259). -/
def State.dropUpstream (s : State) (p : Nat) : State :=
  [0, 1].foldl (fun t d => if t.following d = some p then t.loseUpstream d else t) s

/-- What a port that leaves UP, or changes its mode, loses of its time transfer (R263, R266). Conventions: log 55. -/
def State.stopTime (s : State) (p : Nat) : State :=
  let t := (s.clearHist p).onPtm p fun x => { x with infoA := none, infoB := none }
  (t.setFld (Reg.ttStat p) 0 1 0).dropUpstream p

end Sys2Proof.Machine
end

