-- ==== Sys2Proof/Machine/Buffer.lean ====
section
/-! DEFINITION. The packet buffer: frames as bytes (R86 to R99), cells and admission (R113 to R120), spill and ageing
(R127 to R131), and what becomes of a copy at its egress. -/

namespace Sys2Proof.Machine

/-! Frames as bytes. -/

/-- The frame carries a VLAN tag (R142) (PRESUMED, log 25). -/
def tagged (b : List Byte) : Bool := decide (beNat (slice b 12 2) = 0x8100)

/-- The EtherType behind a tag. -/
def etherOf (b : List Byte) : Nat := if tagged b then beNat (slice b 16 2) else beNat (slice b 12 2)

/-- The destination and source addresses. -/
def dstOf (b : List Byte) : Nat := beNat (slice b 0 6)
def srcOf (b : List Byte) : Nat := beNat (slice b 6 6)

/-- The frame without its last four bytes. -/
def bodyOf (b : List Byte) : List Byte := b.take (b.length - 4)

/-- A body with its FCS (R97). -/
def withFcs (b : List Byte) : List Byte := b ++ leBytes 4 (crc32 b).toNat

/-- The FCS of a frame, as the number its bytes give. -/
def fcsOf (b : List Byte) : BitVec 32 := BitVec.ofNat 32 (leNat (b.drop (b.length - 4)))

/-- An edited body with its FCS (R97, R98): what the edit changes in the CRC-32 is added to the FCS the frame came with, so
that it is good exactly where that one was. -/
def refcs (old body : List Byte) : List Byte :=
  body ++ leBytes 4 (fcsOf old ^^^ (crc32 (bodyOf old) ^^^ crc32 body)).toNat

/-- A field of a frame replaced at `at_`, with the linear correction of R98: the FCS changes by the CRC of the difference,
advanced over the bytes behind the field. -/
def patchField (b : List Byte) (at_ : Nat) (new : List Byte) : List Byte :=
  let old := slice b at_ new.length
  let after := b.length - 4 - at_ - new.length
  (bodyOf b).take at_ ++ new ++ (bodyOf b).drop (at_ + new.length)
    ++ leBytes 4 (fcsOf b ^^^ crcShift (crcRaw (List.zipWith (fun x y => x ^^^ y) old new)) after).toNat

/-- The FCS is good; it is the complement of a good one (R95). -/
def fcsGood (b : List Byte) : Bool := decide (leNat (b.drop (b.length - 4)) = (crc32 (bodyOf b)).toNat)
def fcsStomped (b : List Byte) : Bool := decide (leNat (b.drop (b.length - 4)) = (~~~crc32 (bodyOf b)).toNat)

/-- A group address. -/
def isGroup (mac : Nat) : Bool := decide (mac / 2 ^ 40 % 2 = 1)

/-- The address lies in 01-80-C2-00-00-00 to 01-80-C2-00-00-0F (R91, R147). -/
def linkLocal (mac : Nat) : Bool := decide (0x0180C2000000 ≤ mac) && decide (mac ≤ 0x0180C200000F)

/-- The type of a good frame (R91): 0 UCAST, 1 MCAST, 2 BCAST, 3 CTRL. -/
def typeOf (b : List Byte) : Nat :=
  if linkLocal (dstOf b) || decide (etherOf b = 0x8808) then 3
  else if dstOf b = 2 ^ 48 - 1 then 2
  else if isGroup (dstOf b) then 1 else 0

/-- The place of a length among the size counters from 64 up (R102). -/
def sizeClass (n : Nat) : Nat :=
  if n ≤ 64 then 0 else if n ≤ 127 then 1 else if n ≤ 255 then 2 else if n ≤ 511 then 3 else if n ≤ 1023 then 4
  else if n ≤ 1518 then 5 else 6

/-- The TX size and type counters of a frame that ended well (R103), and its performance event (R372). -/
def State.countTx (s : State) (p : Nat) (b : List Byte) : State :=
  (((s.countP (Reg.tx64 p + 4 * sizeClass b.length) p).countP (Reg.txUcast p + 4 * typeOf b) p)).perf (0x20 + p)

/-- PORT_MAXFRM of a port. -/
def State.maxfrm (s : State) (p : Nat) : Nat := s.fld (Reg.portMaxfrm p) 0 14

/-- The RX size counter of a frame (R103), and its performance event. -/
def State.countRx (s : State) (p n max : Nat) : State :=
  (s.countP (if n < 64 then Reg.rxRunt p else if max < n then Reg.rxOversize p else Reg.rx64 p + 4 * sizeClass n) p).perf p

/-- The RX type counter of a good frame (R91). -/
def State.countRxType (s : State) (p : Nat) (b : List Byte) : State := s.countP (Reg.rxUcast p + 4 * typeOf b) p

/-- A suspended frame is ended as bad by the line (R47, R96): RX_ABORT, and the size counter of the bytes received of it.
Conventions: log 20. -/
def State.suspendedLost (s : State) (p : Nat) : State :=
  ((s.countRx p (s.pt p).rx.bytes (s.maxfrm p)).countP (Reg.rxAbort p) p).onPt p fun y => { y with rxSusp := false }

/-- The bytes that leave (R143, R97): the tag goes or comes, a short untagged frame is padded to 64 bytes, and the
FCS follows the edit (R98). -/
def outBytes (f : Frm) (untag : Bool) : List Byte :=
  let b := bodyOf f.bytes
  if f.plain then f.bytes
  else if tagged f.bytes then
    if untag then
      let c := b.take 12 ++ b.drop 16
      refcs f.bytes (c ++ List.replicate (60 - c.length) 0)
    else if beNat (slice b 14 2) % 4096 = f.vid then f.bytes
    else patchField f.bytes 14 (beBytes 2 (beNat (slice b 14 2) / 4096 * 4096 + f.vid))
  else if untag then f.bytes
  else refcs f.bytes (b.take 12 ++ beBytes 2 0x8100 ++ beBytes 2 (f.pcp * 8192 + f.vid) ++ b.drop 12)

/-! Transparent-clock edits (R231 to R233). -/

/-- Where the PTP header starts, and whether its UDP checksum field stands anywhere (R232): the offset of the
header and that of the UDP checksum, 0 for none. -/
def ptpAt (b : List Byte) : Option (Nat × Nat) :=
  let o := if tagged b then 18 else 14
  let et := etherOf b
  let port := fun (u : Nat) => let d := beNat (slice b (u + 2) 2); decide (d = 319 ∨ d = 320)
  if et = 0x88F7 then some (o, 0)
  else if et = 0x0800 ∧ (b.getD (o + 9) 0).toNat = 17 then
    let u := o + (b.getD o 0).toNat % 16 * 4
    if port u then some (u + 8, u + 6) else none
  else if et = 0x86DD ∧ (b.getD (o + 6) 0).toNat = 17 then
    if port (o + 40) then some (o + 48, o + 46) else none
  else none

/-- An updated one's-complement checksum (R99): 16-bit words old and new of the field that changed. -/
def rfc1624 (hc : Nat) (old new : List Nat) : Nat :=
  let add := fun (a b : Nat) => (a + b) % 65536 + (a + b) / 65536
  let c := List.foldl (fun a (x : Nat × Nat) => add (add a (65535 - x.1)) x.2) (65535 - hc) (List.zip old new)
  let r := 65535 - c
  if r = 0 then 0xFFFF else r

/-- 16-bit words in network order. -/
def words16 : List Byte → List Nat
  | a :: b :: t => (a.toNat * 256 + b.toNat) :: words16 t
  | _ => []

/-- A port's flag of TIME_PORT_SET. Conventions: log 53. -/
def State.tcEn (s : State) (p : Nat) : Bool := (s.ptm p).flags.testBit 3

/-- A field of a PTP message replaced, with its UDP checksum where `ck` gives its place and it is in use (R98, R99). -/
def patchPtp (b : List Byte) (ck at_ : Nat) (new : List Byte) : List Byte :=
  let c := patchField b at_ new
  let hc := beNat (slice c ck 2)
  if ck = 0 ∨ (hc = 0 ∧ etherOf b = 0x0800) then c
  else patchField c ck (beBytes 2 (rfc1624 hc (words16 (slice b at_ new.length)) (words16 new)))

/-- A correctionField, signed 2^-16 ns, and one as its bytes. -/
def corrAt (b : List Byte) (h : Nat) : Int := (BitVec.ofNat 64 (beNat (slice b (h + 8) 8))).toInt
def corrBytes (v : Int) : List Byte := beBytes 8 (BitVec.ofInt 64 v).toNat

/-- A time in 2^-32 ns as a PTP timestamp, truncated to ns, and the fraction it drops in 2^-16 ns (R231). -/
def ptpStamp (t : Int) : List Byte := beBytes 6 (ptpOf t).1 ++ beBytes 4 (ptpOf t).2.1
def ptpFrac (t : Int) : Int := ((ptpOf t).2.2 : Nat)

/-- The residence of a frame in 2^-16 ns, in the domain its number names (R231). -/
def State.residence (s : State) (num : Nat) (i e : Int) : Int :=
  let rate := if s.fld (Reg.tsuDom 0) 8 8 = num then (s.dm 0).rate else if s.fld (Reg.tsuDom 1) 8 8 = num then (s.dm 1).rate else 0
  (e - i) * 4 * 65536 * (2 ^ 40 + rate) / (5 * 256 * 2 ^ 40)

/-- A departing frame's correctionField gains its residence (R231); TSU_TC_DONE or TSU_TC_SKIP counts. -/
def State.tcEdit (s : State) (f : Frm) (e : Nat) (b : List Byte) (ts : Nat) : List Byte × State :=
  if f.plain || !(s.tcEn f.ingress && (s.tcEn e || decide (24 ≤ e))) then (b, s)
  else match ptpAt b with
  | none =>
    -- a class-6 frame whose PTP header is not found in a form of R232
    (b, if etherOf b = 0x88F7 ∨ f.cls = 6 ∧ etherOf b ≠ 0x88B5 then s.count Reg.tsuTcSkip 143 else s)
  | some (h, ck) =>
    let ty := (b.getD h 0).toNat % 16
    if 4 ≤ ty then (b, s)
    else
      let num := (b.getD (h + 4) 0).toNat
      let old := corrAt b h
      let extra : Int := if ty = 0 ∧ (s.ptm f.ingress).profile = 2 then (s.ptm f.ingress).mpd / 65536 else 0
      let new := old + s.residence num (f.ts.toNat * 256 + f.sub.toNat) ts + extra
      if (b.getD (h + 6) 0).getLsbD 1 || decide (24 ≤ e) || decide (2 ^ 63 ≤ new) || decide (new < -2 ^ 63) then
        (b, s.count Reg.tsuTcSkip 143)
      else
        (patchPtp b ck (h + 8) (corrBytes new), (s.count Reg.tsuTcDone 143).perf 0x13A)

/-- A PTP message of the module's own leaves (R231): one-step, its times are written into it and TSU_ONESTEP_TX counts;
two-step, its departure waits for the follow-up; a request's departure is kept. Conventions: log 53. -/
def State.ptpDepart (s : State) (f : Frm) (e : Nat) (b : List Byte) (ts : Nat) : List Byte × State :=
  let p := (ptpAt b).getD (0, 0)
  let h := p.1
  let two : Bool := (b.getD (h + 6) 0).getLsbD 1
  match f.job with
  | .none => s.tcEdit f e b ts
  | .sync d q =>
    let t := (s.dm d).at ts
    if two then (b, s.onPtm e fun x => { x with fuSync := x.fuSync ++ [(d, q, ts)] })
    else (patchPtp (patchPtp b p.2 (h + 34) (ptpStamp t)) p.2 (h + 8) (corrBytes (corrAt b h + ptpFrac t)), s.count Reg.tsuOnestepTx 143)
  | .request q => (b, s.onPtm e fun x => { x with delayTx := some (q, ts) })
  | .pdResp m =>
    if two then (b, s.onPtm e fun x => { x with fuPd := x.fuPd ++ [(m, ts)] })
    else (patchPtp b p.2 (h + 8) (corrBytes (corrAt b h + s.residence m.domain m.stamp ts)), s.count Reg.tsuOnestepTx 143)

/-! Cells and the shared pool (R113 to R120). -/

/-- The switch state changed. -/
def State.onSw (s : State) (f : Sw → Sw) : State := { s with sw := f s.sw }

/-- Cells of a frame (R113). -/
def cellsOf (n : Nat) : Nat := (n + 127) / 128

/-- Headroom in force (R133). Conventions: log 24. -/
def State.headroom (s : State) : Nat := min 16384 (max 2304 (s.fld Reg.swcHeadroom 0 15))

/-- Unused pool cells (R117, R118). Conventions: log 24. -/
def State.poolFree (s : State) : Nat := 131072 - s.headroom - s.sw.floors - s.sw.quar - s.sw.poolUsed

/-- SWC_POOL_STAT as read (R133). -/
def State.poolWord (s : State) : Word := w32 (s.poolFree + min 16383 s.sw.quar * 2 ^ 18)

/-- Source 96, once per crossing of SWC_POOL_LOW (R140). Conventions: log 24. -/
def State.poolMark (s : State) : State :=
  let low : Bool := decide (s.poolFree < s.fld Reg.swcPoolLow 0 18)
  let t := s.onSw fun x => { x with low := low }
  t.raiseIf (low && !s.sw.low) 96

/-- Cells taken from the pool, then from the headroom (R119). Conventions: log 24. -/
def State.takeCells (s : State) (n : Nat) : State :=
  let p := min n s.poolFree
  (s.onSw fun x => { x with poolUsed := x.poolUsed + p, headUsed := x.headUsed + (n - p) }).poolMark

/-- Cells freed; the headroom is refilled first (R119). Conventions: log 24. -/
def State.freeCells (s : State) (n : Nat) : State :=
  let h := min n s.sw.headUsed
  (s.onSw fun x => { x with headUsed := x.headUsed - h, poolUsed := x.poolUsed - (n - h) }).poolMark

/-- A write of SWC_POOL_LOW (R133): where free lies is told against the new value, and no fall is reported.
Conventions: log 24. -/
def State.writePoolLow (s : State) (v : Word) : State :=
  let t := s.wr Reg.swcPoolLow v
  t.onSw fun x => { x with low := decide (t.poolFree < t.fld Reg.swcPoolLow 0 18) }

/-- A frame of the buffer. -/
def Sw.frame (x : Sw) (id : Nat) : Option Frm := Tab.get (fun _ => none) x.frames id

/-- A frame of the buffer set or removed. -/
def State.setFrame (s : State) (id : Nat) (f : Option Frm) : State :=
  s.onSw fun x => { x with frames := Tab.set (fun _ => none) x.frames id f }

/-! Host rings (R105 to R110). -/

/-- The switch port of a PCIe context (R11, R105). -/
def hostPort (c : Nat) : Nat := if c < 2 then 29 else 30

/-- The posted descriptors of ring 0 to 3 (RX 0, RX 1, TX 0, TX 1). -/
def Ctx.posted (x : Ctx) : Nat → List Desc
  | 0 => x.posted0
  | 1 => x.posted1
  | 2 => x.posted2
  | _ => x.posted3

/-- The posted descriptors set. -/
def Ctx.setPosted (x : Ctx) (r : Nat) (l : List Desc) : Ctx :=
  match r with
  | 0 => { x with posted0 := l }
  | 1 => { x with posted1 := l }
  | 2 => { x with posted2 := l }
  | _ => { x with posted3 := l }

/-- Entries of a ring. -/
def State.ringSizeOf (s : State) (c r : Nat) : Nat := s.fld (Reg.ringSize c r) 0 13

/-- Head advances past `k` descriptors. -/
def State.advance (s : State) (c r k : Nat) : State :=
  ((s.setFld (Reg.ringHead c r) 0 12 ((s.fld (Reg.ringHead c r) 0 12 + k) % max 1 (s.ringSizeOf c r)))).onCx c fun x =>
    x.setPosted r ((x.posted r).drop k)

/-- An MSI-X message of a ring (R106). -/
def State.ringMsg (s : State) (c r : Nat) : State :=
  if s.bitAt (Reg.ringCtrl c r) 2 then s.onCx c fun x => { x with msix := s.fld (Reg.ringCtrl c r) 8 5 :: x.msix } else s

/-- The frames of a TX ring to be written back, and a new list of them. -/
def Ctx.wb (x : Ctx) (r : Nat) : List TxWb := if r = 2 then x.tx0 else x.tx1
def Ctx.setWb (x : Ctx) (r : Nat) (l : List TxWb) : Ctx := if r = 2 then { x with tx0 := l } else { x with tx1 := l }

/-- A place in a ring `k` behind another. -/
def State.ringPlace (s : State) (c r h k : Nat) : Nat := (h + k) % max 1 (s.ringSizeOf c r)

/-- Bytes 16 to 31 of a TX descriptor as written back (R109). -/
def txBack (st : Nat) (stamp : Option (Raw × Byte)) : List Byte :=
  leBytes 8 ((stamp.map (·.1.toNat)).getD 0) ++ [(stamp.map (·.2)).getD 0, 0] ++ leBytes 2 st ++ [0, 0, 0, 0x80]

/-- Every descriptor of a TX frame is written back, in ring order (R109). -/
def State.putTxBack (s : State) (c r h k st : Nat) (stamp : Option (Raw × Byte)) : State :=
  (List.range k).foldl (fun t j => t.onCx c fun x =>
    { x with ringOut := { ring := r, index := s.ringPlace c r h j, back := txBack st stamp } :: x.ringOut }) s

/-- Write-backs in ring order as far as their status is known (R110); the first argument bounds them. -/
def State.flushWb : Nat → State → Nat → Nat → State
  | 0, s, _, _ => s
  | fuel + 1, s, c, r =>
    match (s.cx c).wb r with
    | [] => s
    | w :: rest =>
      match w.status with
      | none => s
      | some st =>
        let stamp := if st = 0 then w.left.map fun u => (BitVec.ofNat 64 (u / 256), BitVec.ofNat 8 u) else none
        let t := (s.onCx c fun x => x.setWb r rest).putTxBack c r w.head w.count st stamp
        let t := if st = 6 then t.count (Reg.ringDrop c r) (64 + hostPort c) else t
        State.flushWb fuel (t.ringMsg c r) c r

/-- All that can be written back on a TX ring is. -/
def State.flushAll (s : State) (c r : Nat) : State := State.flushWb (((s.cx c).wb r).length + 1) s c r

/-- The awaited frame at a descriptor takes a status, or the time of its first bit (R109). -/
def State.txStatus (s : State) (key at_ : Nat) (st : Option Nat) (left : Option Nat) : State :=
  s.onCx (key / 2) fun x =>
    x.setWb (2 + key % 2) ((x.wb (2 + key % 2)).map fun w => if w.head = at_ ∧ w.status = none then { w with status := st, left := left.or w.left } else w)

/-- A frame with ts_req that goes before it left is DROPPED (R109). -/
def State.txGone (s : State) (f : Frm) : State :=
  match f.tsReq with
  | none => s
  | some (key, h) =>
    if ((s.cx (key / 2)).wb (2 + key % 2)).any fun w => decide (w.head = h) && w.status.isNone && w.left.isNone then
      (s.txStatus key h (some 6) none).flushAll (key / 2) (2 + key % 2)
    else s

/-- A holder of a frame's cells lets go; with the last, the cells are free (R120). -/
def State.release (s : State) (id : Nat) : State :=
  match s.sw.frame id with
  | none => s
  | some f =>
    if 1 < f.refs then s.setFrame id (some { f with refs := f.refs - 1 })
    else ((s.setFrame id none).freeCells f.pool).txGone f

/-- A virtual output queue, and one changed (R117). -/
def Sw.vq (x : Sw) (k : Nat) : List Copy := Tab.get (fun _ => []) x.voq k
def State.setVq (s : State) (k : Nat) (l : List Copy) : State :=
  s.onSw fun x => { x with voq := Tab.set (fun _ => []) x.voq k l }

/-- The key of the virtual output queue of an egress, a class and an ingress. -/
def vqKey (e c i : Nat) : Nat := (8 * e + c) * 32 + i

/-- The egress and the queue of a key. -/
def vqEgress (k : Nat) : Nat := k / 256
def vqQueue (k : Nat) : Nat := k / 32

/-- A queue's occupancy, floor and DRAM segment. -/
def State.occ (s : State) (q : Nat) : Nat := s.fld (Reg.swcQocc q) 0 18
def State.floorOf (s : State) (q : Nat) : Nat := s.fld (Reg.swcQcfg q) 0 12
def Sw.seg (x : Sw) (q : Nat) : List Rec := Tab.get (fun _ => []) x.dram q
def State.setSeg (s : State) (q : Nat) (l : List Rec) : State :=
  s.onSw fun x => { x with dram := Tab.set (fun _ => []) x.dram q l }

/-- A queue's occupancy raised, and lowered. -/
def State.addOcc (s : State) (q n : Nat) : State := s.setFld (Reg.swcQocc q) 0 18 (s.occ q + n)
def State.subOcc (s : State) (q n : Nat) : State := s.setFld (Reg.swcQocc q) 0 18 (s.occ q - n)

/-- A queue counter counts one (R134). -/
def State.countQ (s : State) (a : Nat) : State := s.count a 107

/-- SWC_LAST_DROP takes a drop (R133). -/
def State.lastDrop (s : State) (q cause : Nat) : State := s.wr Reg.swcLastDrop (w32 (q / 8 + q % 8 * 32 + cause * 256))

/-- Bytes of a record in DRAM (R129). -/
def recBytes (n : Nat) : Nat := 64 + (n + 63) / 64 * 64

/-- The 64-byte header of a record (R129); `multi` for a multicast copy. Conventions: log 57. -/
def recHeader (f : Frm) (untag multi : Bool) : List Byte :=
  let h := leBytes 2 f.bytes.length ++ [BitVec.ofNat 8 (f.ingress + f.cls * 32), BitVec.ofNat 8 (b2n multi)] ++ leBytes 8 f.ts.toNat
    ++ [f.sub, 0, 0, 0] ++ leBytes 32 (Config.editCode untag f.plain f.vid f.pcp) ++ List.replicate 12 0
  h ++ leBytes 4 (crc32c h).toNat

/-- A header as it is read passes its CRC-32C (R129, R140). -/
def headerOk (h : List Byte) : Bool :=
  decide (h.length = 64) && decide (leNat (h.drop 60) = (crc32c (h.take 60)).toNat)

/-- Blocks a segment holds (R129). -/
def State.segBlocks (s : State) (q : Nat) : Nat :=
  let l := s.sw.seg q
  if l.isEmpty then 0
  else (Tab.get (fun _ => 0) s.sw.dramAt q + (l.map fun r => recBytes r.frm.bytes.length).foldl (· + ·) 0 + 65535) / 65536

/-- Free overflow blocks (R129, R133). -/
def State.freeBlocks (s : State) : Nat :=
  49152 - s.sw.quarBlk - (s.sw.dram.map fun x => s.segBlocks x.1).foldl (· + ·) 0

/-- SWC_DRAM_STAT as read (R133); ready is stored. -/
def State.dramWord (s : State) : Word := putFld (s.rd Reg.swcDramStat) 0 16 s.freeBlocks

/-- What becomes of a copy at its queue (R118, R127, R128). -/
inductive Fate
  | sram
  | spill
  /-- Refused, with SWC_LAST_DROP.cause. -/
  | refuse (cause : Nat)
deriving DecidableEq, Repr

/-- R118: one cell fits. Conventions: log 24. -/
def State.fits (s : State) (q : Nat) : Bool :=
  let occ := s.occ q
  let fl := s.floorOf q
  let al := min 9 (s.fld (Reg.swcQcfg q) 12 4)
  decide (occ < fl) || (decide (q % 8 < 7) && decide ((occ - fl + 1) * 64 ≤ s.poolFree * 2 ^ al))

/-- A spill is due (R127). -/
def State.spillDue (s : State) (q : Nat) : Bool :=
  decide (q % 8 < 6) && s.bitAt (Reg.swcQcfg q) 28
    && (!(s.sw.seg q).isEmpty || decide (s.fld (Reg.swcQcfg q) 16 12 * 16 ≤ s.occ q))

/-- The overflow region is full (R140). -/
def State.regionFull (s : State) : Bool := decide (s.freeBlocks = 0)

/-- A spill is refused (R128). -/
def State.spillRefused (s : State) (q : Nat) : Bool :=
  decide (s.fld Reg.swcSpillStage 0 15 - 72 < s.sw.staging) || decide (min 49152 (s.fld (Reg.swcQdramCfg q) 0 16) ≤ s.segBlocks q)
    || s.regionFull || !s.bitAt Reg.swcDramStat 16

/-- The fate of a copy (R118, R128). -/
def State.fate (s : State) (q : Nat) : Fate :=
  if s.spillDue q then
    if !s.spillRefused q then .spill
    else if (s.sw.seg q).isEmpty && s.fits q then .sram
    else .refuse 1
  else if s.fits q then .sram
  else .refuse (if q % 8 = 7 then 2 else 0)

/-- A refused copy is counted and reported (R118, R120, R128); `multi` for a frame with other destinations. -/
def State.refused (s : State) (q cause : Nat) (multi : Bool) : State :=
  let e := q / 8
  let t := ((s.countQ (Reg.swcQdrop q)).lastDrop q cause)
  let t := if multi && decide (e < 28) then (t.countP (Reg.mcastPartial e) e) else t
  t.raiseIf multi 105

/-- The sources of an admission decision: a refused spill 100, with a full region 101, a refusal under R118 97. -/
def State.fateSources (s : State) (q : Nat) (f : Fate) : State :=
  let spillNo : Bool := s.spillDue q && s.spillRefused q
  let t := (s.raiseIf spillNo 100).raiseIf (spillNo && s.regionFull) 101
  match f with
  | .refuse _ => t.raiseIf (!spillNo || (s.sw.seg q).isEmpty) 97
  | _ => t

/-- How far a copy raises its queue's excess (R118). Conventions: log 24. -/
def State.excessBy (s : State) (q n : Nat) : Nat := (s.occ q + n - s.floorOf q) - (s.occ q - s.floorOf q)

/-- The cells a frame takes from the shared pool (R119, R120): each after the first, and the first where no queue that admits
it has room in its floor. A class-7 frame takes those beyond its floor (R125). Conventions: log 24. -/
def State.poolNeed (s : State) (cls n : Nat) (ram : List Nat) : Nat :=
  if cls = 7 then (ram.map fun q => s.excessBy q n).foldl max 0
  else n - 1 + (if ram.any fun q => decide (s.occ q < s.floorOf q) then 0 else 1)

/-- A frame goes to queues: each decides on its copy, the cells are taken once (R118 to R120, R127).
Conventions: log 24. -/
def State.enqueue (s : State) (f : Frm) (dests : List (Nat × Bool)) (multi : Bool) : State :=
  let n := cellsOf f.bytes.length
  let qs := dests.map fun d => (8 * d.1 + f.cls, d.2, s.fate (8 * d.1 + f.cls))
  let ram := qs.filter fun x => x.2.2 == .sram
  let spl := qs.filter fun x => x.2.2 == .spill
  let need := if spl.isEmpty then s.poolNeed f.cls n (ram.map (·.1)) else n
  let id := s.sw.nextId
  let t := qs.foldl (fun u x => u.fateSources x.1 x.2.2) s
  let t := qs.foldl (fun u x => match x.2.2 with
    | .refuse c => u.refused x.1 c multi
    | _ => u) t
  if ram.isEmpty && spl.isEmpty then t
  else
    let t := t.takeCells need
    let g : Frm := { f with refs := ram.length + spl.length, pool := need }
    let t := (t.setFrame id (some g)).onSw fun x => { x with nextId := id + 1, staging := x.staging + (if spl.isEmpty then 0 else n) }
    let t := ram.foldl (fun u x =>
      let k := x.1 * 32 + f.ingress
      (u.setVq k (u.sw.vq k ++ [{ id := id, sent := 0, dram := false, untag := x.2.1 }])).addOcc x.1 n) t
    let t := spl.foldl (fun u x =>
      (u.setSeg x.1 (u.sw.seg x.1 ++ [{ frm := g, untag := x.2.1, id := id, written := false, hdr := recHeader g x.2.1 multi }])).onSw fun y =>
        { y with stagedQ := y.stagedQ ++ [x.1] }) t
    (List.range n).foldl (fun u _ => u.perf (0x40 + f.ingress)) t

/-- A frame that MGMT builds (R103, R116): class 6, counted as port 28 puts it into the switch, for one egress;
`vid` is its VLAN where it may be tagged, none where it leaves as it is. Conventions: log 29. -/
def State.mgtSend (s : State) (e : Nat) (vid : Option Nat) (untag : Bool) (job : PtpJob) (b : List Byte) : State :=
  ((s.countRx 28 b.length 9216).countRxType 28 b).enqueue
    { bytes := b, ingress := 28, cls := 6, ts := s.raw, sub := 0, vid := vid.getD 0, pcp := Config.mgtPcp.toNat, plain := vid.isNone,
      sample := 0, big := false, deadline := 0, tsReq := none, refs := 0, pool := 0, job := job } [(e, untag)] false

/-! Leaving a queue. -/

/-- A copy of queue `q` is gone: its occupancy and its hold on the frame. -/
def State.dropCopy (s : State) (q : Nat) (c : Copy) : State :=
  match s.sw.frame c.id with
  | none => s
  | some f => (s.subOcc q (cellsOf f.bytes.length)).release c.id

/-- The age limit of a copy in ticks (R131). -/
def State.ageLimit (s : State) (f : Frm) (dram : Bool) : Nat :=
  if f.cls = 7 then f.deadline
  else
    let us := if f.cls = 6 then s.fld Reg.swcAgeC6 0 20 else if dram then s.fld Reg.swcAgeDram 0 20 else s.fld Reg.swcAgeSram 0 20
    max 1 us * 1250

/-- The copy's age exceeds its limit (R131). -/
def State.expired (s : State) (c : Copy) : Bool :=
  match s.sw.frame c.id with
  | none => false
  | some f => decide (s.ageLimit f c.dram < s.now - f.ts.toNat)

/-- A copy discarded for its age (R131). -/
def State.agedOut (s : State) (q : Nat) (c : Copy) : State := ((s.dropCopy q c).countQ (Reg.swcQaged q)).raise 98

/-- An output stage, and one set (R121). -/
def Sw.stageOf (x : Sw) (e : Nat) : List Staged := Tab.get (fun _ => []) x.stage e
def State.setStage (s : State) (e : Nat) (l : List Staged) : State :=
  s.onSw fun x => { x with stage := Tab.set (fun _ => []) x.stage e l }

/-- The copy on a port's line, and one set. -/
def Sw.lineOf (x : Sw) (e : Nat) : Option Staged := Tab.get (fun _ => none) x.line e
def State.setLineCopy (s : State) (e : Nat) (c : Option Staged) : State :=
  s.onSw fun x => { x with line := Tab.set (fun _ => none) x.line e c }

/-- The part-sent copy of an egress (R122). -/
def Sw.openOf (x : Sw) (e : Nat) : Option Nat := Tab.get (fun _ => none) x.openAt e
def State.setOpen (s : State) (e : Nat) (k : Option Nat) : State :=
  s.onSw fun x => { x with openAt := Tab.set (fun _ => none) x.openAt e k }

/-! The transmitted beats (R40 to R46, R50). Conventions: log 56. -/

/-- What a burst leaves of a port's stream. Conventions: log 56. -/
def State.putLine (s : State) (p : Nat) (r : List Beat × LineTx × Nat) : State :=
  s.onPt p fun y => { y with tx := r.2.1.put r.1, txMark := r.2.2 }

/-- Beats of a port's line in `n` ticks. -/
def State.beatsIn (s : State) (p n : Nat) : Nat := if (s.pt p).mode = .native25 then n * 5 / 8 else n / 4

/-- A dozing transmitter wakes (R50): its position ran on, and 64 TRAIN beats go ahead. Conventions: log 56. -/
def State.wakeTx (s : State) (p : Nat) : State :=
  if s.bitAt (Reg.portLineStat p) 5 then
    let x := s.pt p
    let tx := { x.tx with pos := (x.tx.pos + s.beatsIn p (s.now - x.dozeAt)) % 1024 }
    (s.setFld (Reg.portLineStat p) 5 1 0).putLine p (LineTx.train 64 tx x.txMark)
  else s

/-- Beats leave a native port; a crumb stands among them after `limit` beats without one (R43). Conventions: log 56. -/
def State.emit (s : State) (p : Nat) (limit : Option Nat) (bs : List Beat) : State :=
  if s.native p then
    let t := s.wakeTx p
    t.putLine p (LineTx.weave limit true (t.pt p).tx (t.pt p).txMark bs)
  else s

/-- Beats after which a crumb stands inside a frame: inside a class-7 frame only the crumb that can wait no longer (R31,
R43). Conventions: log 56. -/
def crumbLimit (cls : Nat) : Option Nat := some (if cls = 7 then 4028 else 2048)

/-- The preemption on a port's line ends with RESUME (R46). -/
def State.resumeTx (s : State) (p : Nat) : State :=
  if (s.pt p).txSusp then (s.emit p none [resumeBeat]).onPt p fun y => { y with txSusp := false } else s

/-- The beats of a frame (R30, R40): `out` bytes of it stand on the line already, `none` while its SOF does not. -/
def frameRest (b : List Byte) (out : Option Nat) (cls hint ending : Nat) : List Beat :=
  (if out.isNone then [sofBeat cls hint] else []) ++ dataBeats (b.drop (out.getD 0))
    ++ [if ending = 0 then eofBeat (validBytes b.length) else abortBeat (ending - 16)]

/-- The hint a class-7 frame leaves with: that of its own stream entry (R40). -/
def Frm.hint (f : Frm) : Nat := if f.cls = 7 then f.stream + 1 else 0

/-- What the port sent last (R94, R97), and its beats. -/
def State.sent (s : State) (e : Nat) (b : List Byte) (ending ts : Nat) (out : Option Nat) (cls hint : Nat) : State :=
  let t := if cls = 7 then s else s.resumeTx e
  (t.emit e (crumbLimit cls) (frameRest b out cls hint ending)).onSw fun x =>
    { x with sent := Tab.set (fun _ => {}) x.sent e { bytes := b, ending := ending, ts := ts, cls := cls, hint := hint } }

/-- A staged or line copy leaves its place: a part-sent one is also the head of its virtual output queue. -/
def State.unqueue (s : State) (c : Staged) : State :=
  let e := vqEgress c.key
  if s.sw.openOf e = some c.key then
    (s.setVq c.key ((s.sw.vq c.key).filter fun x => decide (x.id ≠ c.copy.id))).setOpen e none
  else s

/-- Bytes that end in the complement of the CRC-32 over them (R95). -/
def stompAll (b : List Byte) : List Byte := b ++ leBytes 4 (~~~crc32 b).toNat

/-- The copy on a port's line ends early (R38, R42): on a native line RESUME where a preemption is open, then ABORT with its
reason; elsewhere what was sent gets a stomped FCS (R95). -/
def State.cutLine (s : State) (e reason : Nat) : State :=
  match s.sw.lineOf e with
  | none => s.resumeTx e
  | some c =>
    let b := match s.sw.frame c.copy.id with
      | none => []
      | some f => outBytes f c.copy.untag
    let gone := (bodyOf b).take (128 * c.copy.sent)
    ((((s.unqueue c).setLineCopy e none).dropCopy (vqQueue c.key) c.copy).countP (Reg.txAbort e) e).sent e
      (if s.native e then b.take c.out else stompAll gone) (if s.native e then 16 + reason else 1) c.ts (some c.out)
      (vqQueue c.key % 8) 0

/-- A port stops sending (R38, R139): the copy on its line is ended with ABORT 0x5 or a stomp, and those in its output
stage are discarded. -/
def State.purgeEgress (s : State) (e : Nat) : State :=
  let t := s.cutLine e 5
  (t.sw.stageOf e).foldl
    (fun u c => ((u.unqueue c).dropCopy (vqQueue c.key) c.copy).countQ (Reg.swcQdrop (vqQueue c.key)))
    ((t.setStage e []).onSw fun x => { x with mtx := Tab.set (fun _ => {}) x.mtx e {} })

/-- A ring's queue, and one set. -/
def Sw.ring (x : Sw) (k : Nat) : List Copy := Tab.get (fun _ => []) x.ringQ k
def State.setRing (s : State) (k : Nat) (l : List Copy) : State :=
  s.onSw fun x => { x with ringQ := Tab.set (fun _ => []) x.ringQ k l }

/-- The copies of a host port's queue that wait at its contexts' rings are discarded and counted (R108, R140). -/
def State.flushHeld (s : State) (q : Nat) : State :=
  (List.range 8).foldl (fun t k =>
    if hostPort (k / 2) = q / 8 then
      let mine := fun (c : Copy) => match t.sw.frame c.id with
        | none => false
        | some f => decide (f.cls = q % 8)
      ((t.sw.ring k).filter mine).foldl (fun u c => (u.dropCopy q c).countQ (Reg.swcQdrop q))
        (t.setRing k ((t.sw.ring k).filter fun c => !mine c))
    else t) s

/-- Every copy a queue holds in SRAM is discarded and counted (R139, R140, R160); a copy on the line stays.
Conventions: log 31. -/
def State.flushQueue (s : State) (q : Nat) : State :=
  let e := q / 8
  let st := (s.sw.stageOf e).filter fun c => decide (vqQueue c.key = q)
  let t := s.setStage e ((s.sw.stageOf e).filter fun c => decide (vqQueue c.key ≠ q))
  let t := st.foldl (fun u c => ((u.unqueue c).dropCopy q c.copy).countQ (Reg.swcQdrop q)) t
  (List.range 32).foldl (fun u i =>
    let k := q * 32 + i
    let busy := match u.sw.lineOf e with
      | some c => if u.sw.openOf e = some k then some c.copy.id else none
      | none => none
    let l := (u.sw.vq k).filter fun c => decide (some c.id ≠ busy)
    l.foldl (fun v c => (v.dropCopy q c).countQ (Reg.swcQdrop q))
      (u.setVq k ((u.sw.vq k).filter fun c => decide (some c.id = busy)))) (t.flushHeld q)

/-- A record is staged no more (R129): the staged frame is let go, and where the record was written the frame lives on
in DRAM. -/
def State.unstage (s : State) (q : Nat) (r : Rec) (written : Bool) : State :=
  let n := cellsOf r.frm.bytes.length
  let s := if written then s.setFrame r.id ((s.sw.frame r.id).map fun f => { f with tsReq := none }) else s
  let t := s.onSw fun x => { x with stagedQ := x.stagedQ.erase q }
  let more : Bool := t.sw.dram.any fun d => d.2.any fun x => decide (x.id = r.id) && !x.written
  let t := if more then t else t.onSw fun x => { x with staging := x.staging - n }
  t.release r.id

/-- A queue's DRAM segment is discarded, its records counted (R139, R140). Conventions: log 31. -/
def State.flushSeg (s : State) (q : Nat) : State :=
  let l := s.sw.seg q
  let t := (s.setSeg q []).onSw fun x => { x with dramAt := Tab.set (fun _ => 0) x.dramAt q 0 }
  l.foldl (fun u r => (if r.written then u.txGone r.frm else u.unstage q r false).countQ (Reg.swcQdrop q)) t

/-- A queue disabled through PORT_PHY_CTRL.enable discards all it holds (R139). -/
def State.flushEgress (s : State) (e : Nat) : State :=
  (List.range 8).foldl (fun t c => (t.flushQueue (8 * e + c)).flushSeg (8 * e + c)) s

/-- Nothing is queued for a port (R48). -/
def State.egressIdle (s : State) (e : Nat) : Bool :=
  !(s.sw.voq.any fun x => decide (vqEgress x.1 = e)) && (s.sw.stageOf e).isEmpty && (s.sw.lineOf e).isNone
    && !(s.sw.dram.any fun x => decide (x.1 / 8 = e))

/-! Receive rings (R105 to R108). -/

/-- A descriptor's buffer length is in order (R107). Conventions: log 28. -/
def rxLenOk (d : Desc) : Bool := decide (d.len % 64 = 0) && decide (64 ≤ d.len) && decide (d.len ≤ 16384)

/-- The capacity of a descriptor: one with a wrong length holds no frame (R107). -/
def rxRoom (d : Desc) : Nat := if rxLenOk d then d.len else 0

/-- Buffers of the posted list that hold a frame of `n` bytes: how many, if enough. -/
def buffersFor : List Desc → Nat → Option Nat
  | [], n => if n = 0 then some 0 else none
  | d :: t, n => if n = 0 then some 0 else (buffersFor t (n - rxRoom d)).map (· + 1)

/-- Bytes 10 to 31 of an RX descriptor as written back (R107). -/
def rxBack (data frm portCls flags ts sub : Nat) : List Byte :=
  leBytes 2 data ++ leBytes 2 frm ++ [BitVec.ofNat 8 portCls, BitVec.ofNat 8 flags] ++ leBytes 8 ts
    ++ [BitVec.ofNat 8 sub, 0, 0, 0, 0, 0, 0, 0x80]

/-- An RX descriptor is written back at its place, after the data of its buffer (R107, R108). -/
def State.putRxBack (s : State) (c r j : Nat) (d : Desc) (back data : List Byte) : State :=
  s.onCx c fun x =>
    { x with ringOut := { ring := r, index := s.ringPlace c r (s.fld (Reg.ringHead c r) 0 12) j, back := back, addr := d.addr,
                          data := data } :: x.ringOut }

/-- The descriptors of a frame in ring order (R107): one with a wrong length is written back with data_len 0 and no flags,
each other takes the next bytes; `j` is its place from head on, and `sop` holds while none has taken any. -/
def State.fillRx (c r : Nat) (f : Frm) (len mark : Nat) : List Desc → Nat → Bool → List Byte → State → State
  | [], _, _, _, s => s
  | d :: t, j, sop, b, s =>
    if rxLenOk d then
      let eop : Bool := decide (b.length ≤ d.len) || !t.any rxLenOk
      let flags := b2n sop + (if eop then 2 + mark else 0) + b2n f.big * 4 + b2n (f.sample ≠ 0) * 16
      let back := rxBack (min b.length d.len) (if eop then len else 0) (f.ingress + f.cls * 32) flags
        (if sop then f.ts.toNat else 0) (if sop then f.sub.toNat else 0)
      State.fillRx c r f len mark t (j + 1) false (b.drop d.len) (s.putRxBack c r j d back (b.take d.len))
    else State.fillRx c r f len mark t (j + 1) sop b (s.putRxBack c r j d (rxBack 0 0 0 0 0 0) [])

/-- Descriptors with a wrong length at head are written back, `k` of them (R107). Conventions: log 28. -/
def State.rejectRx (s : State) (c r k : Nat) : State :=
  State.fillRx c r { bytes := [], ingress := 0, cls := 0, ts := 0, sub := 0, vid := 0, pcp := 0, plain := true, sample := 0, big := false,
                     deadline := 0, tsReq := none, refs := 0, pool := 0 } 0 0 (((s.cx c).posted r).take k) 0 true [] s

/-- A frame written to an RX ring (R107, R108): `k` descriptors, its bytes, truncated or whole. The size counters take the
frame's full length, and a frame in two rings counts in each (R103). Conventions: log 28. -/
def State.writeRx (s : State) (c r k : Nat) (f : Frm) (full b : List Byte) (trunc : Bool) : State :=
  let t := State.fillRx c r f b.length (b2n trunc * 8) (((s.cx c).posted r).take k) 0 true b s
  let t := (t.advance c r k).ringMsg c r
  let t := if trunc then ((t.stick (Reg.ringStat c r) 10).countP (Reg.txTrunc (hostPort c)) (hostPort c)) else t
  t.countTx (hostPort c) full

/-- The head of an RX ring's queue is written, truncated, held or dropped (R108); the first argument bounds the
frames taken in one go. Conventions: log 28. -/
def State.serveRing : Nat → State → Nat → Nat → State
  | 0, s, _, _ => s
  | fuel + 1, s, c, r =>
    -- descriptors with a wrong length are written back as head reaches them and hold no frame (R107)
    let bad := if s.bitAt (Reg.ringCtrl c r) 0 then (((s.cx c).posted r).takeWhile fun d => !rxLenOk d).length else 0
    if 0 < bad then State.serveRing fuel ((s.rejectRx c r bad).advance c r bad) c r
    else
    match s.sw.ring (2 * c + r) with
    | [] => s
    | x :: rest =>
      match s.sw.frame x.id with
      | none => State.serveRing fuel (s.setRing (2 * c + r) rest) c r
      | some f =>
        let q := 8 * hostPort c + f.cls
        let gone := fun (t : State) => (t.setRing (2 * c + r) rest).dropCopy q x
        let drop := fun (t : State) => (gone t).count (Reg.ringDrop c r) (64 + hostPort c)
        if !s.bitAt (Reg.ringCtrl c r) 0 then State.serveRing fuel (drop s) c r
        else
          let b := outBytes f x.untag
          let ds := (s.cx c).posted r
          match buffersFor ds b.length with
          | some k => State.serveRing fuel (gone (s.writeRx c r k f b b false)) c r
          | none =>
            let sum := (ds.map rxRoom).foldl (· + ·) 0
            if s.ringSizeOf c r ≤ ds.length + 1 then
              State.serveRing fuel (gone (s.writeRx c r ds.length f b (b.take sum) true)) c r
            else if s.bitAt (Reg.ringCtrl c r) 1 then State.serveRing fuel (drop s) c r
            else s

/-- A ring is served as far as its frames and descriptors go (R108): each round takes one of either. -/
def State.serveAll (s : State) (c r : Nat) : State :=
  State.serveRing ((s.sw.ring (2 * c + r)).length + ((s.cx c).posted r).length + 1) s c r

/-- A copy delivered to a host port goes to its contexts' rings (R105, R228). -/
def State.toHost (s : State) (e : Nat) (x : Copy) (f : Frm) : State :=
  let cs := if e = 29 then [0, 1] else [2, 3]
  let dst := dstOf f.bytes
  let sel := cs.filter fun c =>
    if f.to_.isSome then decide (f.to_ = some c)
    else if f.sample ≠ 0 then decide (f.sample = 2 + c)
    else if isGroup dst then s.bitAt (Reg.ringCtrl c 0) 0
    else decide (dst ≠ 0) && decide (s.fld (Reg.hcxMacHi c) 0 16 * 2 ^ 32 + s.fld (Reg.hcxMacLo c) 0 32 = dst)
  let q := 8 * e + f.cls
  match sel with
  | [] => s.dropCopy q x
  | c :: more =>
    let r := if 6 ≤ f.cls ∧ f.sample = 0 then 1 else 0
    let put := fun (t : State) (c : Nat) => (t.setRing (2 * c + r) (t.sw.ring (2 * c + r) ++ [x])).serveAll c r
    let t := more.foldl (fun u _ =>
      (u.setFrame x.id (some { f with refs := f.refs + 1 })).addOcc q (cellsOf f.bytes.length)) s
    (c :: more).foldl put t

/-- A copy's last cell has left for its egress (R103): ports count it as sent, host ports hand it to the rings, MGMT
takes it, port 31 files it (R189). `out` bytes of it stand on the line already. A copy for MGMT or a host port that
grew beyond 9,216 bytes is not delivered (R90). -/
def State.finish (s : State) (k : Nat) (x : Copy) (ts : Nat) (out : Option Nat) : State :=
  let e := vqEgress k
  match s.sw.frame x.id with
  | none => s
  | some f =>
    if 28 ≤ e ∧ e < 31 ∧ 9216 < (outBytes f x.untag).length then s.dropCopy (vqQueue k) x
    else if e = 29 ∨ e = 30 then s.toHost e x f
    else if e = 31 then (s.countTx 31 f.bytes).onSw fun y => { y with cycIn := y.cycIn ++ [x] }
    else
      let o := s.ptpDepart f e (outBytes f x.untag) ts
      ((o.2.countTx e o.1).sent e o.1 0 ts out f.cls f.hint).dropCopy (vqQueue k) x

/-- What a line takes of a copy before its last cell has come (R121): its SOF, and the bytes of the cells that crossed. -/
def State.startBeats (s : State) (e : Nat) (c : Staged) : State :=
  match s.sw.frame c.copy.id with
  | none => s
  | some f =>
    let b := (s.ptpDepart f e (outBytes f c.copy.untag) c.ts).1
    let upto := min (128 * c.copy.sent) (b.length / 4 * 4)
    let first : Bool := decide (c.out = 0)
    ((s.resumeTx e).emit e (crumbLimit f.cls)
      ((if first then [sofBeat f.cls f.hint] else []) ++ dataBeats ((b.take upto).drop c.out))).setLineCopy e (some { c with out := upto })

end Sys2Proof.Machine
end

