-- ==== Sys2Proof/Machine/Sched.lean ====
section
/-! DEFINITION. Gates and windows (R174 to R176), hold-back (R45), and the scheduler of the crossbar (R121 to R126). -/

namespace Sys2Proof.Machine

/-! Gates. -/

/-- The gate entry in force on a port, and one set (R175). -/
def Sw.gate (x : Sw) (p : Nat) : Option (Nat × Byte) := Tab.get (fun _ => none) x.gates p
def State.setGate (s : State) (p : Nat) (g : Option (Nat × Byte)) : State :=
  s.onSw fun x => { x with gates := Tab.set (fun _ => none) x.gates p g }

/-- The reserved connection of an egress, and one set (R124). -/
def Sw.conn (x : Sw) (e : Nat) : Option (Nat × Nat) := Tab.get (fun _ => none) x.conns e
def State.setConn (s : State) (e : Nat) (c : Option (Nat × Nat)) : State :=
  s.onSw fun x => { x with conns := Tab.set (fun _ => none) x.conns e c }

/-- The gate of a class is open (R174, R175): always on ports 24 to 30; where no entry stands, for classes 0 to 6. -/
def State.gateOpen (s : State) (p c : Nat) : Bool :=
  if 24 ≤ p ∧ p < 31 then true
  else match s.sw.gate p with
    | some (_, m) => m.getLsbD c
    | none => decide (c < 7)

/-- The engine is RUNNING (R199). -/
def State.running (s : State) : Bool := decide (s.fld Reg.cycStat 0 2 = 2)

/-- A gate entry of the active bank (R174). -/
def State.gateEnt (s : State) (p i : Nat) : GateEntry := Tab.get (fun _ => {}) s.cyc.act.gate (1024 * p + i)

/-- The valid entries of a port's table in a bank, by index. -/
def gatesOf (t : Tab GateEntry) (p : Nat) : List (Nat × GateEntry) :=
  (t.filter fun x => decide (x.1 / 1024 = p) && decide (x.2.duration ≠ 0)).map fun x => (x.1 % 1024, x.2)

/-- Ticks into the cycle in progress. -/
def State.cycleTick (s : State) : Nat := s.now - s.cyc.start

/-- The least of a list, if any. -/
def least : List Nat → Option Nat
  | [] => none
  | a :: t => match least t with
    | none => some a
    | some b => some (min a b)

/-- Ticks until the next class-7 window of the port opens (R45). -/
def State.nextWindow (s : State) (p : Nat) : Option Nat :=
  if !s.running then none
  else
    let t := s.cycleTick
    let per := (s.rd Reg.cycPeriod).toNat
    least (((gatesOf s.cyc.act.gate p).filter fun x => x.2.mask.getLsbD 7).map fun x =>
      if t ≤ x.2.offset then x.2.offset - t else x.2.offset + per - t)

/-- A class-7 window opens within `n` ticks (R48). -/
def State.gateWithin (s : State) (p n : Nat) : Bool :=
  match s.nextWindow p with
  | none => false
  | some k => decide (k ≤ n)

/-! Time on the line. -/

/-- Ticks of `n` beats: a beat takes 1.6 ticks at NATIVE25 and 4 at NATIVE10, rounded up. -/
def State.beats (s : State) (p n : Nat) : Nat := if (s.pt p).mode = .native25 then (n * 8 + 4) / 5 else n * 4

/-- Beats of a frame of `n` bytes on a native line: SOF, data and EOF (R30). -/
def frameBeats (n : Nat) : Nat := 2 + (n + 3) / 4

/-- MARK positions within the next `n` beats (R31, R45). -/
def State.marksWithin (s : State) (p n : Nat) : Nat :=
  let x := s.pt p
  let b := if x.mode = .native25 then (s.now - x.markAt) * 5 / 8 else (s.now - x.markAt) / 4
  (b + n) / 1024 - b / 1024

/-- Ticks a frame of `n` bytes takes on the line of a mode, its preamble and gap included on STD and M ports. -/
def lineTicks (p : Nat) (m : PortMode) (speed n : Nat) : Nat :=
  if 24 ≤ p then (n + 20) * 1000
  else match m with
    | .native25 => (frameBeats n * 8 + 4) / 5
    | .native10 => frameBeats n * 4
    | .std25 => ((n + 20) * 2 + 4) / 5
    | .std10 => n + 20
    | .std1g => (n + 20) * 10
    | .sgmii => (n + 20) * (if speed = 0 then 1000 else if speed = 1 then 100 else 10)

/-- Ticks until a frame that starts now has left (R45): with MARKs and one crumb on a native line. -/
def State.frameTicks (s : State) (p n : Nat) : Nat :=
  if s.native p then
    let k := frameBeats n + 1
    s.beats p (k + s.marksWithin p k)
  else lineTicks p (s.pt p).mode (s.fld (Reg.portPhyStat p) 5 2) n

/-- The port may send PREEMPT (R45). -/
def State.mayPreempt (s : State) (p : Nat) : Bool :=
  s.native p && s.bitAt (Reg.portLineCtrl p) 0 && s.bitAt (Reg.portHalterStat p) 0 && (s.halterWord p 9).testBit 2
    && (s.fld (Reg.portCapAdv p) 0 8).testBit 2

/-- The port's class-7 window is open, or opens within `n` ticks (R45). -/
def State.windowBy (s : State) (p n : Nat) : Bool :=
  (match s.sw.gate p with
   | some (_, m) => m.getLsbD 7
   | none => false)
  || s.gateWithin p n

/-- R45 holds a frame back. -/
def State.heldBack (s : State) (p c n : Nat) : Bool :=
  decide (p < 24) && decide (c < 7) && (decide (c = 6) || !s.mayPreempt p) && s.windowBy p (s.frameTicks p n)

/-- A message of `n` words may start `lead` ticks from now (R43, R45, R46): no deferred crumb waits for its place, no preemption
is open, and no class-7 window opens before its last beat has left. -/
def State.mayMessageIn (s : State) (p n lead : Nat) : Bool :=
  let k := n + 1
  !(s.pt p).txSusp && decide ((s.pt p).tx.since < 4028) && !s.windowBy p (lead + s.beats p (k + s.marksWithin p k))

/-- A message of `n` words may start now. -/
def State.mayMessage (s : State) (p n : Nat) : Bool := s.mayMessageIn p n 0

/-- A message leaves: its words in beats of a type (R51), and the line's idle time starts at its end (R48). -/
def State.sendMsg (s : State) (p ty : Nat) (ws : List Nat) : State :=
  (s.emit p none (msgBeats ty ws)).onPt p fun y => { y with idleAt := s.now + s.beats p ws.length }

/-! Class pick (R126). -/

/-- A class's deficit, and one set. -/
def Sw.deficitOf (x : Sw) (q : Nat) : Int := Tab.get (fun _ => 0) x.deficit q
def State.setDeficit (s : State) (q : Nat) (v : Int) : State :=
  s.onSw fun x => { x with deficit := Tab.set (fun _ => 0) x.deficit q v }

/-- A class's quantum in bytes (R126, R133). -/
def State.quantum (s : State) (e c : Nat) : Int :=
  let v := if c < 4 then s.fld (Reg.swcDrr0 e) (8 * c) 8 else s.fld (Reg.swcDrr1 e) (8 * (c - 4)) 8
  (max 1 v : Int) * 64

/-- The turn of an egress moves on. -/
def State.nextTurn (s : State) (e c : Nat) : State :=
  s.onSw fun x => { x with turn := Tab.set (fun _ => 0) x.turn e ((c + 1) % 6), started := Tab.set (fun _ => false) x.started e false }

/-- The deficit round robin of R126: at most the given number of turns. -/
def State.drr (ready : Nat → Bool) : Nat → State → Nat → State × Option Nat
  | 0, s, _ => (s, none)
  | fuel + 1, s, e =>
    let c := Tab.get (fun _ => 0) s.sw.turn e
    let q := 8 * e + c
    if s.gateOpen e c && ready c then
      let t := if Tab.get (fun _ => false) s.sw.started e then s
        else (s.setDeficit q (s.sw.deficitOf q + s.quantum e c)).onSw fun x => { x with started := Tab.set (fun _ => false) x.started e true }
      if 0 < t.sw.deficitOf q then (t, some c) else State.drr ready fuel (t.nextTurn e c) e
    else
      let t := if ready c then s else s.setDeficit q 0
      State.drr ready fuel (t.nextTurn e c) e

/-- pick_class of R126; on ports 24 to 31 class 7 is sent ahead of class 6 (R174). -/
def State.pickClass (s : State) (e : Nat) (ready : Nat → Bool) : State × Option Nat :=
  if 24 ≤ e ∧ ready 7 then (s, some 7)
  else if s.gateOpen e 6 && ready 6 then (s, some 6)
  else State.drr ready 7 s e

/-- A class has a head to send: whole frames are always eligible (R122). -/
def State.headReady (s : State) (e c : Nat) : Bool :=
  s.sw.voq.any fun x => decide (vqQueue x.1 = 8 * e + c) && !x.2.isEmpty

/-! The scheduler (R121, R122). -/

/-- Cells in an output stage (R121). -/
def State.stageCells (s : State) (e : Nat) : Nat := ((s.sw.stageOf e).map (·.cells)).foldl (· + ·) 0

/-- 0 to 31 from `p`, rotating. -/
def rotation (p : Nat) : List Nat := (List.range 32).map fun k => (p + k) % 32

/-- A slot's matches: inputs and outputs taken, and the keys granted. -/
structure Match where
  ins  : List Nat := []
  outs : List Nat := []
  keys : List Nat := []
deriving DecidableEq, Repr

/-- The grant of an egress (R122), as a key. -/
def State.grantOf (s : State) (m : Match) (e : Nat) : State × Option Nat :=
  if m.outs.contains e || decide (4 ≤ s.stageCells e) then (s, none)
  else match s.sw.openOf e with
    | some k => (s, some k)
    | none =>
      match s.pickClass e (s.headReady e) with
      | (t, none) => (t, none)
      | (t, some c) =>
        (t, ((rotation (Tab.get (fun _ => 0) s.sw.gPtr e)).find? fun i =>
              !m.ins.contains i && !(t.sw.vq (vqKey e c i)).isEmpty).map fun i => vqKey e c i)

/-- One iteration of R122; `first` moves the pointers. -/
def State.iterate (s : State) (m : Match) (first : Bool) : State × Match :=
  let g := (List.range 32).foldl
    (fun (x : State × List Nat) e => match x.1.grantOf m e with
      | (t, none) => (t, x.2)
      | (t, some k) => (t, x.2 ++ [k])) (s, [])
  (List.range 32).foldl
    (fun (x : State × Match) i =>
      if x.2.ins.contains i then x
      else
        match (rotation (Tab.get (fun _ => 0) x.1.sw.aPtr i)).findSome? fun e =>
            g.2.find? fun k => decide (vqEgress k = e) && decide (k % 32 = i) && !x.2.outs.contains e with
        | none => x
        | some k =>
          let e := vqEgress k
          let t := if first then x.1.onSw fun y =>
              { y with gPtr := Tab.set (fun _ => 0) y.gPtr e ((i + 1) % 32), aPtr := Tab.set (fun _ => 0) y.aPtr i ((e + 1) % 32) }
            else x.1
          (t, { ins := i :: x.2.ins, outs := e :: x.2.outs, keys := x.2.keys ++ [k] })) (g.1, m)

/-- The copy at the head of a virtual output queue is selected (R126, R131): an expired one is discarded; on an M port
the age is checked at the first attempt. -/
def State.select (s : State) (k : Nat) (x : Copy) (rest : List Copy) : Option State :=
  let e := vqEgress k
  if !(decide (24 ≤ e) && decide (e < 28)) && s.expired x then none
  else match s.sw.frame x.id with
    | none => some (s.setVq k rest)
    | some f =>
      if f.cls < 6 then some (s.setDeficit (8 * e + f.cls) (s.sw.deficitOf (8 * e + f.cls) - f.bytes.length)) else some s

/-- One cell crosses from the head of a virtual output queue to its egress (R121); on ports 28 to 31, and behind a copy
on the line, the egress takes it at once. Conventions: log 27. -/
def State.moveCell (s : State) (k : Nat) : State :=
  match s.sw.vq k with
  | [] => s
  | x :: rest =>
    let e := vqEgress k
    match if x.sent = 0 then s.select k x rest else some s with
    | none => (s.setVq k rest).agedOut (vqQueue k) x
    | some t =>
      match t.sw.frame x.id with
      | none => t
      | some f =>
        let n := cellsOf f.bytes.length
        let y : Copy := { x with sent := x.sent + 1 }
        let whole : Bool := decide (n ≤ x.sent + 1)
        let t := (t.setVq k (if whole then rest else y :: rest)).setOpen e (if whole then none else some k)
        let t := t.perf (0x60 + e)
        let line := match t.sw.lineOf e with
          | some l => if l.copy.id = x.id ∧ l.key = k then some l else none
          | none => none
        if 28 ≤ e then (if whole then t.finish k y (t.now * 256) none else t)
        else if let some l := line then
          -- an M port keeps its frame until an attempt succeeds (R101)
          if whole && decide (e < 24) then (t.setLineCopy e none).finish k y l.ts (if l.out = 0 then none else some l.out)
          else if s.native e then t.startBeats e { l with copy := y }
          else t.setLineCopy e (some { l with copy := y })
        else
          let st := t.sw.stageOf e
          match st.getLast? with
          | some l =>
            if l.key = k ∧ l.copy.id = x.id then t.setStage e (st.dropLast ++ [{ l with copy := y, cells := l.cells + 1 }])
            else t.setStage e (st ++ [{ key := k, copy := y, cells := 1 }])
          | none => t.setStage e [{ key := k, copy := y, cells := 1 }]

end Sys2Proof.Machine
end

