-- ==== Sys2Proof/Machine/Lookup.lean ====
section
/-! DEFINITION. The tables as the data path uses them: VLAN, stream and FDB lookup, protection substitution (R141 to
R147, R158, R160), classification (R116) and source learning (R148 to R150). -/

namespace Sys2Proof.Machine

/-- The tables changed. -/
def State.onTbl (s : State) (f : Tables → Tables) : State := { s with tbl := f s.tbl }

/-- A table counter counts one (R166). -/
def State.countT (s : State) (a : Nat) : State := s.count a 118

/-! VLAN (R142, R143). -/

/-- The VLAN table at reset (R143). Conventions: log 9. -/
def vlanReset (v : Nat) : VlanEntry :=
  if v = 1 then { member := 0x7FFFFFFF, untag := 0x7FFFFFFF, fid := 1, valid := true } else {}

/-- A VLAN entry, as stored. -/
def State.vlan (s : State) (v : Nat) : VlanEntry := Tab.get vlanReset s.tbl.vlan v

/-- A flag of an uncorrectable error (R170). Conventions: log 31. -/
def badAt (t : Tab Bool) (i : Nat) : Bool := Tab.get (fun _ => false) t i

/-- TBL_PVIDp; 0 and 4095 act as 1 (R166). -/
def State.pvid (s : State) (p : Nat) : Nat :=
  let v := s.fld (Reg.tblPvid p) 0 12
  if v = 0 ∨ v = 4095 then 1 else v

/-- The VID a frame belongs to (R142). -/
def State.vidOf (s : State) (p : Nat) (b : List Byte) : Nat :=
  let v := beNat (slice b 14 2) % 4096
  if tagged b && decide (v ≠ 0) then v else s.pvid p

/-- The frame's VLAN entry, where it passes ingress filtering (R142). -/
def State.ingressVlan (s : State) (p : Nat) (b : List Byte) : Option VlanEntry :=
  let v := s.vidOf p b
  let e := s.vlan v
  if v ≠ 4095 ∧ e.valid ∧ !badAt s.tbl.badVlan v ∧ bit e.member p then some e else none

/-- The PCP of a frame, or the port's default (R133). -/
def State.pcpOf (s : State) (p : Nat) (b : List Byte) : Nat :=
  if tagged b then beNat (slice b 14 2) / 8192 else s.fld (Reg.swcPcpMap p) 24 3

/-! FDB (R144 to R147). -/

/-- fdb_set of R145. -/
def fdbSet (seed : Word) (fid mac : Nat) : Nat :=
  (([BitVec.ofNat 8 fid, BitVec.ofNat 8 (fid / 256 % 16)] ++ beBytes 6 mac).foldl (crcByte 0xEDB88320) seed).toNat % 32768

/-- An FDB way, by 8 * set + way. -/
def State.way (s : State) (i : Nat) : Option FdbEnt := Tab.get (fun _ => none) s.tbl.fdb i

/-- An FDB way written in one write (R144); the write ends an error found in it (R170). -/
def State.setWay (s : State) (i : Nat) (e : Option FdbEnt) : State :=
  s.onTbl fun x => { x with fdb := Tab.set (fun _ => none) x.fdb i e, badWay := Tab.set (fun _ => false) x.badWay i false }

/-- What source lookups and the scanner did in an earlier tick is past (R155). -/
def State.scanTick (s : State) : State :=
  if s.tbl.scanAt = s.raw then s else s.onTbl fun x => { x with scanAt := s.raw, hits := [], gone := [] }

/-- The entry of a key that the scanner removed in this tick (R155). -/
def State.goneNow (s : State) (fid mac : Nat) : Option FdbEnt :=
  s.scanTick.tbl.gone.find? fun e => decide (e.fid = fid) && decide (e.mac = mac)

/-- The way of a set that holds a key. -/
def State.wayIn (s : State) (set fid mac : Nat) : Option (Nat × FdbEnt) :=
  (List.range 8).findSome? fun w =>
    match s.way (8 * set + w) with
    | some e => if e.fid = fid ∧ e.mac = mac ∧ !e.bad then some (8 * set + w, e) else none
    | none => none

/-- Both positions are probed (R153). -/
def State.dual (s : State) : Bool := s.bitAt Reg.tblFdbStat 1

/-- The entry of a key, with its place, and whether the old seed holds it (R146, R153). -/
def State.fdbFind (s : State) (fid mac : Nat) : Option (Nat × FdbEnt × Bool) :=
  match s.wayIn (fdbSet (s.rd Reg.tblFdbSeed) fid mac) fid mac with
  | some (i, e) => some (i, e, false)
  | none =>
    if s.dual then (s.wayIn (fdbSet (s.rd Reg.tblFdbSeedOld) fid mac) fid mac).map fun x => (x.1, x.2, true) else none

/-- The lowest free way of a set (R145): one with an uncorrectable error may be overwritten (R170). -/
def State.freeWay (s : State) (set : Nat) : Option Nat :=
  ((List.range 8).find? fun w => match s.way (8 * set + w) with
    | none => true
    | some e => e.bad).map fun w => 8 * set + w

/-! Streams (R157, R158). -/

/-- A stream entry of the active bank. -/
def State.stream (s : State) (n : Nat) : StreamEntry := Tab.get (fun _ => {}) s.tbl.strA n

/-- The entry may match a frame from port `p`. -/
def State.streamOk (s : State) (n p : Nat) : Bool :=
  (s.stream n).valid && !badAt s.tbl.badStr n && decide ((s.stream n).inPort = p)

/-- The entry a frame matches, with whether it is by its hint, and whether one it names fails the in_port or valid test
(R158). A hint that matches no entry leaves the key to match. Conventions: log 26. -/
def State.streamMatch (s : State) (p hint vid : Nat) (b : List Byte) : Option (Nat × Bool) × Bool :=
  let h := hint - 1
  let byHint : Bool := s.native p && decide (0 < hint)
  if byHint && (s.stream h).hintKey && s.streamOk h p then (some (h, true), false)
  else
    let keys := s.tbl.strA.filter fun x => x.2.macKey && decide (x.2.dmac = dstOf b) && decide (x.2.vid = vid)
    match keys.find? fun x => s.streamOk x.1 p with
    | some x => (some (x.1, false), false)
    | none => (none, (byHint && !s.streamOk h p) || !keys.isEmpty)

/-! Protection (R159, R160). -/

/-- A pair is enabled; its ports. -/
def State.protEn (s : State) (q : Nat) : Bool := s.bitAt (Reg.tblProt q) 10
def State.protPrimary (s : State) (q : Nat) : Nat := s.fld (Reg.tblProt q) 0 5
def State.protAlternate (s : State) (q : Nat) : Nat := s.fld (Reg.tblProt q) 5 5

/-- The pair's traffic is on its alternate. -/
def State.onAlternate (s : State) (q : Nat) : Bool := badAt s.tbl.onAlt q

/-- The pair has returned to its primary since it was set (R161). -/
def State.returned (s : State) (q : Nat) : Bool := badAt s.tbl.back q

/-- A port belongs to an enabled pair; a pair that is not enabled protects nothing (R48, R80) (DEDUCED, log 57). -/
def State.inPair (s : State) (p : Nat) : Bool :=
  (List.range 16).any fun q => s.protEn q && (decide (s.protPrimary q = p) || decide (s.protAlternate q = p))

/-- A set of ports as a list. -/
def portsOf (m : Word) : List Nat := (List.range 32).filter fun p => bit m p

/-- One port of a set of ports in place of another (R160): where both appear, the new one receives one copy. -/
def swapPort (m : Word) (old new : Nat) : Word := if bit m old then orBit (m &&& ~~~(1#32 <<< old)) new else m

/-- Step 5 of R141: the port a pair switched to in place of the one it left (R160), after a return as after a switch
(R161). -/
def State.substitute (s : State) (m : Word) : Word :=
  (List.range 16).foldl (fun w q =>
    if !s.protEn q then w
    else if s.onAlternate q then swapPort w (s.protPrimary q) (s.protAlternate q)
    else if s.returned q then swapPort w (s.protAlternate q) (s.protPrimary q)
    else w) m

/-! Classification (R116). -/

/-- The class of a PCP at a port; 6 and 7 act as 5 (R133). -/
def State.pcpClass (s : State) (p pcp : Nat) : Nat := min 5 (s.fld (Reg.swcPcpMap p) (3 * pcp) 3)

/-- A time or command frame (R116, rule 3). -/
def State.timeFrame (s : State) (b : List Byte) : Bool :=
  (ptpAt b).isSome
    || (decide (etherOf b = 0x88B5) && [6, 7].any fun c => s.bitAt (Reg.hcxBind c) 7 && decide ((s.cx c).mac = dstOf b))

/-- Rules 2 to 4 of R116 for a frame with no stream match; `miss` where it names an entry that does not admit it, which leaves
rule 4 (R158). -/
def State.classOf (s : State) (p sofCls : Nat) (miss : Bool) (b : List Byte) : Nat :=
  if miss then s.pcpClass p (s.pcpOf p b)
  else if s.native p then (if sofCls = 6 then 6 else s.pcpClass p (s.pcpOf p b))
  else if s.timeFrame b then 6
  else s.pcpClass p (s.pcpOf p b)

/-! Lookup (R141). -/

/-- What a lookup gives: the class, the destinations, the VLAN of the frame, and the stream entry it matched. -/
structure Res where
  cls    : Nat
  dests  : Word
  vid    : Nat
  untag  : Word
  stream : Option Nat
deriving DecidableEq, Repr

/-- The port's bit. -/
def portBit (p : Nat) : Word := 1#32 <<< p

/-- Switch ports a copy may reach at all: an absent port is none (R2). -/
def State.portMask (s : State) : Word := if s.code = .i16 then 0xFFFFFFFF else 0xFFFF0F0F

/-- External ports that are not UP (R147). -/
def State.downMask (s : State) : Word :=
  (List.range 28).foldl (fun w p => if (s.pt p).up then w else orBit w p) 0

/-- The flood set (R147). -/
def State.floodSet (s : State) (p : Nat) (v : VlanEntry) : Word :=
  v.member &&& s.rd Reg.tblFloodMask &&& ~~~portBit p &&& ~~~s.downMask &&& 0x7FFFFFFF

/-- Steps 3 and 4 of R141: the set, with what it counts. -/
def State.destSet (s : State) (p : Nat) (v : VlanEntry) (b : List Byte) : State × Word :=
  let dst := dstOf b
  if linkLocal dst then (s, s.rd Reg.tblLlDest &&& ~~~portBit p &&& 0x7FFFFFFF)
  else
    let s := s.perf 0x100
    let flood := fun (t : State) => (t.perf 0x103, t.floodSet p v)
    if dst = 2 ^ 48 - 1 then flood s
    -- a lookup in the tick of a removal is served from the entry (R155)
    else match ((s.fdbFind v.fid dst).map (·.2.1)).or (s.goneNow v.fid dst) with
      | none => flood (s.perf 0x102)
      | some e =>
        let s := s.perf 0x101
        if e.mc then
          let m := e.dest &&& v.member &&& ~~~portBit p &&& 0x7FFFFFFF
          if m = 0 then (s.countT Reg.tblFiltered, 0) else (s, m)
        else
          let d := getFld e.dest 0 5
          if d = p then (s.countT Reg.tblFiltered, 0)
          else if !bit v.member d then (s.countT Reg.tblVlanDrop, 0)
          else (s, portBit d)

/-- What a stream entry gives a frame (R141, step 2): its egress mask after substitution, in class 7 or the class of a host's
descriptor (R116). -/
def State.streamRes (s : State) (n vid : Nat) (cls : Option Nat) (untag : Word) : Res :=
  { cls := cls.getD 7, dests := s.substitute (s.stream n).egress &&& s.portMask, vid := vid,
    untag := if cls.isSome then untag else 0, stream := some n }

/-- The lookup of a frame from port `p` (R141); `cls` is the class a host descriptor gives. A frame that fails R142 has
no destination; one that matches by its hint skips that test. Conventions: log 26. -/
def State.lookup (s : State) (p sofCls hint : Nat) (cls : Option Nat) (b : List Byte) : State × Option Res :=
  let vid := s.vidOf p b
  let m := s.streamMatch p hint vid b
  match m.1, s.ingressVlan p b with
  | some (n, true), _ => (s.perf 0x104, some (s.streamRes n vid cls 0))
  | _, none => (s.countT Reg.tblVlanDrop, none)
  | some (n, false), some v => (s.perf 0x104, some (s.streamRes n vid cls v.untag))
  | none, some v =>
    let s := if m.2 then s.countT Reg.tblStreamMiss else s
    let d := s.destSet p v b
    let set := if linkLocal (dstOf b) then d.2 else s.substitute d.2
    (d.1, some { cls := cls.getD (s.classOf p sofCls m.2 b), dests := set &&& s.portMask, vid := vid, untag := v.untag, stream := none })

/-! Learning (R148 to R150). -/

/-- A learn record is queued to a context (R150); the sequence counts records lost at a full queue as well.
Conventions: log 25. -/
def State.queueLearn (s : State) (c : Nat) (r : LearnRec) : State :=
  let q := Tab.get (fun _ => 0) s.tbl.seq c
  let t := s.onTbl fun x => { x with seq := Tab.set (fun _ => 0) x.seq c ((q + 1) % 2 ^ 32) }
  let l := (s.cx c).learn
  if 1024 ≤ l.length then (t.countT Reg.tblLearnQdrop).raise 109
  else ((t.onCx c fun x => { x with learn := x.learn ++ [{ r with seq := q }] }).perf 0x105).raiseIf l.isEmpty 108

/-- The filter and the rate limit of R149, then the queue of the port's owner (R150). -/
def State.learnRecord (s : State) (r : LearnRec) : State :=
  let live := s.tbl.filter.filter fun k => decide (s.now < k.2.2.2 + 1250000)
  let s := s.onTbl fun x => { x with filter := live }
  if live.any fun k => decide (k.1 = r.fid) && decide (k.2.1 = r.mac) && decide (k.2.2.1 = r.port) then s
  else
    let kept := if 1024 ≤ live.length then live.drop 1 else live
    let s := s.onTbl fun x => { x with filter := kept ++ [(r.fid, r.mac, r.port, s.now)] }
    let w := Tab.get (fun _ => (0, 0)) s.tbl.window r.port
    let fresh : Bool := decide (w.2 = 0) || decide (w.1 + 1250000 ≤ s.now)
    let n := if fresh then 0 else w.2
    if s.fld (Reg.tblLearnRate r.port) 0 12 ≤ n then s.countT Reg.tblLearnLimited
    else
      let s := s.onTbl fun x => { x with window := Tab.set (fun _ => (0, 0)) x.window r.port (if fresh then s.now else w.1, n + 1) }
      match s.owner 0 r.port with
      | none => s
      | some c => s.queueLearn c r

/-- Source learning at the frame's EOF (R148); in the tick in which the scanner removes the entry the source hit is lost
with no record (R155). Conventions: log 25. -/
def State.learn (s : State) (p : Nat) (b : List Byte) : State :=
  let src := srcOf b
  if !(bit (s.rd Reg.tblLearnEn) p && decide (p ≠ 28) && decide (p ≠ 31)) || isGroup src || decide (src = 0) || decide (etherOf b = 0x8808)
  then s
  else match s.ingressVlan p b with
    | none => s
    | some v =>
      let r : LearnRec := { vid := s.vidOf p b, flags := 0, port := p, old := 0, fid := v.fid, mac := src, seq := 0, raw := s.now }
      match s.fdbFind v.fid src with
      | none => if (s.goneNow v.fid src).isSome then s else s.learnRecord r
      | some (i, e, _) =>
        let same : Bool := if e.mc then bit e.dest p else decide (getFld e.dest 0 5 = p)
        if same then
          if e.stat || e.hit then s
          else (s.scanTick.setWay i (some { e with hit := true })).onTbl fun x => { x with hits := i :: x.hits }
        else if e.stat then ((s.countT Reg.tblStaticConflict).raise 110).learnRecord { r with flags := 2 }
        else s.learnRecord { r with flags := 1, old := getFld e.dest 0 5 }

end Sys2Proof.Machine
end

