-- ==== Sys2Proof/Machine/TableOps.lean ====
section
/-! DEFINITION. The operations that change the tables (R143 to R165): FDB entries, streams, protection pairs, the shadow. -/

namespace Sys2Proof.Machine

/-! FDB (R144 to R153). -/

/-- The ctl halfword of an FDB entry (R144). -/
def FdbEnt.ctl (e : FdbEnt) : Nat := e.fid + 4096 + b2n e.stat * 8192 + b2n e.hit * 16384 + b2n e.mc * 32768

/-- Ports an entry names. -/
def destPorts (mc : Bool) (dest : Word) : List Nat := if mc then portsOf dest else [dest.toNat]

/-- TBL_FDB_STAT.rehash. Conventions: log 35. -/
def State.rehashing (s : State) : Bool := s.bitAt Reg.tblFdbStat 0

/-- An entry lies in its old position (R153). -/
def State.stranded (s : State) (i : Nat) (e : FdbEnt) : Bool := decide (i / 8 ≠ fdbSet (s.rd Reg.tblFdbSeed) e.fid e.mac)

/-- An entry removed; the last stranded one ends the probing of both positions (R153). -/
def State.removeWay (s : State) (i : Nat) : State :=
  match s.way i with
  | none => s
  | some e =>
    let t := s.setWay i none
    let n := (s.rd Reg.tblFdbStranded).toNat
    if s.dual && !s.rehashing && s.stranded i e && decide (0 < n) then
      let t := t.wr Reg.tblFdbStranded (w32 (n - 1))
      if n = 1 then t.setFld Reg.tblFdbStat 1 1 0 else t
    else t

/-- TBL_CFG_EPOCH increments (R156). -/
def State.nextEpoch (s : State) : State := s.wr Reg.tblCfgEpoch (s.rd Reg.tblCfgEpoch + 1)

/-- FDB_INSERT's outcome (R151): the status, its parameters, and the state. -/
def State.fdbInsert (s : State) (o : FdbOp) : Nat × List Nat × State :=
  let stat := o.flags.testBit 0
  let move := o.flags.testBit 1
  let mc := o.flags.testBit 2
  let new : FdbEnt := { mac := o.mac, fid := o.fid, stat := stat, hit := true, mc := mc, dest := o.dest }
  match s.fdbFind o.fid o.mac with
  | some (i, e, _) =>
    if move && (!e.stat || stat) then (St.ok, [i / 8, i % 8], (s.setWay i (some new)).countT Reg.tblFdbMoves)
    else (St.exists_, [i / 8, i % 8, e.dest.toNat, e.ctl], s)
  | none =>
    let set := fdbSet (s.rd Reg.tblFdbSeed) o.fid o.mac
    match s.freeWay set with
    | some i => (St.ok, [set, i % 8], (s.removeWay i).setWay i (some new))
    | none => (St.full, [set], s)

/-- The first field of an FDB operation out of range (R151); deletes name a key only. -/
def fdbOpBad (o : FdbOp) : Option Nat :=
  if o.delete then firstBad [(0, decide (o.fid < 4096))]
  else firstBad [(0, decide (o.fid < 4096)), (1, !isGroup o.mac || o.flags.testBit 2), (2, !o.flags.testBit 2 || decide (o.dest ≠ 0)),
                 (3, decide (o.flags < 8))]

/-- The ports an FDB operation names: those of its entry, or of the entry it deletes (R151, R168). -/
def State.fdbOpPorts (s : State) (o : FdbOp) : List Nat :=
  if o.delete then
    match s.fdbFind o.fid o.mac with
    | some (_, e, _) => destPorts e.mc e.dest
    | none => []
  else destPorts (o.flags.testBit 2) o.dest

/-- An operation names only ports that are there, 31 apart (R151). -/
def State.fdbOpThere (s : State) (o : FdbOp) : Bool :=
  o.delete || (s.fdbOpPorts o).all fun p => decide (p < 31) && s.exists p

/-- Ports as owned resources; port 28 has no owner (R338). Conventions: log 32. -/
def ownedPorts (l : List Nat) : List (Nat × Nat) := (l.filter fun p => decide (p ≠ 28 ∧ p ≠ 31)).map fun p => (0, p)

/-- A key removed (R168). -/
def State.fdbDelete (s : State) (fid mac : Nat) : Option State := (s.fdbFind fid mac).map fun x => s.removeWay x.1

/-- One entry under a flush of a set of ports (R168), and whether it changed. -/
def State.flushWay (s : State) (i : Nat) (e : FdbEnt) (ports : Word) : State × Bool :=
  if e.mc then
    if e.dest &&& ports = 0 then (s, false)
    else
      let d := e.dest &&& ~~~ports
      (if d = 0 then s.removeWay i else s.setWay i (some { e with dest := d }), true)
  else if bit ports (getFld e.dest 0 5) then (s.removeWay i, true) else (s, false)

/-- FDB_FLUSH's effect (R168). -/
def State.fdbFlush (s : State) (ports : Word) (static : Bool) (fid : Nat) : State × Bool :=
  s.tbl.fdb.foldl (fun (x : State × Bool) y =>
    match y.2 with
    | some e =>
      if (e.stat && !static) || (decide (fid ≠ 0xFFFF) && decide (e.fid ≠ fid)) then x
      else
        let r := x.1.flushWay y.1 e ports
        (r.1, x.2 || r.2)
    | none => x) (s, false)

/-- The rehash walk (R153): every entry whose new set has a free way moves. Conventions: log 35. -/
def State.rehashWalk (s : State) : State :=
  s.tbl.fdb.foldl (fun t x =>
    match t.way x.1 with
    | some e =>
      let set := fdbSet (t.rd Reg.tblFdbSeed) e.fid e.mac
      if x.1 / 8 = set ∨ e.bad then t
      else match t.freeWay set with
        | some i => (t.setWay i (some e)).setWay x.1 none
        | none => t
    | none => t) s

/-- Entries left in their old positions, those with an uncorrectable error among them. Conventions: log 35. -/
def State.leftOver (s : State) : Nat := (s.tbl.fdb.filter fun x => match x.2 with
  | some e => s.stranded x.1 e
  | none => false).length

/-! In-band bindings (R327). -/

/-- The binding of an in-band context and its FDB entry go. -/
def State.unbind (s : State) (c : Nat) : State :=
  if !s.bitAt (Reg.hcxBind c) 7 then s
  else
    let t := match s.fdbFind (s.vlan (s.cx c).vid).fid (s.cx c).mac with
      | some (i, _, _) => (s.removeWay i).nextEpoch
      | none => s
    (t.wr (Reg.hcxBind c) 0).onCx c fun x => { x with mac := 0, vid := 0 }

/-- A binding is made where its FDB entry can be inserted (R327). Conventions: log 32. -/
def State.bind (s : State) (c port vid mac : Nat) : CmdEnd :=
  let t := s.unbind c
  match t.fdbInsert { delete := false, flags := 1, fid := (t.vlan vid).fid, mac := mac, dest := 28 } with
  | (st, ps, u) =>
    if st = St.ok then
      .done [] ((u.nextEpoch.wr (Reg.hcxBind c) (w32 (port + 128 + vid * 256))).onCx c fun x => { x with mac := mac, vid := vid })
    else .refuse st ps

/-! Entries as the shadow and the read window show them (R143, R144, R157, R163). -/

/-- An FDB way as 16 bytes; an invalid one reads as zero. -/
def fdbImage (e : Option FdbEnt) : Nat :=
  match e with
  | none => 0
  | some e => leNat (beBytes 6 e.mac) + e.ctl * 2 ^ 48 + e.dest.toNat * 2 ^ 64

/-- A VLAN entry as 16 bytes. -/
def vlanImage (e : VlanEntry) : Nat := e.member.toNat + e.untag.toNat * 2 ^ 32 + (e.fid + b2n e.valid * 2 ^ 15) * 2 ^ 64

/-- A stream entry as 32 bytes. -/
def streamImage (e : StreamEntry) : Nat :=
  leNat (beBytes 6 e.dmac) + (e.vid + b2n e.valid * 4096 + b2n e.macKey * 8192 + b2n e.hintKey * 16384) * 2 ^ 48
    + e.inPort * 2 ^ 64 + e.window * 2 ^ 80 + e.egress.toNat * 2 ^ 96 + e.deadline * 2 ^ 128
    + (e.slot + b2n e.slotEn * 2 ^ 15) * 2 ^ 160

/-- A number as `n` dwords, the low one first. -/
def dwords (n v : Nat) : List Word := (List.range n).map fun k => w32 (v / 2 ^ (32 * k))

/-- A learn record as six dwords (R150). -/
def learnWords (r : LearnRec) : List Word :=
  let m := beBytes 6 r.mac
  let b := fun i => (m.getD i 0).toNat
  [w32 (r.vid + r.flags * 4096 + r.port * 2 ^ 16 + (r.old + 128) * 2 ^ 24),
   w32 (r.fid + b 0 * 2 ^ 16 + b 1 * 2 ^ 24), w32 (b 2 + b 3 * 256 + b 4 * 2 ^ 16 + b 5 * 2 ^ 24),
   w32 r.seq, w32 r.raw, w32 (r.raw / 2 ^ 32)]

/-- A mismatch log entry as eight dwords (R165). -/
def mmWords (r : MmRec) : List Word := [w32 (r.table + r.flags * 256), w32 r.index, w32 r.pass, 0] ++ dwords 4 r.diff

/-- The entry TBL_RD_SEL selects, as eight dwords (R166). -/
def State.rdEntry (s : State) (v : Word) : List Word :=
  let i := getFld v 0 18
  if bit v 20 then ((s.tbl.mmLog[i % 256]?).map mmWords).getD (dwords 8 0)
  else match getFld v 18 2 with
    | 0 => dwords 8 (fdbImage (s.way i))
    | 1 => dwords 8 (if i < 4096 then vlanImage (s.vlan i) else 0)
    | 2 => dwords 8 (if i < 16384 then streamImage (s.stream i) else 0)
    | _ => dwords 8 (if i < 16384 then streamImage (Tab.get (fun _ => {}) s.tbl.strP i) else 0)

/-! Streams (R157, R158). -/

/-- A stream entry of the pending bank, and one set. -/
def State.streamP (s : State) (n : Nat) : StreamEntry := Tab.get (fun _ => {}) s.tbl.strP n
def State.setStreamP (s : State) (n : Nat) (e : StreamEntry) : State :=
  s.onTbl fun x => { x with strP := Tab.set (fun _ => {}) x.strP n e }

/-- The set of a stream key (R158). -/
def streamSet (e : StreamEntry) : Nat := fdbSet 0xFFFFFFFF e.vid e.dmac % 4096

/-- STREAM_SET's test of a key against the other entries of the pending bank (R158): EXISTS, then FULL. -/
def State.streamFits (s : State) (n : Nat) (e : StreamEntry) : Option Nat :=
  if !(e.valid && e.macKey) then none
  else
    let others := s.tbl.strP.filter fun x => decide (x.1 ≠ n) && x.2.valid && x.2.macKey
    if others.any fun x => decide (x.2.dmac = e.dmac) && decide (x.2.vid = e.vid) then some St.exists_
    else if 4 ≤ (others.filter fun x => decide (streamSet x.2 = streamSet e)).length then some St.full else none

/-- The pending streams are restored from the active bank (R345); while a commit is armed that waits (R192). -/
def State.restoreStreams (s : State) : State :=
  if s.cyc.armed.isSome then { s with cyc := { s.cyc with lost10 := true } }
  else s.onTbl fun x => { x with strP := x.strA }

/-! Protection (R159 to R161). -/

/-- A port of a pair is faulty (R160): not UP, or its fault indication stands. -/
def State.portFault (s : State) (p : Nat) : Bool := !(s.pt p).up || s.bitAt (Reg.portLineStat p) 3

/-- The port that carries a pair's traffic, and the other. -/
def State.protActive (s : State) (q : Nat) : Nat := if s.onAlternate q then s.protAlternate q else s.protPrimary q
def State.protOther (s : State) (q : Nat) : Nat := if s.onAlternate q then s.protPrimary q else s.protAlternate q

/-- The state field of TBL_PROTq set. -/
def State.setProtState (s : State) (q n : Nat) : State := s.setFld (Reg.tblProt q) 12 2 n

/-- A pair changes to its other port (R160): the old port's queues of classes 0 to 6 are flushed, source 114.
Conventions: log 36. -/
def State.protFlip (s : State) (q : Nat) : State :=
  let old := s.protActive q
  let alt := !s.onAlternate q
  let t := s.onTbl fun x => { x with onAlt := Tab.set (fun _ => false) x.onAlt q alt, back := Tab.set (fun _ => false) x.back q !alt }
  let t := t.setProtState q (b2n alt)
  let t := (List.range 7).foldl (fun u c => (u.flushQueue (8 * old + c)).flushSeg (8 * old + c)) t
  t.raise 114

/-- The protection logic judges a pair (R160). A pair with an uncorrectable error is held (R170). Conventions: log 36. -/
def State.protJudge (s : State) (q : Nat) : State :=
  if !s.protEn q || badAt s.tbl.badProt q then s
  else if s.portFault (s.protActive q) then
    if !s.portFault (s.protOther q) then s.protFlip q
    else if s.fld (Reg.tblProt q) 12 2 = 2 then s
    else (s.setProtState q 2).raise 115
  else if s.fld (Reg.tblProt q) 12 2 = 2 then s.setProtState q (b2n (s.onAlternate q)) else s

/-! Ageing and the shadow (R154, R163 to R165). -/

/-- Aged records of a removed entry (R154). -/
def State.agedRecords (s : State) (e : FdbEnt) : State :=
  let r : LearnRec := { vid := 0, flags := 4, port := getFld e.dest 0 5, old := 0, fid := e.fid, mac := e.mac, seq := 0, raw := s.now }
  if e.mc then
    (List.range 8).foldl (fun t c =>
      match (portsOf e.dest).find? fun p => decide (t.owner 0 p = some c) with
      | some p => t.queueLearn c { r with port := p }
      | none => t) s
  else match s.owner 0 r.port with
    | some c => s.queueLearn c r
    | none => s

/-- A visit of the ageing scanner (R154). A source hit of the same tick comes after the test of the hit bit (R155).
Conventions: log 25. -/
def State.ageVisit (s : State) (i : Nat) : State :=
  match s.way i with
  | none => s
  | some e =>
    if e.stat || e.bad || decide (s.fld Reg.tblAge 0 16 = 0) then s
    else if e.hit && !(s.scanTick.tbl.hits.contains i) then s.setWay i (some { e with hit := false })
    else
      let t := (s.scanTick.removeWay i).onTbl fun x =>
        { x with aged := Tab.set (fun _ => false) x.aged (i / 8) true, gone := e :: x.gone }
      ((t.countT Reg.tblFdbAged).perf 0x106).agedRecords e

/-- The compare engine's mode: 3 acts as 0, and without DRAM it does not run (R166, R170). -/
def State.shadowMode (s : State) : Nat :=
  let m := s.fld Reg.tblShadowCtrl 0 2
  if m = 3 ∨ !s.bitAt Reg.swcDramStat 16 then 0 else m

/-- A write of TBL_SHADOW_CTRL: a mode that starts begins a pass (R164). -/
def State.writeShadow (s : State) (v : Word) : State :=
  let m := getFld v 0 2
  let was := s.fld Reg.tblShadowCtrl 0 2
  let t := s.wr Reg.tblShadowCtrl v
  if (was = 0 ∨ was = 3) ∧ m ≠ 0 ∧ m ≠ 3 then t.onTbl fun x => { x with unit := 0 } else t

/-- An FDB image without its hit bit. -/
def dropHit (n : Nat) : Nat := if n.testBit 62 then n - 2 ^ 62 else n

/-- A difference logged, or counted where the log is full (R165). -/
def State.mmLog (s : State) (table index : Nat) (bad : Bool) (live shadow : Nat) : State :=
  let lo := Nat.xor (live % 2 ^ 128) (shadow % 2 ^ 128)
  let r : MmRec := { table := table, flags := b2n bad + b2n (decide (live / 2 ^ 128 ≠ shadow / 2 ^ 128)) * 2, index := index,
                     pass := (s.rd Reg.tblShadowPass).toNat, diff := lo }
  if 256 ≤ s.tbl.mmLog.length then (s.countT Reg.tblMmCount).stick Reg.tblShadowStat 8
  else s.onTbl fun x => { x with mmLog := x.mmLog ++ [r] }

/-- Differing entries of one unit: table, index, bad, live and shadow images. -/
def State.unitDiffs (s : State) (u : Nat) : List (Nat × Nat × Bool × Nat × Nat) :=
  let differ := fun (l : List (Nat × Nat × Bool × Nat × Nat)) => l.filter fun x => x.2.2.1 || decide (x.2.2.2.1 ≠ x.2.2.2.2)
  let sh := fun (t : Tab Nat) (i : Nat) => Tab.get (fun _ => 0) t i
  if u < 32768 then
    (differ ((List.range 8).map fun w =>
      let e := s.way (8 * u + w)
      (0, 8 * u + w, (e.map (·.bad)).getD (badAt s.tbl.badWay (8 * u + w)), dropHit (fdbImage e), dropHit (sh s.tbl.shFdb (8 * u + w))))).filter fun x =>
        !(badAt s.tbl.aged u && (s.way x.2.1).isNone && !x.2.2.1 && x.2.2.2.2.testBit 60 && !x.2.2.2.2.testBit 61)
  else if u < 33280 then
    differ ((List.range 8).map fun k =>
      let v := 8 * (u - 32768) + k
      (1, v, badAt s.tbl.badVlan v, vlanImage (s.vlan v), sh s.tbl.shVlan v))
  else
    differ ((List.range 2).map fun k =>
      let n := 2 * (u - 33280) + k
      (2, n, badAt s.tbl.badStr n, streamImage (s.stream n), sh s.tbl.shStr n))

/-- The compare engine takes one unit (R164). -/
def State.compareUnit (s : State) : State :=
  if s.shadowMode = 0 then s
  else
    let u := if s.tbl.unit < 32768 ∧ s.dual then 32768 else s.tbl.unit
    let d := s.unitDiffs u
    let t := d.foldl (fun t x => t.mmLog x.1 x.2.1 x.2.2.1 x.2.2.2.1 x.2.2.2.2) s
    let t := if d.isEmpty then t else t.raise 112
    let t := if u < 32768 then t.onTbl fun x => { x with aged := Tab.set (fun _ => false) x.aged u false } else t
    if u + 1 < 41472 then t.onTbl fun x => { x with unit := u + 1 }
    else
      let t := ((t.countT Reg.tblShadowPass).raise 113).onTbl fun x => { x with unit := 0 }
      if s.shadowMode = 1 then t.setFld Reg.tblShadowCtrl 0 2 0 else t

end Sys2Proof.Machine
end

