-- ==== Sys2Proof/Machine/CycleOps.lean ====
section
/-! DEFINITION. The cycle engine's operations: the process image (R178 to R183), the banks and their share CRC (R192,
R193), the commit checks (R175 to R186), the engine's state (R199) and the end of an armed commit (R196). -/

namespace Sys2Proof.Machine

/-- The cycle engine changed. -/
def State.onCyc (s : State) (f : Cyc → Cyc) : State := { s with cyc := f s.cyc }

/-! The memory of the process image (R178): addressed cells; a byte that nothing has written reads zero (R180). -/

/-- One byte. Conventions: log 9. -/
def Memory.read (m : List Host.Cell) (a : Nat) : Byte := Tab.get (fun _ => 0) m a

/-- One byte written. -/
def Memory.write (m : List Host.Cell) (a : Nat) (b : Byte) : List Host.Cell := Tab.set (fun _ => 0) m a b

/-- The canonical form: addresses rise strictly and no zero is listed. -/
def Memory.wf (m : List Host.Cell) : Bool := Tab.wf (fun _ => 0) m

/-- Bytes from an address up. -/
def Memory.bytes (m : List Host.Cell) (a n : Nat) : List Byte := (List.range n).map fun i => Memory.read m (a + i)

/-- Bytes written from an address up. -/
def Memory.writeAll : List Host.Cell → Nat → List Byte → List Host.Cell
  | m, _, [] => m
  | m, a, b :: t => Memory.writeAll (Memory.write m a b) (a + 1) t

/-- Offsets within a window (R178): outbound status, inbound status, payload. -/
def ostBase : Nat := 0x1000
def istBase : Nat := 0x11000
def payBase : Nat := 0x21000
def piWindow : Nat := 0x100000

/-- Image bytes of a bank. -/
def State.piBytes (s : State) (bank off n : Nat) : List Byte := Memory.bytes s.cyc.image (bank * piWindow + off) n
def State.piWrite (s : State) (bank off : Nat) (b : List Byte) : State :=
  s.onCyc fun x => { x with image := Memory.writeAll x.image (bank * piWindow + off) b }

/-! Slots. -/

/-- An outbound slot's buffers and status. -/
def State.oslot (s : State) (n : Nat) : OutSt := Tab.get (fun _ => {}) s.cyc.out n
def State.onOslot (s : State) (n : Nat) (f : OutSt → OutSt) : State :=
  s.onCyc fun x => { x with out := Tab.set (fun _ => {}) x.out n (f (s.oslot n)) }

/-- An inbound status entry of a bank. -/
def State.islot (s : State) (bank n : Nat) : InSt := Tab.get (fun _ => {}) s.cyc.inb (4096 * bank + n)
def State.onIslot (s : State) (bank n : Nat) (f : InSt → InSt) : State :=
  s.onCyc fun x => { x with inb := Tab.set (fun _ => {}) x.inb (4096 * bank + n) (f (s.islot bank n)) }

/-- Configurations of a bank. -/
def Sched.o (x : Sched) (n : Nat) : OSlotCfg := Tab.get (fun _ => {}) x.osl n
def Sched.i (x : Sched) (n : Nat) : ISlotCfg := Tab.get (fun _ => {}) x.isl n

/-- A template, 64 bytes; one never written is zero. -/
def Sched.template (x : Sched) (n : Nat) : List Byte :=
  let t := Tab.get (fun _ => []) x.tpl n
  t.take 64 ++ List.replicate (64 - t.length) 0

/-- The write buffer and the launch buffer of an outbound slot (R182). -/
def OutSt.wbank (o : OutSt) : Nat := b2n o.wb1
def OutSt.lbank (o : OutSt) : Nat := 1 - b2n o.wb1

/-- A sealed slot swaps its buffers (R182); a seal of the tick itself is not seen (R22). -/
def OutSt.swap (o : OutSt) (now : Raw) : OutSt :=
  if o.sealed && decide (o.sealAt ≠ now) then { o with wb1 := !o.wb1, sealed := false, ever := true, newer := true } else o

/-- ostat (R183). -/
def OutSt.ostat (o : OutSt) : Nat :=
  b2n o.sealed + b2n o.stale * 2 + b2n o.skipped * 4 + b2n o.late * 8 + b2n o.blocked * 16

/-- istat (R190). -/
def InSt.istat (i : InSt) : Nat := b2n i.fresh + b2n i.late * 2 + b2n i.early * 4 + b2n i.dup * 8 + b2n i.lenErr * 16

/-- The outbound status entry as a bank's window shows it (R183): the SEQ word of the bank, and the module's part. -/
def State.ostBytes (s : State) (bank n : Nat) : List Byte :=
  let o := s.oslot n
  s.piBytes bank (ostBase + 16 * n) 4 ++ leBytes 2 o.lastSeq ++ [BitVec.ofNat 8 o.ostat, 0] ++ leBytes 8 o.ts

/-- The inbound status entry of a bank (R190). -/
def State.istBytes (s : State) (bank n : Nat) : List Byte :=
  let i := s.islot bank n
  leBytes 2 i.seq ++ [BitVec.ofNat 8 i.istat, BitVec.ofNat 8 (i.port % 32)] ++ leBytes 2 i.len ++ [0, 0] ++ leBytes 8 i.ts

/-- The active slot whose payload area holds an offset of the payload area: inbound or not, and its number.
Conventions: log 38. -/
def State.slotAt (s : State) (off : Nat) : Option (Bool × Nat) :=
  match s.cyc.act.osl.find? fun x => x.2.valid && decide (x.2.poff ≤ off) && decide (off < x.2.poff + x.2.size) with
  | some x => some (false, x.1)
  | none => (s.cyc.act.isl.find? fun x => x.2.valid && decide (x.2.poff ≤ off) && decide (off < x.2.poff + x.2.size)).map fun x => (true, x.1)

/-- The header (R178). -/
def State.piHeader (s : State) : List Byte := leBytes 8 (BitVec.ofInt 64 s.cyc.rdCycle).toNat ++ leBytes 8 s.cyc.start ++ List.replicate 48 0

/-- The bank a window shows of an outbound or an inbound slot (R179). -/
def State.outBank (s : State) (engine : Bool) (n : Nat) : Nat := if engine then (s.oslot n).lbank else (s.oslot n).wbank
def State.inBank (s : State) (engine : Bool) : Nat := if engine then s.cyc.fill else 1 - s.cyc.fill

/-- One byte of a window (R178, R179); payload bytes of no slot read zero. Conventions: log 38. -/
def State.piByte (s : State) (engine : Bool) (off : Nat) : Byte :=
  if off < ostBase then s.piHeader.getD off 0
  else if off < istBase then
    let n := (off - ostBase) / 16
    (s.ostBytes (s.outBank engine n) n).getD ((off - ostBase) % 16) 0
  else if off < payBase then (s.istBytes (s.inBank engine) ((off - istBase) / 16)).getD ((off - istBase) % 16) 0
  else match s.slotAt (off - payBase) with
    | none => 0
    | some (false, n) => (s.piBytes (s.outBank engine n) off 1).getD 0 0
    | some (true, _) => (s.piBytes (s.inBank engine) off 1).getD 0 0

/-- Bytes of the image as BAR2 shows it (R178). -/
def State.imageBytes (s : State) (a n : Nat) : List Byte :=
  (List.range n).map fun i => s.piByte (decide (piWindow ≤ a + i)) ((a + i) % piWindow)

/-- A byte of the image's physical banks (R406). -/
def State.bankByte (s : State) (a : Nat) : Byte :=
  let bank := a / piWindow
  let off := a % piWindow
  if off < ostBase then s.piHeader.getD off 0
  else if off < istBase then (s.ostBytes bank ((off - ostBase) / 16)).getD ((off - ostBase) % 16) 0
  else if off < payBase then (s.istBytes bank ((off - istBase) / 16)).getD ((off - istBase) % 16) 0
  else (s.piBytes bank off 1).getD 0 0

/-- A host's dword write to the host window (R179 to R183): `c` owns the slot, or it is ignored. Conventions: log 38. -/
def State.piStore (s : State) (c off : Nat) (v : Word) : State :=
  if off < ostBase then s
  else if off < istBase then
    let n := (off - ostBase) / 16
    if (off - ostBase) % 16 = 0 ∧ s.owner 2 n = some c then
      (s.piWrite (s.oslot n).wbank off (leBytes 4 v.toNat)).onOslot n fun o => { o with sealed := true, sealAt := s.raw }
    else s
  else if off < payBase ∨ piWindow ≤ off then s
  else match s.slotAt (off - payBase) with
    | some (false, n) =>
      if s.owner 2 n = some c then
        (s.piWrite (s.oslot n).wbank off (leBytes 4 v.toNat)).onOslot n fun o => { o with sealed := false }
      else s
    | _ => s

/-! Banks and share CRCs (R192, R193). -/

/-- Entries as bytes (R174, R181, R188, R157). -/
def gateBytes (g : GateEntry) : List Byte := leBytes 4 g.offset ++ leBytes 3 g.duration ++ [g.mask]
def oslotBytes (o : OSlotCfg) : List Byte :=
  leBytes 2 (o.stream + b2n o.valid * 2 ^ 15) ++ leBytes 2 o.size ++ leBytes 4 o.poff ++ leBytes 4 (o.launch + b2n o.rep * 2 ^ 27)
    ++ leBytes 1 o.flagPos ++ leBytes 1 o.seqPos ++ [0, 0]
def islotBytes (i : ISlotCfg) : List Byte :=
  leBytes 2 i.size ++ leBytes 2 i.inOff ++ leBytes 4 (i.poff + b2n i.valid * 2 ^ 31) ++ leBytes 1 i.seqPos ++ List.replicate 7 0

/-- The items the share CRC covers, in order (R193). -/
def shareBytes (x : Sched) (str : Tab StreamEntry) (per : Nat) : List Byte :=
  (List.range 24 ++ [31]).flatMap (fun p => (gatesOf x.gate p).flatMap fun (g : Nat × GateEntry) => leBytes 1 p ++ leBytes 2 g.1 ++ gateBytes g.2)
    ++ (str.filter fun e => e.2.valid).flatMap (fun e => leBytes 2 e.1 ++ leBytes 22 (streamImage e.2))
    ++ (x.osl.filter fun o => o.2.valid).flatMap (fun o => leBytes 2 o.1 ++ oslotBytes o.2 ++ x.template o.1)
    ++ (x.isl.filter fun i => i.2.valid).flatMap (fun i => leBytes 2 i.1 ++ islotBytes i.2)
    ++ leBytes 4 per

/-- CYC_SHARE_CRC and CYC_PEND_SHARE_CRC. -/
def State.shareCrc (s : State) : Word := crc32c (shareBytes s.cyc.act s.tbl.strA (s.rd Reg.cycPeriod).toNat)
def State.pendShareCrc (s : State) : Word := crc32c (shareBytes s.cyc.pend s.tbl.strP (s.rd Reg.cycPeriodPend).toNat)

/-- The pending banks differ from the active ones (R203). -/
def State.pendDirty (s : State) : Bool :=
  s.cyc.pend != s.cyc.act || s.tbl.strP != s.tbl.strA || s.rd Reg.cycPeriodPend != s.rd Reg.cycPeriod

/-- CYC_STAT as read (R203). -/
def State.cycStatWord (s : State) : Word :=
  putFld (putFld (s.rd Reg.cycStat) 2 1 (b2n s.cyc.armed.isSome)) 3 1 (b2n s.pendDirty)

/-- The pending banks of rein 14 are restored (R192); while a commit is armed that waits. -/
def State.restoreCycle (s : State) : State :=
  if s.cyc.armed.isSome then s.onCyc fun x => { x with lost14 := true }
  else (s.onCyc fun x => { x with pend := x.act }).wr Reg.cycPeriodPend (s.rd Reg.cycPeriod)

/-! The engine's state (R199). -/

/-- CYC_STAT.state changes with source 196; out of RUNNING no gate entry and no connection is in force (R175).
Conventions: log 39. -/
def State.setEngine (s : State) (n : Nat) : State :=
  if s.fld Reg.cycStat 0 2 = n then s
  else
    let t := (s.setFld Reg.cycStat 0 2 n).raise 196
    if n = 2 then t
    else
      (t.onSw fun x => { x with gates := [], conns := [] }).onCyc fun x =>
        { x with out := x.out.map fun o => (o.1, { o.2 with cap := none }) }

/-- The bound generator, if one is bound. -/
def State.boundGen (s : State) : Option Nat := if s.bitAt Reg.cycCtrl 8 then some (s.fld Reg.cycCtrl 4 4) else none

/-- An armed commit is cancelled (R196): the completion carries the cause, and banks whose reins were lost are restored
(R192). -/
def State.cancelCommit (s : State) (why : Nat) : State :=
  match s.cyc.armed with
  | none => s
  | some c =>
    let x := s.cyc
    let t := s.onCyc fun y => { y with armed := none, lost10 := false, lost14 := false }
    let t := if x.lost14 then t.restoreCycle else t
    let t := if x.lost10 then t.restoreStreams else t
    let t := (t.stick Reg.cycStat 9).raise 194
    (t.complete 0x0710 c.k St.state [why]).complete 0x0790 c.k St.state [why]

/-- The bound generator is disarmed, reprogrammed or freed (R199, R202): RUNNING becomes WAIT and an armed commit is
cancelled; `host` says that the module does not arm it again (R200). Conventions: log 39. -/
def State.genLost (s : State) (g : Nat) (host : Bool) : State :=
  if s.boundGen = some g then
    let t := if host then s.onCyc fun x => { x with handsOff := true, armDue := false } else s
    let t := if t.running then t.setEngine 1 else t
    t.cancelCommit 3
  else s

/-- An epoch reset as the engine takes it (R173, R196). -/
def State.cycleEpoch (s : State) : State :=
  let t := if s.running then (s.stick Reg.cycStat 8).setEngine 1 else s
  t.cancelCommit 2

/-! The checks of a commit (R195). -/

/-- Time of a frame on a port in a mode, first bit to last, in 1/5 tick (R45, R186). -/
def State.lineFifths (s : State) (p : Nat) (m : PortMode) (n : Nat) : Nat :=
  match m with
  | .native25 => frameBeats n * 8
  | .native10 => frameBeats n * 20
  | .std25 => n * 2
  | .std10 => n * 5
  | .std1g => n * 50
  | .sgmii =>
    let v := s.fld (Reg.portPhyStat p) 5 2
    n * (if v = 0 then 5000 else if v = 1 then 500 else 50)

/-- The same as the checks judge it, with one beat more on a native port (R186). -/
def State.judgedTime (s : State) (p n : Nat) : Nat :=
  let m := if s.bitAt (Reg.portPhyCtrl p) 0 then (s.pt p).mode else .native25
  s.lineFifths p m n + (match m with
    | .native25 => 8
    | .native10 => 20
    | _ => 0)

/-- Spans that do not meet, given in order: the index of the first that starts before the one ahead of it ends. -/
def overlapAt : List (Nat × Nat × Nat) → Nat → Option Nat
  | [], _ => none
  | (a, b, i) :: t, e => if a < e then some i else overlapAt t b

/-- A span put in its place by start. -/
def insertSpan (x : Nat × Nat × Nat) : List (Nat × Nat × Nat) → List (Nat × Nat × Nat)
  | [] => [x]
  | y :: t => if y.1 ≤ x.1 then y :: insertSpan x t else x :: y :: t

/-- A list of spans by start. -/
def byStart (l : List (Nat × Nat × Nat)) : List (Nat × Nat × Nat) := l.foldl (fun t x => insertSpan x t) []

/-- Spans in a cycle of length `per`: none overlaps the next, and the last does not reach into the first of the next
cycle. -/
def cyclicOverlap (l : List (Nat × Nat × Nat)) (per : Nat) : Option Nat :=
  match byStart l with
  | [] => none
  | (a, b, i) :: t =>
    match overlapAt t b with
    | some j => some j
    | none => match t.getLast? with
      | none => none
      | some (_, e, j) => if a + per < e then some j else none

/-- The first failing check, with its rule and its index: gate tables (R175, R177). -/
def checkGates (x : Sched) (per : Nat) : Option (Nat × Nat) :=
  (List.range 24 ++ [31]).findSome? fun p =>
    let l := gatesOf x.gate p
    let lim := if p = 31 then per - 2500 else per
    match l.find? fun (g : Nat × GateEntry) => decide (lim < g.2.offset + g.2.duration) || (decide (p = 31) && decide (g.2.mask ≠ 0x80)) with
    | some g => some (if p = 31 then 177 else 175, g.1)
    | none => (overlapAt (byStart (l.map fun (g : Nat × GateEntry) => (g.2.offset, g.2.offset + g.2.duration, g.1))) 0).map fun i => (175, i)

/-- Stream rules of R157 and R158 over the pending streams: the deadline, keys that differ, four to a set. -/
def checkStreams (l : List (Nat × StreamEntry)) : Option (Nat × Nat) :=
  l.findSome? fun x =>
    let e := x.2
    if e.deadline = 0 ∨ 31 < e.inPort then some (157, x.1)
    else if !e.macKey then none
    else if l.any fun y => decide (y.1 < x.1) && y.2.macKey && decide (y.2.dmac = e.dmac) && decide (y.2.vid = e.vid) then some (157, x.1)
    else if 4 ≤ (l.filter fun y => decide (y.1 < x.1) && y.2.macKey && decide (streamSet y.2 = streamSet e)).length then some (158, x.1)
    else none

/-- A stream's window on a port: its pending entry (R176). -/
def windowOf (x : Sched) (p w : Nat) : Option GateEntry :=
  let g : GateEntry := Tab.get (fun _ => {}) x.gate (1024 * p + w)
  if g.duration ≠ 0 ∧ g.mask.getLsbD 7 then some g else none

/-- Ports 0 to 23 of an egress mask. -/
def gatedPorts (m : Word) : List Nat := (List.range 24).filter fun p => bit m p

/-- The launches of the pending banks: slot, configuration, stream entry, by launch offset. -/
def State.launches (s : State) : List (Nat × OSlotCfg × StreamEntry) :=
  (s.cyc.pend.osl.filter fun x => x.2.valid).map fun x => (x.1, x.2, s.streamP x.2.stream)

/-- One launch fits its stream, its ports and its windows (R181, R186). -/
def State.checkLaunch (s : State) (per n : Nat) (o : OSlotCfg) (e : StreamEntry) : Option (Nat × Nat) :=
  let len := 68 + o.size
  if !e.valid || decide (e.inPort ≠ 31) || decide (per ≤ o.launch) then some (181, n)
  else if (List.range 31).any fun p => bit e.egress p && decide (p < 28) && decide (s.fld (Reg.portMaxfrm p) 0 14 < len) then some (186, n)
  else if (gatedPorts e.egress).any fun p => match windowOf s.cyc.pend p e.window with
      | none => true
      | some g => decide (o.launch < g.offset) || decide ((g.offset + g.duration) * 5 < o.launch * 5 + s.judgedTime p len) then some (186, n)
  else none

/-- The payload areas of all slots, by offset (R186). Conventions: log 38. -/
def payloadAreas (x : Sched) : List (Nat × Nat × Nat) :=
  ((x.osl.filter fun o => o.2.valid).map fun o => (o.2.poff, o.2.poff + o.2.size, o.1))
    ++ (x.isl.filter fun i => i.2.valid).map fun i => (i.2.poff, i.2.poff + i.2.size, i.1)

/-- The checks of the pending banks (R195), in the order of their rules' statements. -/
def State.checkPending (s : State) : Option (Nat × Nat) :=
  let per := (s.rd Reg.cycPeriodPend).toNat
  let str := s.tbl.strP.filter fun x => x.2.valid
  let ls := s.launches
  match checkGates s.cyc.pend per with
  | some r => some r
  | none => match checkStreams str with
  | some r => some r
  | none => match ls.findSome? fun l => s.checkLaunch per l.1 l.2.1 l.2.2 with
  | some r => some r
  | none =>
    match cyclicOverlap (ls.map fun l => (l.2.1.launch, l.2.1.launch + (68 + l.2.1.size + 7) / 8 + 4, l.1)) per with
    | some i => some (186, i)
    | none =>
      match (List.range 24).findSome? fun p =>
          cyclicOverlap ((ls.filter fun l => bit l.2.2.egress p).map fun l =>
            (l.2.1.launch * 5, l.2.1.launch * 5 + s.judgedTime p (68 + l.2.1.size), l.1)) (per * 5) with
      | some i => some (186, i)
      | none =>
        match str.find? fun x => (gatedPorts x.2.egress).any fun p => (windowOf s.cyc.pend p x.2.window).isNone with
        | some x => some (176, x.1)
        | none => (overlapAt (byStart (payloadAreas s.cyc.pend)) 0).map fun i => (186, i)

/-! Cycle numbers (R171). -/

/-- The output time now as a count of ticks. -/
def State.netTicks (s : State) : Int := s.outAt (s.now * 256) * 5 / (4 * 2 ^ 32)

/-- The start of cycle `k`, by the P and φ in force. Conventions: log 37. -/
def State.cycleAt (s : State) (k : Int) : Int := k * ((s.rd Reg.cycPeriod).toNat : Int) + s.cyc.phase

/-- The cycle in progress at a tick of network time (R171). -/
def State.cycleOf (s : State) (t : Int) : Int := (t - s.cyc.phase) / max 1 ((s.rd Reg.cycPeriod).toNat : Int)

/-- The cycle number a command gives: the table of R195 gives 8 bytes; cycles before the phase are negative (R171).
Conventions: log 37. -/
def cycleNum (k : Nat) : Int := (BitVec.ofNat 64 k).toInt

/-- The active domain is LOCKED. -/
def State.locked (s : State) : Bool := decide (s.domState s.tim.active = 2)

/-- Every UP native port with a class-7 entry agrees (R199). -/
def State.agreedPorts (s : State) (needHalter : Bool) : Bool :=
  (List.range 24).all fun p =>
    !(s.native p && (s.pt p).up && (gatesOf s.cyc.act.gate p).any fun g => g.2.mask.getLsbD 7)
      || ((s.bitAt (Reg.portHalterStat p) 0 || !needHalter) && !s.bitAt (Reg.portHalterStat p) 1 && !s.bitAt (Reg.portHalterStat p) 2)

end Sys2Proof.Machine
end

