-- ==== Sys2Proof/Machine/TioOps.lean ====
section
/-! DEFINITION. Timing I/O as operations: pins and their release (R296, R297, R314), trigger generators (R308 to R313)
and interval units (R299 to R307). -/

namespace Sys2Proof.Machine

/-- An interval unit, and one changed. -/
def State.unit (s : State) (u : Nat) : IuSt := Tab.get (fun _ => {}) s.iu u
def State.onUnitSt (s : State) (u : Nat) (f : IuSt → IuSt) : State :=
  { s with iu := Tab.set (fun _ => {}) s.iu u (f (s.unit u)) }

/-- A trigger generator, and one changed. -/
def State.gen (s : State) (g : Nat) : TgSt := Tab.get (fun _ => {}) s.tg g
def State.onGen (s : State) (g : Nat) (f : TgSt → TgSt) : State :=
  { s with tg := Tab.set (fun _ => {}) s.tg g (f (s.gen g)) }

/-- The pin that serves a function of a unit or generator (R296). -/
def State.pinOf (s : State) (func index : Nat) : Option Nat :=
  (List.range 16).find? fun n => decide (s.fld (Reg.tioBridle n) 0 4 = func) && decide (s.fld (Reg.tioBridle n) 4 4 = index)

/-! Interval units. -/

/-- IU_STAT bits of a unit: armed, started, and the calibration bits. -/
def State.iuArmed (s : State) (u : Nat) : Bool := s.bitAt (Reg.iuStat u) 0
def State.iuCal (s : State) (u : Nat) : Bool := s.bitAt (Reg.iuStat u) 2

/-- The unit disarms; a measurement under way is dropped. -/
def State.iuDisarm (s : State) (u : Nat) : State :=
  (s.setFld (Reg.iuStat u) 0 2 0).onUnitSt u fun x => { x with start := none, hold := false }

/-- An arming (R299): it changes nothing on an armed or a calibrating unit, and is held while a conversion or the dead
time runs (R302). Conventions: log 41. -/
def State.iuArm (s : State) (u : Nat) : State :=
  if s.iuCal u || s.iuArmed u then s
  else if (s.unit u).dead.isSome || (s.unit u).stop.isSome then s.onUnitSt u fun x => { x with hold := true }
  else (s.setFld (Reg.iuStat u) 0 2 1).onUnitSt u fun x => { x with armAt := s.now + 1, start := none, hold := false }

/-- The time of an edge in 1/512 tick: it lies k codes before the CCLK edge `e` (R302). -/
def edgeTime (e k : Nat) : Nat := (e - 1) * 512 + (512 - k)

/-- An edge as a result reports it, in 1/512 tick: its code corrected through the unit's table once there is one; the table
is the calibration's, a free value (R302, R305). Conventions: log 41. -/
def State.edgeRead (s : State) (u input e k : Nat) : Nat :=
  match (s.unit u).table with
  | none => edgeTime e k
  | some n => (e - 1) * 512 + Config.calCode u input n k % 512

/-- A result is queued, or dropped at a full queue (R307). Conventions: log 41. -/
def State.iuQueue (s : State) (u : Nat) (ovf exp : Bool) (start : Nat × Nat × Nat) (stop : Option (Nat × Nat)) : State :=
  let x := s.unit u
  let t := s.onUnitSt u fun y => { y with seq := (y.seq + 1) % 256 }
  if 16 ≤ x.queue.length then
    ((t.count (Reg.iuOverruns u) 191).stick (Reg.iuStat u) 16).raiseAt 184 0 u
  else
    let a := s.edgeRead u 0 start.1 start.2.1
    let b := match stop with
      | some (e, k) => s.edgeRead u 1 e k
      | none => 0
    let r : IuRes :=
      { flags := 1 + b2n ovf * 2 + b2n exp * 4 + b2n (!s.bitAt (Reg.iuStat u) 4) * 8 + s.fld (Reg.iuStat u) 3 1 * 16,
        seq := x.seq, startFine := a % 512, startRaw := a / 512, stopFine := b % 512, stopRaw := b / 512,
        interval := if stop.isSome then (b + 2 ^ 48 - a) % 2 ^ 48 else 0, epoch := start.2.2 % 65536 }
    ((((t.onUnitSt u fun y => { y with queue := y.queue ++ [r] }).count (Reg.iuResults u) 191).perf (0x170 + u))).raise (180 + u)

/-- IU_STAT as read: q_count is live. -/
def State.iuStatWord (s : State) (u : Nat) : Word := putFld (s.rd (Reg.iuStat u)) 8 5 (s.unit u).queue.length

/-- A result as eight words, bytes 0 to 31 (R307). -/
def IuRes.words (r : IuRes) : List Word :=
  dwords 8 (r.flags + r.seq * 2 ^ 8 + r.startFine * 2 ^ 16 + r.startRaw % 2 ^ 64 * 2 ^ 32 + r.stopFine * 2 ^ 96
    + r.stopRaw % 2 ^ 64 * 2 ^ 128 + r.interval * 2 ^ 192 + r.epoch * 2 ^ 240)

/-! Trigger generators. -/

/-- TG_STAT.armed, TG_CTRL.tb and dest. -/
def State.tgArmed (s : State) (g : Nat) : Bool := s.bitAt (Reg.tgStat g) 0
def State.tgNet (s : State) (g : Nat) : Bool := s.bitAt (Reg.tgCtrl g) 1
def State.tgDest (s : State) (g : Nat) : Nat := s.fld (Reg.tgCtrl g) 2 2

/-- The period and the pulse width in force (R310, R315). -/
def State.tgPeriod (s : State) (g : Nat) : Nat := (s.rd (Reg.tgPeriodLo g)).toNat + s.fld (Reg.tgPeriodHi g) 0 7 * 2 ^ 32
def State.tgWidth (s : State) (g : Nat) : Nat :=
  let w := max 1 (s.fld (Reg.tgWidth g) 0 24)
  let p := s.tgPeriod g
  if 0 < p ∧ p ≤ w then p - 1 else w

/-- A 64-bit number in a register pair. -/
def State.wr64 (s : State) (lo hi v : Nat) : State := (s.wr lo (w32 v)).wr hi (w32 (v / 2 ^ 32))
def State.rd64 (s : State) (lo hi : Nat) : Nat := (s.rd lo).toNat + (s.rd hi).toNat * 2 ^ 32

/-- The target of the next firing in 1/256 tick of raw time (R309). -/
def State.tgRaw (s : State) (g : Nat) : Nat :=
  let c := (s.gen g).cur
  if s.tgNet g then (s.rawOfTicks (c / 256 : Nat) + (c % 256 : Nat)).toNat else c

/-- In NETWORK, TG_TGT shows the converted target (R309, R315). -/
def State.tgShow (s : State) (g : Nat) : State :=
  if s.tgNet g then s.wr64 (Reg.tgTgtLo g) (Reg.tgTgtHi g) (s.tgRaw g / 256 % 2 ^ 64) else s

/-- A disarm (R313): an active pulse ends, and the engine loses a bound generator. Conventions: log 40. -/
def State.tgDisarm (s : State) (g : Nat) (host : Bool) : State :=
  ((s.setFld (Reg.tgStat g) 0 1 0).onGen g fun x => { x with late := false, pulse := none }).genLost g host

/-- The test of the target (R312): 0 it lies ahead, 1 late, 2 missed. Conventions: log 40. -/
def State.tgTest (s : State) (g : Nat) : State × Nat :=
  let t := s.tgShow g
  let d := dueIn (s.tgRaw g / 256) s.now
  if 0 < d then (t.onGen g fun x => { x with late := false }, 0)
  else if -1250000 < d then (((t.onGen g fun x => { x with late := true }).stick (Reg.tgStat g) 1).raiseAt 176 0 g, 1)
  else (((t.stick (Reg.tgStat g) 2).raiseAt 177 0 g).tgDisarm g false, 2)

/-- An arming from the registers (R313): the target is taken, and TG_LEFT the count. Conventions: log 40. -/
def State.tgStart (s : State) (g : Nat) : State × Nat :=
  let n := if s.tgNet g then s.rd64 (Reg.tgNtLo g) (Reg.tgNtHi g) else s.rd64 (Reg.tgTgtLo g) (Reg.tgTgtHi g)
  let left := if s.tgPeriod g = 0 then 0 else (s.rd (Reg.tgCount g)).toNat
  ((((s.setFld (Reg.tgStat g) 0 1 1).wr (Reg.tgLeft g) (w32 left)).onGen g fun _ =>
    { cur := n * 256 + s.fld (Reg.tgFine g) 0 8 })).tgTest g

/-- The settings of an arming written to the registers. Conventions: log 40. -/
def State.tgLoad (s : State) (g : Nat) (net : Bool) (dest target fine period count width : Nat) : State :=
  let t := (s.setFld (Reg.tgCtrl g) 1 1 (b2n net)).setFld (Reg.tgCtrl g) 2 2 dest
  let t := if net then t.wr64 (Reg.tgNtLo g) (Reg.tgNtHi g) target else t.wr64 (Reg.tgTgtLo g) (Reg.tgTgtHi g) target
  let t := (t.setFld (Reg.tgFine g) 0 8 fine).wr64 (Reg.tgPeriodLo g) (Reg.tgPeriodHi g) period
  (t.wr (Reg.tgCount g) (w32 count)).setFld (Reg.tgWidth g) 0 24 width

/-- TG_CTRL as read: arm shows whether the generator is armed. -/
def State.tgCtrlWord (s : State) (g : Nat) : Word := putFld (s.rd (Reg.tgCtrl g)) 0 1 (s.fld (Reg.tgStat g) 0 1)

/-- A write to TG_CTRL by the owner (R309, R310, R313). Conventions: log 40. -/
def State.writeTgCtrl (s : State) (g : Nat) (v : Word) : State :=
  let old := s.tgCtrlWord g
  if s.tgArmed g then
    -- dest and tb are frozen
    let v := putFld v 1 3 (getFld old 1 3)
    let t := s.wr (Reg.tgCtrl g) v
    if bit v 0 then (if v = old then t else t.genLost g true) else t.tgDisarm g true
  else
    let t := s.wr (Reg.tgCtrl g) v
    let p := t.tgPeriod g
    let ok : Bool := bit v 0 && !(decide (1 ≤ p) && decide (p ≤ 7)) && (!bit v 1 || t.locked)
    let t := if putFld v 0 1 0 = putFld old 0 1 0 && !ok then t else t.genLost g true
    if ok then (t.tgStart g).1 else t

/-- A write to another register of a generator by its owner (R309, R313); `frozen` says that arming freezes it.
Conventions: log 40. -/
def State.writeGen (s : State) (g a : Nat) (v : Word) : State :=
  let tgt : Bool := decide (a = Reg.tgTgtLo g) || decide (a = Reg.tgTgtHi g)
  if (s.tgArmed g && decide (a ≠ Reg.tgFine g)) || (tgt && s.tgNet g) || decide (s.rd a = v) then s
  else (s.wr a v).genLost g true

/-- A unit is armed by a firing of its gate generator (R299, R308). -/
def State.armByGen (s : State) (g : Nat) : State :=
  (List.range 4).foldl (fun t u =>
    if t.fld (Reg.iuCfg u) 0 2 = 2 ∧ t.fld (Reg.iuCfg u) 2 4 = g then t.iuArm u else t) s

/-- The last firing has been made (R310). -/
def State.tgDone (s : State) (g : Nat) : State :=
  let t := (s.stick (Reg.tgStat g) 3).raiseAt 178 0 g
  ((t.setFld (Reg.tgStat g) 0 1 0).onGen g fun x => { x with late := false }).genLost g false

/-- Both edges of the pulse a firing makes, at the pad, in 1/256 tick: the fine part delays them on an LVDS pin, and on
an LVCMOS pin they fall on the nearest tick (R311). -/
def State.pulseEdges (s : State) (g : Nat) : Nat × Nat :=
  let r := s.tgRaw g
  let r := if (s.gen g).late then s.now * 256 + r % 256 else r
  let r := match s.pinOf 4 g with
    | some n => if n < 8 then r else (r + 128) / 256 * 256
    | none => r
  (r, r + s.tgWidth g * 256)

/-- A firing (R308, R310, R312): the destination acts, the count falls, and the next target is tested.
Conventions: log 40. -/
def State.tgFire (s : State) (g : Nat) : State :=
  let late := (s.gen g).late
  let t := (s.count (Reg.tgFired g) 191).perf (0x160 + g)
  let t := match s.tgDest g with
    | 0 => t.onGen g fun x => { x with pulse := some (s.pulseEdges g) }
    | 3 => t.raise (160 + g)
    | _ => t
  let t := t.armByGen g
  let per := s.tgPeriod g
  if per = 0 then t.tgDone g
  else
    let counted : Bool := decide (s.rd (Reg.tgCount g) ≠ 0)
    let d := dueIn (s.tgRaw g / 256) s.now
    -- passed-over firings count without acting
    let j := if late then ((-d).toNat / per + 1) else 1
    let left := (s.rd (Reg.tgLeft g)).toNat
    if counted && decide (left ≤ j) then (t.wr (Reg.tgLeft g) 0).tgDone g
    else
      let t := if counted then t.wr (Reg.tgLeft g) (w32 (left - j)) else t
      ((t.onGen g fun x => { x with cur := x.cur + j * per * 256 }).tgTest g).1

/-- An epoch reset disarms every generator (R219, R309). -/
def State.disarmAll (s : State) : State :=
  let on := (List.range 16).filter fun g => s.tgArmed g
  let t := on.foldl (fun t g => (t.stick (Reg.tgStat g) 4).tgDisarm g false) s
  t.raiseIf (!on.isEmpty) 179

/-- Network targets are converted to raw time again (R227). -/
def State.reconvert (s : State) : State :=
  (List.range 16).foldl (fun t g => if t.tgArmed g then t.tgShow g else t) s

/-- The new period is loaded into the bound generator, whose next target is the tick `next` (R172, R197). -/
def State.loadPeriod (s : State) (g per : Nat) (next : Int) : State :=
  let t := s.wr64 (Reg.tgPeriodLo g) (Reg.tgPeriodHi g) per
  if s.tgArmed g then (t.onGen g fun x => { x with cur := next.toNat * 256 }).tgShow g else t

/-! Pins, claims and allocations. -/

/-- A pin returns to free (R297). -/
def State.freePin (s : State) (n : Nat) : State := s.wr (Reg.tioBridle n) 0

/-- The pins of a unit or a generator return to free (R314). -/
def State.freePins (s : State) (funcs : List Nat) (index : Nat) : State :=
  funcs.foldl (fun t f => match t.pinOf f index with
    | some n => t.freePin n
    | none => t) s

/-- A pin, a generator or a unit returns to the free set (R314, R338). -/
def State.freeResource (s : State) (kind i : Nat) : State :=
  if kind = 4 then s.freePin i
  else if kind = 5 then
    let t := if s.tgArmed i then s.tgDisarm i true else s.genLost i true
    (t.freePins [4] i).setFld (Reg.tgStat i) 16 4 0
  else if kind = 6 then
    let t := (s.iuDisarm i).onUnitSt i fun x => { x with queue := [], stop := none }
    (t.freePins [1, 2, 3] i).setFld (Reg.iuStat i) 24 4 0
  else s

/-- A write to TIO_BRIDLEn by its owner (R298): pol and term may change; one that changes func or index is ignored. -/
def State.writeBridle (s : State) (n : Nat) (v : Word) : State :=
  let old := s.rd (Reg.tioBridle n)
  if getFld v 0 8 = getFld old 0 8 then s.wr (Reg.tioBridle n) (putFld v 16 4 (getFld old 16 4)) else s

/-- TIO_LEVEL as read (R315): an output shows what its generator drives; what stands on any other pin is not the
block's. Conventions: log 41. -/
def State.tioLevelWord (s : State) : Word :=
  (List.range 16).foldl (fun w n =>
    let b : Bool := if s.fld (Reg.tioBridle n) 0 4 = 4 then
        let g := s.fld (Reg.tioBridle n) 4 4
        (s.gen g).pulse.isSome != s.bitAt (Reg.tgCtrl g) 4
      else Config.pinLevel n s.freeCtr
    if b then orBit w n else w) 0

end Sys2Proof.Machine
end

