-- ==== Sys2Proof/Machine/Whole.lean ====
section
/-! DEFINITION. Operations on the whole block: releasing reins with their staged state (R343, R345), context
resets (R339), module resets and restarts (R386, R387), freezes (R403), the double-write-guard effects
(R361) and what the firmware loads at boot (R389). -/

namespace Sys2Proof.Machine

/-- The defined opcodes (R334). -/
def opcodes : List Nat :=
  [0x0001, 0x0002, 0x0101, 0x0105, 0x0106, 0x0107, 0x0184, 0x0185, 0x0201, 0x0202, 0x0203, 0x0204, 0x0281, 0x0282, 0x0283, 0x0301, 0x0302, 0x0303, 0x0304, 0x0305, 0x0306, 0x0307, 0x0308, 0x0310, 0x0320, 0x0321, 0x0322, 0x0330, 0x0331, 0x0332, 0x0340, 0x0341, 0x0342, 0x0390, 0x0401, 0x0402, 0x0403, 0x0404, 0x0405, 0x0410] ++
   [0x0411, 0x0412, 0x0420, 0x0421, 0x0422, 0x0481, 0x0482, 0x0490, 0x0491, 0x0501, 0x0502, 0x0503, 0x0504, 0x0581, 0x0582, 0x0601, 0x0602, 0x0603, 0x0610, 0x0611, 0x0612, 0x0613, 0x0614, 0x0615, 0x0620, 0x0621, 0x0622, 0x0623, 0x0624, 0x0681, 0x0701, 0x0702, 0x0703, 0x0704, 0x0705, 0x0706, 0x0707, 0x0708, 0x0709, 0x0710] ++
   [0x0711, 0x0712, 0x0790, 0x0801, 0x0802, 0x0803, 0x0804, 0x0805, 0x0810, 0x0811, 0x0812, 0x0813, 0x0820, 0x0821, 0x0881, 0x0901, 0x0902, 0x0903, 0x0904, 0x0905, 0x0906, 0x0910, 0x0A00, 0x0A01, 0x0A02, 0x0A03, 0x0A04, 0x0A05, 0x0A06, 0x0A10, 0x0A11, 0x0A12, 0x0A20, 0x0A21, 0x0A90]

/-! Reins and contexts. -/

/-- An update session ends with its bank left invalid (R397). -/
def State.abortUpdate (s : State) : State :=
  match s.mgt.update with
  | none => s
  | some u =>
    let t := s.onMgt fun m =>
      { m with update := none, fwBanks := Tab.set (fun _ => {}) m.fwBanks u.bank {} }
    let t := (((t.complete 0x0801 0 St.state []).complete 0x0803 0 St.state []).setFld Reg.mgtUpdStat 0 3 0).setFld Reg.mgtUpdStat 8 24 0
    (t.raiseFw 252).logRec 0x100 8 [0, u.data.length]

/-- The staged state that goes with a rein is discarded (R345). -/
def State.discardStaged (s : State) (r : Nat) : State :=
  if 1 ≤ r ∧ r ≤ 6 then
    s.dropK fun a => decide (0x100000 + 0x8000 * (r - 1) ≤ a) && decide (a < 0x100000 + 0x8000 * r)
  else if r = 8 then
    s.dropK fun a => (decide (0x200000 ≤ a) && decide (a < 0x300000)) || (decide (0x700100 ≤ a) && decide (a < 0x700130))
  else if r = 10 then s.restoreStreams
  else if r = 14 then s.restoreCycle
  else if r = 16 then s.abortUpdate
  else s

/-- A rein is lost by expiry, reset or break: its staged state goes, and source 232 + c of the holder is
raised (R343). -/
def State.loseRein (s : State) (r : Nat) : State :=
  match s.rein r with
  | none => s
  | some x => ((s.setRein r none).discardStaged r).raise (232 + x.holder)

/-- Every rein of a context is lost. -/
def State.breakReins (s : State) (c : Nat) : State :=
  (List.range 64).foldl (fun t r => if t.holds c r then t.loseRein r else t) s

/-- The ring registers of a context and HCX_MAC take their reset values, and frames queued for its RX rings are
discarded (R112). -/
def State.resetRings (s : State) (c : Nat) : State :=
  let lo := 0x10000 + 0x1000 * c + 0x400
  let t := [2 * c, 2 * c + 1].foldl (fun u k =>
    (u.sw.ring k).foldl (fun v x => match v.sw.frame x.id with
      | some f => v.dropCopy (8 * hostPort c + f.cls) x
      | none => v) (u.setRing k [])) s
  { t.onCx c (fun x => { x with posted0 := [], posted1 := [], posted2 := [], posted3 := [], tx0 := [], tx1 := [], sopAt0 := none, sopAt1 := none }) with
    regs := t.regs.filter fun x => decide (x.1 < lo) || decide (lo + 0x100 ≤ x.1) }

/-- A reset of a context, in the order of R339; `rings` is false at a firmware restart (R387). -/
def State.ctxReset (s : State) (c : Nat) (rings : Bool) : State :=
  -- 2: commands received are discarded; 3: reins
  let a := (s.onCx c fun x => { x with held := [] }).breakReins c
  -- 4: queues, completions and the context's own status bits
  let b : State := { a with deferred := a.deferred.filter fun d => decide (d.ctx ≠ c) }
  let b := b.onCx c fun x => { x with replies := [], out := [], expSeq := none, repSeq := 0, sqTail := 0, msgWait := false }
  let b := if c < 4 then
      (((b.setFld (Reg.hcxQCtrl c) 0 1 0).wr (Reg.hcxSqHead c) 0).wr (Reg.hcxCqHead c) 0).wr (Reg.hcxCqTail c) 0
    else b
  let b := (List.range 8).foldl (fun t j => t.wr (Reg.evtStat c j) 0) (b.stick (Reg.hcxStat c) 10)
  -- 5: the level and the rings
  let d := b.onCx c fun x => { x with expert := false }
  if rings && decide (c < 4) then d.resetRings c else d

/-- HCX_STAT as read: fw_ready is live, and no command is executing between steps (R346). -/
def State.ctxStat (s : State) (c : Nat) : Word :=
  putFld (s.rd (Reg.hcxStat c)) 0 2 (b2n (s.fwOn && !s.bitAt Reg.mgtStat 1))

/-- A doorbell (R322, R323): a value outside the ring, or while the queues are off, is ignored. -/
def State.doorbell (s : State) (c : Nat) (v : Word) : State :=
  if s.bitAt (Reg.hcxQCtrl c) 0 && decide (getFld v 0 6 < s.fld (Reg.hcxSqSize c) 0 7) && decide (v.toNat < 64) then
    s.onCx c fun x => { x with sqTail := v.toNat }
  else s

/-- A write of HCX_CQ_HEAD (R323): the slots up to the new head are free again. A head outside the
written slots is ignored. -/
def State.cqHead (s : State) (c : Nat) (v : Word) : State :=
  let n := s.fld (Reg.hcxCqSize c) 0 7
  let k := (getFld v 0 6 + n - s.fld (Reg.hcxCqHead c) 0 6 % n) % n
  let used := (s.fld (Reg.hcxCqTail c) 0 6 + n - s.fld (Reg.hcxCqHead c) 0 6 % n) % n
  if getFld v 0 6 < n ∧ k ≤ used then
    ((s.wr (Reg.hcxCqHead c) (w32 (getFld v 0 6))).onCx c fun x => { x with replies := x.replies.drop k }).syncTail c
  else s

/-! Resets (R386, R387). -/

/-- A store write cut short leaves the bank being written invalid (R393). -/
def Mgt.cutShort (m : Mgt) : Mgt :=
  let m := match m.job with
    | some (.saved b) => { m with savedBanks := Tab.set (fun _ => {}) m.savedBanks b {} }
    | some (.config b) => { m with cfgBanks := Tab.set (fun _ => {}) m.cfgBanks b {} }
    | some (.factory b) => { m with cfgBanks := Tab.set (fun _ => {}) m.cfgBanks b {} }
    | _ => m
  let m := match m.update with
    | some u => { m with fwBanks := Tab.set (fun _ => {}) m.fwBanks u.bank {} }
    | none => m
  { m with job := none, update := none }

/-- What of the management state survives every reset: the store, the feeds and the log. -/
def Mgt.kept (m : Mgt) : Mgt :=
  { m.cutShort with fw := .down, readyAt := 0, watchdog := false, warm := false, freezeAt := none, frzUntil := 0, rolled := false,
                    pullups := 0, saved := {}, logMask := factoryMask, logSecond := 0, logCount := 0, suppressed := 0, hot := 0, calQ := [] }

/-- Registers that survive a module reset: CLK_OVEN, the DAC registers (R290), the core and DRAM
synthesisers (R289) and MGT_BOOT_CAUSE (R386). -/
def keptRegs : List Nat :=
  [Reg.clkOven, Reg.clkDac, Reg.clkDacHold, Reg.clkDacCentre, Reg.clkSynCfg 6, Reg.clkSynStat 6, Reg.clkSynBand 6,
   Reg.clkSynCfg 7, Reg.clkSynStat 7, Reg.clkSynBand 7, Reg.mgtBootCause, Reg.clkRsel]

/-- The block as a reset leaves it, with the registers named kept; the hold of R388 follows. -/
def State.fresh (s : State) (keep : List Nat) (raw : Raw) (uptime epoch : Nat) : State :=
  { State.reset with
    pending := s.pending, code := s.code, nodeId := s.nodeId, serial := s.serial, raw := raw, uptime := uptime,
    epoch := epoch, freeCtr := s.freeCtr, regs := s.regs.filter fun x => keep.contains x.1,
    mgt := { s.mgt.kept with hourAt := min s.mgt.hourAt uptime }, life := .held }

/-- MGT_BOOT_CAUSE.cause recorded (R408). -/
def State.cause (s : State) (n : Nat) : State := s.wr Reg.mgtBootCause (w32 n)

/-- A module reset (R386): the raw count continues and the epoch advances (R220). An armed switch and an armed commit are
cancelled, with sources 141 and 194 (R196, R225), and their completions are discarded. -/
def State.moduleReset (s : State) (cause : Nat) : State :=
  let s := s.raiseIf (s.live && s.tim.armed.isSome) 141
  let s := s.raiseIf (s.live && s.cyc.armed.isSome) 194
  let t := (s.fresh keptRegs s.raw s.uptime (s.epoch + 1)).cause cause
  -- R290: the DAC is held where a hold value was valid
  if s.bitAt Reg.clkDpllStat 5 then t.setFld Reg.clkDpllStat 0 2 3 else t

/-- The reset that ends a freeze or a thermal stop (R386, R407). -/
def State.freezeExit (s : State) : State :=
  (s.fresh [Reg.clkOven, Reg.clkRsel] 0 s.uptime 0).cause (if s.thermalStop then 4 else 3)

/-- A firmware restart (R387): every context is reset, and the hardware and its configuration stand; an update session ends.
Conventions: log 12. -/
def State.fwRestart (s : State) (cause : Nat) : State :=
  let a := ((List.range 8).foldl (fun t c => t.ctxReset c false) s).abortUpdate.setFld Reg.mgtUpdStat 0 3 0
  (a.onMgt fun m => { m.cutShort with fw := .down, warm := true, watchdog := decide (cause = 6), freezeAt := none }).setFld
    Reg.mgtBootCause 0 4 cause

/-! The double-write-guard effects (R361). -/

/-- An epoch reset, in one tick (R219). -/
def State.epochReset (s : State) : State :=
  let d := s.tim.active
  let was := s.domState d
  let t : State := { s with epoch := s.epoch + 1 }
  let t := (t.setFld (Reg.tsuDom d) 0 2 0).onDm d fun x => { x with agree := [], marks := [], inLock := 0, stepAt := t.now }
  let t := if was = 0 then t else ((t.stick (Reg.tsuDom d) 27).raise (128 + d)).setHold d false
  let t := t.cycleEpoch.disarmAll
  let t := match t.tim.armed with
    | none => t
    | some _ => (((({ t with tim := { t.tim with armed := none } } : State).complete 0x0410 0 St.state [3]).complete
        0x0490 0 St.state [3]).raise 141)
  let t : State := { t with tim := { t.tim with bridge := 0, slewing := false,
                                                segs := { raw := t.now, dom := d, bridge := 0, step := 0 } :: t.tim.segs } }
  (t.stick Reg.tsuState 10).raise 132

/-- A deliberate handover to converter `b` (0 A, 1 B) where its feed is in its window and it is not
already active (R385). -/
def State.feedOk (s : State) (b : Bool) : Bool :=
  let mv := if b then s.mgt.feedB else s.mgt.feedA
  let cut := if b then s.mgt.cutB else s.mgt.cutA
  decide (19200 ≤ mv ∧ mv ≤ 30000) && !cut

/-- The handover of R385 begins: both converters drive once the named one regulates. -/
def State.handTo (s : State) (b : Bool) : State :=
  if s.feedOk b && (b != s.mgt.activeB) then s.onMgt fun m => { m with handover := true, forced := true } else s

/-- A write or an erase of the store is running (R393, R408). -/
def State.storeBusy (s : State) : Bool :=
  s.mgt.job.isSome || decide (s.fld Reg.mgtUpdStat 0 3 = 1) || decide (s.fld Reg.mgtUpdStat 0 3 = 3)

/-- MEM_STORE_ERASE accepted (R394): one write or erase runs at a time (R393). Conventions: log 47. -/
def State.storeErase (s : State) (sec : Nat) : State :=
  if (decide (sec = 1) || decide (sec = 3) || decide (sec = 4)) && !s.storeBusy then
    s.onMgt fun m => { m with job := some (.erase sec) }
  else s

/-- An accepted pair takes effect (R361). Conventions: logs 43, 45. -/
def State.guardEffect (s : State) (a : Nat) (v : Word) : State :=
  let s := s.logRec 0x100 9 [a, v.toNat]
  if a = Reg.sysReset then
    if v = 1 then s.moduleReset 2 else if v = 2 then s.fwRestart 5 else s
  else if a = Reg.sysFreezeEn then
    let t := s.wr a v
    -- FRZ_N may stand asserted as en becomes 1 (R403)
    let t := if !s.bitAt a 0 && bit v 0 && decide (t.now < t.mgt.frzUntil) then t.onMgt fun m => { m with freezeAt := some t.now } else t
    if s.bitAt a 0 = bit v 0 then t else t.raise 10
  else if a = Reg.sysTapUnlock then
    if v = 1 then ({ s.wr a 1 with tap := { s.tap with unlocked := true } } : State).raise 11
    else if v = 0 then { s.wr a 0 with tap := { s.tap with unlocked := false } }
    else s
  else if a = Reg.tsuEpochReset then (if v = 1 then s.epochReset else s)
  else if a = Reg.mgtFeedForce then
    if getFld v 0 2 = 1 then s.handTo false else if getFld v 0 2 = 2 then s.handTo true else s
  else if a = Reg.mgtLaserOvr then
    let t := s.wr a v
    if s.rd a = v then t else t.raise 12
  else if a = Reg.memStoreErase then s.storeErase (getFld v 0 3)
  else s

end Sys2Proof.Machine
end

