-- ==== Sys2Proof/Machine/PortOps.lean ====
section
/-! DEFINITION. The ports: line states (R36 to R39), light and modes (R66 to R79), the halter (R52 to R55), and
what leaving UP does (R38, R339). -/

namespace Sys2Proof.Machine

/-- The rate family of a mode (R78): 0 for 25.78125 GBd, 1 for 10.3125, 2 for 1.25. -/
def PortMode.family : PortMode → Nat
  | .native25 | .std25 => 0
  | .native10 | .std10 => 1
  | .std1g | .sgmii => 2

/-- The family of a group's synthesiser; 3 acts as 0 (R292). Conventions: log 52. -/
def State.synFamily (s : State) (g : Nat) : Nat :=
  let f := s.fld (Reg.clkSynCfg g) 0 2
  if f = 3 then 0 else f

/-- The synthesiser is there (R2, R286). -/
def State.synThere (s : State) (n : Nat) : Bool := !(decide (s.code = .i08) && (decide (n = 1) || decide (n = 3)))

/-- N of a synthesiser (R286). -/
def State.synN (s : State) (n : Nat) : Nat :=
  if n = 6 then 80 else if n = 7 then 512
  else match s.synFamily n with
    | 0 => 825
    | 1 => 330
    | _ => 320

/-- The port is enabled (R85). -/
def State.enabled (s : State) (p : Nat) : Bool := s.bitAt (Reg.portPhyCtrl p) 0

/-- The group synthesiser of an F or L port has acquired (R38). -/
def State.synLocked (s : State) (p : Nat) : Bool := s.bitAt (Reg.clkSynStat (groupOf p)) 0

/-- A laser is lit, or a driver active (R66, R84); a port held by family_conflict stays dark (R78). -/
def State.txOn (s : State) (p : Nat) : Bool :=
  s.live && s.enabled p && !s.bitAt (Reg.portPhyCtrl p) 1 && !s.absent p
    && (decide (24 ≤ p) || (s.synLocked p && !s.bitAt (Reg.portPhyStat p) 4))
    && (decide (16 ≤ p) || (!s.bitAt Reg.mgtLaserOvr p && !s.bitAt (Reg.portPhyStat p) 8 && !(s.pt p).laserHeld))

/-- PORT_PHY_STAT as read: tx_on is live. -/
def State.phyStat (s : State) (p : Nat) : Word := putFld (s.rd (Reg.portPhyStat p)) 1 1 (b2n (s.txOn p))

/-- A sticky bit of a port's status sets and, where it was clear, raises source 64 + p (R85). -/
def State.portErr (s : State) (p a i : Nat) : State :=
  if s.bitAt a i then s else (s.stick a i).raiseAt (64 + p) ((s.stick a i).rd a) p

/-- PORT_LINE_STAT.state (R58). Conventions: log 19. -/
def State.lineState (s : State) (p : Nat) : Nat := s.fld (Reg.portLineStat p) 0 3

/-- The line state set. Conventions: log 19. -/
def State.setLine (s : State) (p n : Nat) : State := s.setFld (Reg.portLineStat p) 0 3 n

/-- A line error of one of the three kinds counts, and counts in the port's statistics (R56). -/
def State.lineErr (s : State) (a p : Nat) : State := (s.countP a p).countP (Reg.rxLineErr p) p

/-- In-band contexts bound to a port are reset when it leaves UP (R339). -/
def State.resetBound (s : State) (p : Nat) : State :=
  [6, 7].foldl (fun t c => if t.bitAt (Reg.hcxBind c) 7 && decide (t.fld (Reg.hcxBind c) 0 5 = p) then t.ctxReset c true else t) s

/-- Values buffered until the end of a frame on the port are applied (RWB/f, R359). -/
def State.applyF (s : State) (p : Nat) : State :=
  let mine := fun (a : Nat) => decide (a = Reg.portMaxfrm p) || decide (a = Reg.swcPcpMap p)
  (s.pendF.filter fun x => mine x.1).foldl (fun t x => t.wr x.1 x.2) { s with pendF := s.pendF.filter fun x => !mine x.1 }

/-- A write of a register buffered so: it applies at once while no frame is being received (R359). -/
def State.writeF (s : State) (p a : Nat) (v : Word) : State :=
  if (s.pt p).rxOpen then { s with pendF := Tab.put s.pendF a v } else s.wr a v

/-- A port leaves UP (R38): source 32 + p; halter bits and histories clear; preemptions end; a frame being received is bad
(R96). -/
def State.leaveUp (s : State) (p : Nat) : State :=
  if !(s.pt p).up then s
  else
    let x := s.pt p
    let t := s.onPt p fun y =>
      { y with up := false, marks := 0, misses := 0, rxSusp := false, rxOpen := false, halterDue := false, c7Ok := false,
               brokenAt := some s.now }
    let t := if x.rxSusp then t.suspendedLost p else t
    let t := if p < 24 then ((t.setFld (Reg.portHalterStat p) 0 8 0).setFld (Reg.portLineStat p) 4 2 0).stopTime p else t.dropUpstream p
    let t := (t.applyF p).purgeEgress p
    (t.raise (32 + p)).resetBound p

/-- A port enters UP (R38): the fault indication clears, and a halter with reply requested is due (R52). The taps an F port
froze are a free value (R71, log 51). -/
def State.enterUp (s : State) (p : Nat) : State :=
  if (s.pt p).up then s
  else
    let t := s.onPt p fun y => { y with up := true, hardFault := false, misses := 0, halterDue := true, halterAsk := true, segHeld := false, idleAt := s.now, cleanAt := s.uptime }
    let t := if p < 24 then (t.setLine p 3).setFld (Reg.portLineStat p) 3 1 0 else t
    let t := if p < 16 ∧ s.bitAt (Reg.portPhyStat p) 2 = false then
        ((t.setFld (Reg.portPhyStat p) 2 1 1).wr (Reg.portEqDig p) (BitVec.ofInt 32 (Config.measured t.freeCtr))).drawn
      else t
    t.raise (32 + p)

/-- A port in LOS with a signal goes to ACQUIRE where nothing holds it (R38, R67, R78); a laser fault and its hold keep it in
LOS although the partner's signal stands (DEDUCED, log 57). -/
def State.tryAcquire (s : State) (p : Nat) : State :=
  if decide (p < 24) && s.enabled p && s.synLocked p && s.bitAt (Reg.portPhyStat p) 0 && !s.bitAt (Reg.portPhyStat p) 4
      && !s.bitAt (Reg.portPhyStat p) 8 && !(s.pt p).laserHeld && decide (s.lineState p = 0) then
    (s.setLine p 1).onPt p fun y => { y with settleAt := s.now, marks := 0 }
  else s

/-- A port goes to LOS. -/
def State.toLos (s : State) (p : Nat) : State :=
  if p < 24 then
    let t := (s.leaveUp p).setLine p 0
    (t.setFld (Reg.portPhyStat p) 2 1 0).onPt p fun y => { y with marks := 0, pcs := false }
  else s.leaveUp p

/-- Bring-up from LOS (R38, R39, R78). -/
def State.restart (s : State) (p : Nat) : State := (s.toLos p).tryAcquire p

/-- A group synthesiser restarts in a family (R78, R288), its divider set (R292) and its attempts counted anew: every enabled port of the group goes to LOS, and
those of another family are held there by family_conflict. -/
def State.synRestart (s : State) (g fam : Nat) : State :=
  let t := s.setFld (Reg.clkSynCfg g) 0 2 fam
  let t := t.onClk fun x => { x with tries := Tab.set (fun _ => 0) x.tries g 0 }
  let t := ((t.setFld (Reg.clkSynStat g) 0 1 0).setFld (Reg.clkSynStat g) 1 1 1).setFld (Reg.clkSynStat g) 9 10 (t.synN g)
  if g < 6 then
    (List.range 4).foldl (fun u i =>
      let p := 4 * g + i
      if u.enabled p && !u.absent p then
        (u.toLos p).setFld (Reg.portPhyStat p) 4 1 (b2n (decide ((u.pt p).mode.family ≠ u.synFamily g)))
      else u) t
  else t

/-- PORT_SET or enable lifts the hold of a laser whose fault the host has cleared (R67). -/
def State.freeLaser (s : State) (p : Nat) : State :=
  if s.bitAt (Reg.portPhyStat p) 8 then s else s.onPt p fun y => { y with laserHeld := false }

/-- An F or L port is enabled (R78, R85): it starts bring-up in its mode. Where its group runs in another family, the port
is held by family_conflict beside another enabled port, and alone it gives the group its family. Conventions: log 52. -/
def State.bringUp (s : State) (p : Nat) : State :=
  let g := groupOf p
  let t := s.freeLaser p
  if (t.pt p).mode.family = t.synFamily g then (t.setFld (Reg.portPhyStat p) 4 1 0).restart p
  else if (List.range 4).any fun i => decide (4 * g + i ≠ p) && t.enabled (4 * g + i) then
    (t.toLos p).setFld (Reg.portPhyStat p) 4 1 1
  else t.synRestart g (t.pt p).mode.family

/-- A write of PORT_PHY_CTRL (R85): a change of enable from 0 to 1 starts bring-up; 1 to 0 stops the port. -/
def State.writePhyCtrl (s : State) (p : Nat) (v : Word) : State :=
  let was := s.enabled p
  let t := s.wr (Reg.portPhyCtrl p) v
  if !was && bit v 0 then
    (if p < 24 then t.bringUp p else t.onPt p fun y => { y with segHeld := false })
  else if was && !bit v 0 then (t.toLos p).flushEgress p
  else t

/-- The mode of a code of PORT_SET (R77). -/
def modeOf : Nat → Option PortMode
  | 1 => some .native25
  | 2 => some .native10
  | 3 => some .std25
  | 4 => some .std10
  | 5 => some .std1g
  | 6 => some .sgmii
  | _ => none

/-- The code of a mode (R77). -/
def PortMode.code : PortMode → Nat
  | .native25 => 1
  | .native10 => 2
  | .std25 => 3
  | .std10 => 4
  | .std1g => 5
  | .sgmii => 6

/-! Board tables (R73, R74). -/

/-- The board-table entry of an L port; empty for none. -/
def State.board (s : State) (p : Nat) : List Byte := Tab.get (fun _ => []) s.boards (p - 16)

/-- A settings set of an entry is well formed: its zero fields are zero and its taps sum to at most 63. -/
def setOk (b : List Byte) : Bool :=
  let n := fun i => (b.getD i 0).toNat
  decide (n 0 / 64 % 2 = 0) && decide (n 1 < 64) && decide (n 2 / 64 % 2 = 0) && decide (n 3 < 16)
    && decide (n 0 % 64 + n 1 % 64 + n 2 % 64 ≤ 63)

/-- A board-table entry for lane `p - 16` is good (R74, step 1). -/
def boardOk (e : List Byte) (p : Nat) : Bool :=
  decide (e.length = 32) && decide (crc32c (e.take 28) = BitVec.ofNat 32 (leNat (slice e 28 4)))
    && decide ((e.getD 0 0).toNat = p - 16) && decide ((e.getD 1 0).toNat < 8) && decide (leNat (slice e 2 2) = 0)
    && (List.range 3).all fun k => !(e.getD 1 0).getLsbD k || setOk (slice e (4 + 8 * k) 8)

/-- The set of a family loaded into the equaliser registers (R74, step 3). -/
def State.loadBoard (s : State) (p fam : Nat) : State :=
  let b := slice (s.board p) (4 + 8 * fam) 8
  let n := fun i => (b.getD i 0).toNat
  (((s.wr (Reg.portEqTx p) (w32 (n 0 + n 1 * 256 + n 2 * 65536))).wr (Reg.portEqRx p) (w32 (n 3))).wr (Reg.portEqDig p)
    (w32 (leNat (slice b 4 4)))).setFld (Reg.portPhyStat p) 3 1 1

/-- PORT_EQ_TX as applied: main_mag is reduced until the tap sum is 63 (R85), to 0 where the other two exceed 63 by
themselves (DESIGN CHOICE, log 57). -/
def eqApplied (w : Word) : Word :=
  let rest := getFld w 0 6 + getFld w 16 6
  if 63 < rest + getFld w 8 6 then putFld w 8 6 (63 - rest) else w

/-- The port's staged equaliser registers are applied (R360). -/
def State.portCommit (s : State) (p : Nat) : State :=
  let t := s.applyK fun a => decide (a = Reg.portEqTx p) || decide (a = Reg.portEqRx p) || decide (a = Reg.portEqDig p)
  if s.pendK.any (fun x => x.1 == Reg.portEqTx p) then t.wr (Reg.portEqTx p) (eqApplied (t.rd (Reg.portEqTx p))) else t

/-! The halter (R52 to R55). -/

/-- The role of a port in W1 of a halter (R53). -/
def haltRole (p : Nat) : Nat := if p < 8 then 1 else if p < 16 then 2 else 0

/-- W10 of an own halter (R53). -/
def State.halter10 (s : State) (p : Nat) : Nat :=
  s.tim.active + s.domState s.tim.active * 2 + b2n (decide (s.fld Reg.clkDpllStat 0 2 = 3)) * 8
    + b2n (s.isUp p 0) * 16 + b2n (s.isUp p 1) * 32

/-- W0 to W11 of an own halter with a given seq (R53). -/
def State.halterWords (s : State) (p seq : Nat) (ask : Bool) : List Nat :=
  let fw := s.mgt.fwb s.mgt.fwBank
  let per := (s.rd Reg.cycPeriod).toNat
  let hash := (s.rd Reg.cycNetHash).toNat
  [14 + 256 + b2n ask * 4096, s.nodeId % 16384 + haltRole p * 16384, fw.minor + fw.major * 256,
   p + (if (s.pt p).mode = .native25 then 1 else 2) * 32 + seq % 256 * 256, s.fld (Reg.tsuDom 0) 8 8 + s.fld (Reg.tsuDom 1) 8 8 * 256,
   per % 65536, per / 65536, hash % 65536, hash / 65536, s.caps p, s.halter10 p, 0]

/-- A halter is due: to answer, at UP, or because a field other than seq differs from the last one sent (R52).
Conventions: log 22. -/
def State.halterPending (s : State) (p : Nat) : Bool :=
  let new := s.halterWords p 0 false
  let old := (s.pt p).halterSent
  (s.pt p).halterDue || new.drop 4 != old.drop 4 || (new.drop 1).take 2 != (old.drop 1).take 2
    || decide (new.getD 3 0 % 256 ≠ old.getD 3 0 % 256)

/-- The halter asks for a reply (R52): at UP, on a deferral, and where the schedule hash or the period differs from the last
one sent. Conventions: log 22. -/
def State.halterAsks (s : State) (p : Nat) : Bool :=
  let x := s.pt p
  x.halterAsk || (!x.halterSent.isEmpty && ((s.halterWords p 0 false).drop 5).take 4 != (x.halterSent.drop 5).take 4)

/-- A halter leaves the port (R52): W0 to W11 with their CRC-32C in HALTER beats (R51, R53). Conventions: log 22. -/
def State.sendHalter (s : State) (p : Nat) (ask : Bool) : State :=
  let ws := s.halterWords p (s.pt p).halterSeq ask
  let t := s.onPt p fun y =>
    { y with halterSeq := (y.halterSeq + 1) % 256, halterDue := false, halterAsk := false, halterSent := ws,
             halterSentAt := some s.now }
  t.sendMsg p 0x09 (withMsgCrc ws)

/-- A mismatch bit of PORT_HALTER_STAT takes its value; its sticky bit sets at every halter that disagrees, also where it was
cleared while the mismatch stands (R59; DEDUCED, log 57). -/
def State.setMm (s : State) (p i : Nat) (v : Bool) : State :=
  let t := s.setFld (Reg.portHalterStat p) i 1 (b2n v)
  if v then t.stick (Reg.portHalterStat p) (16 + i) else t

/-- The link carries class 7 (R54): a valid halter, hash and period agree, and both ends have a cycle engine (bit 5 of caps).
Conventions: log 58. -/
def State.c7Agreed (s : State) (p : Nat) : Bool :=
  s.bothCan p 5 && s.bitAt (Reg.portHalterStat p) 0 && !s.bitAt (Reg.portHalterStat p) 1 && !s.bitAt (Reg.portHalterStat p) 2

/-- A valid halter is stored and compared (R54, R55). Where only one of hash and period disagrees, the bit of the other clears
(DEDUCED, log 57). Conventions: log 22. -/
def State.takeHalter (s : State) (p : Nat) (ws : List Nat) : State :=
  let w := fun i => ws.getD i 0
  let t := (List.range 6).foldl (fun u i => u.wr (Reg.portHalterRx p i) (w32 (w (2 * i) + w (2 * i + 1) * 65536))) s
  let t := (t.setFld (Reg.portHalterStat p) 24 8 (w 3 / 256)).setFld (Reg.portHalterStat p) 0 1 1
  let t := t.onPt p fun y => { y with halterAt := some s.now, halterDue := y.halterDue || (w 0).testBit 12 }
  let hash := w 7 + w 8 * 65536
  let per := w 5 + w 6 * 65536
  let hOk : Bool := decide (hash = (s.rd Reg.cycNetHash).toNat)
  let pOk : Bool := decide (per = (s.rd Reg.cycPeriod).toNat)
  let recent : Bool := match s.hashAt with
    | none => false
    | some r => decide (s.now < r + 312500)
  let t :=
    if hOk && pOk then (t.setMm p 1 false).setMm p 2 false
    else if recent && !(s.pt p).deferred && decide (hash = s.prevHash.toNat) && decide (per = s.prevPeriod.toNat) then
      t.onPt p fun y => { y with deferred := true, halterDue := true, halterAsk := true }
    else
      let u := (t.setMm p 1 (!hOk)).setMm p 2 (!pOk)
      let news : Bool := (!hOk && !s.bitAt (Reg.portHalterStat p) 1) || (!pOk && !s.bitAt (Reg.portHalterStat p) 2)
      u.raiseIf news 195
  let t := if t.c7Agreed p then t else t.onPt p fun y => { y with c7Ok := false }
  let mm := fun (u : State) (d v : Nat) =>
    let bad : Bool := decide (v ≠ u.fld (Reg.tsuDom d) 8 8)
    let u' := u.setMm p (3 + d) bad
    let u' := if bad && !u.bitAt (Reg.portHalterStat p) (3 + d) then (u'.stick (Reg.tsuDom d) 26).raiseAt 135 0 d else u'
    if bad && u'.isUp p d then u'.loseUpstream d else u'
  let t := mm (mm t 0 (w 4 % 256)) 1 (w 4 / 256)
  let role := w 1 / 16384
  let roleBad : Bool := if p < 16 then decide (role ≠ 3 - haltRole p) else decide (role ≠ 0)
  let t := t.setMm p 5 roleBad
  let dup : Bool := decide (w 1 % 16384 = s.nodeId % 16384)
  let t := if dup && !t.bitAt (Reg.portHalterStat p) 6 then (t.setMm p 6 true).raise (64 + p) else t.setMm p 6 dup
  let maj : Bool := decide (w 2 / 256 ≠ (s.mgt.fwb s.mgt.fwBank).major)
  let t := if maj && !t.bitAt (Reg.portHalterStat p) 7 then (t.setMm p 7 true).raise (64 + p) else t.setMm p 7 maj
  if roleBad || dup then t.dropUpstream p else t

/-- An own halter field changed on every native port: halters are due (R52). -/
def State.haltersDue (s : State) (ask : Bool) : State :=
  (List.range 24).foldl (fun t p =>
    if t.native p && (t.pt p).up then t.onPt p fun y => { y with halterDue := true, halterAsk := y.halterAsk || ask } else t) s

end Sys2Proof.Machine
end

