-- ==== Sys2Proof/Machine/Line.lean ====
section
/-! DEFINITION. The Kamxon line (R26 to R60): alignment and link states, crumbs, preemption, doze, messages and
the halter exchange, with the events of STD lines (R61). -/

namespace Sys2Proof.Machine

open Host

/-! Link states (R36 to R39, R84). -/

/-- LOSS_OF_SIGNAL (R37, R49): on an L port it does not stay live while the partner dozes. -/
def execLossOfSignal (port : Nat) (s : State) : Outcome State Fault Refusal :=
  onUnit 24 port (s.event fun t =>
    if s.absent port || (decide (16 ≤ port) && t.bitAt (Reg.portLineStat port) 4) then t
    else
      let u := (t.setFld (Reg.portPhyStat port) 0 1 0).setFld (Reg.portLineStat port) 3 1 1
      (u.onPt port fun x => { x with hardFault := true }).toLos port)

/-- SIGNAL_DETECT (R38): the port enters ACQUIRE where it is enabled and its synthesiser has acquired. -/
def execSignalDetect (port : Nat) (s : State) : Outcome State Fault Refusal :=
  onUnit 24 port (s.event fun t =>
    if s.absent port then t else (t.setFld (Reg.portPhyStat port) 0 1 1).tryAcquire port)

/-- RECEIVER_SETTLED (R38). -/
def execReceiverSettled (port : Nat) (s : State) : Outcome State Fault Refusal :=
  onUnit 24 port (s.event fun t =>
    if t.lineState port = 1 then (t.setLine port 2).onPt port fun x => { x with marks := 0 } else t)

/-- RECEIVER_SETTLE_TIMEOUT (R84): the port stays in ACQUIRE and bring-up starts again. -/
def execReceiverSettleTimeout (port : Nat) (s : State) : Outcome State Fault Refusal :=
  onUnit 24 port (s.event fun t =>
    if t.lineState port = 1 ∧ (t.pt port).settleAt + 625000 ≤ t.now then t.onPt port fun x => { x with settleAt := t.now } else t)

/-- The port is aligned: UP, and its partner's transmitter is not dozing (R36, R49). Conventions: log 21. -/
def State.aligned (s : State) (p : Nat) : Bool := (s.pt p).up && !s.bitAt (Reg.portLineStat p) 4

/-- The descrambled bits of a MARK frame: 1,024 beats (R36). -/
def markGap : Nat := 33 * 1024

/-- MARK_RECEIVE (R36, R37): in the search, at any bit offset, four that follow one another at exactly 1,024 beats align the
port, and one at another spacing is the first of a new four; on an aligned port a MARK stands at its position, and elsewhere
it is a beat in a forbidden place (R30, R31). Conventions: log 21. -/
def execMarkReceive (port seq gap : Nat) (s : State) : Outcome State Fault Refusal :=
  onUnit 24 port (s.event fun t =>
    let q := seq % 2 ^ 18
    let x := t.pt port
    if !t.native port then t
    else if x.up then
      if gap ≠ markGap then t.lineErr (Reg.portLerrType port) port
      else
        let u := if q = (x.markSeq + 1) % 2 ^ 18 then t else t.stick (Reg.portLineStat port) 11
        let u := u.onPt port fun y => { y with misses := 0, markSeq := q }
        if x.hardFault || !u.bitAt (Reg.portLineStat port) 3 then u
        else (u.setFld (Reg.portLineStat port) 3 1 0).onPt port fun y => { y with cleanAt := u.uptime }
    else if t.lineState port = 2 then
      let n := if 0 < x.marks ∧ gap ≠ markGap then 1 else x.marks + 1
      let u := t.onPt port fun y => { y with marks := n, markSeq := q }
      if 4 ≤ n then u.enterUp port else u
    else t)

/-- MISSED_MARK (R36, R37): the third in a row loses alignment. In the search a gap starts the count of
four again. Conventions: log 21. -/
def execMissedMark (port : Nat) (s : State) : Outcome State Fault Refusal :=
  onUnit 24 port (s.event fun t =>
    if !t.native port then t
    else if t.lineState port = 2 then t.onPt port fun y => { y with marks := 0 }
    else if !t.aligned port then t
    else
      let n := (t.pt port).misses + 1
      let u := (t.countP (Reg.portMarkMiss port) port).setFld (Reg.portLineStat port) 3 1 1
      if n < 3 then u.onPt port fun y => { y with misses := n }
      else
        let v := (u.countP (Reg.portAlignLoss port) port).stick (Reg.portLineStat port) 8
        let v := if (v.pt port).rxSusp then v.lineErr (Reg.portLerrType port) port else v
        ((v.onPt port fun y => { y with hardFault := true }).leaveUp port).setLine port 2)

/-- The port's transmitter sends beats (R38, R79): lit or driven, and not dozing. -/
def State.sends (s : State) (p : Nat) : Bool := s.native p && s.txOn p && !s.bitAt (Reg.portLineStat p) 5

/-- MARK_SEND (R29, R31): the stream runs on to its next MARK position, with IDLE beats up to it, and the MARK leaves.
Conventions: logs 21, 56. -/
def execMarkSend (port : Nat) (s : State) : Outcome State Fault Refusal :=
  onUnit 24 port (s.event fun t =>
    if t.sends port then
      let x := t.pt port
      (t.putLine port (LineTx.idle ((1024 - x.tx.pos) % 1024 + 1) x.tx x.txMark)).onPt port fun y => { y with markAt := t.now }
    else t)

/-! Crumbs (R42 to R44). -/

/-- No crumb may stand at this point of the port's stream (R31, R46): within a preemption, or directly ahead of a class-7 SOF
that is ready. -/
def State.crumbBarred (s : State) (p : Nat) : Bool := (s.pt p).txSusp || s.headReady p 7

/-- CRUMB_DUE (R43): 2,048 beats after the last crumb one is sent, or deferred where R31 forbids it; the line idles up to it
unless a frame is on it. Conventions: log 56. -/
def execCrumbDue (port : Nat) (s : State) : Outcome State Fault Refusal :=
  onUnit 24 port (s.event fun t =>
    let x := t.pt port
    if !t.sends port then t
    else if t.crumbBarred port then t.onPt port fun y => { y with crumbWait := true }
    else
      let u := if (t.sw.lineOf port).isSome then t else t.putLine port (LineTx.idle (2048 - x.tx.since) x.tx x.txMark)
      (u.emit port none [crumbBeat]).onPt port fun y => { y with crumbWait := false })

/-- CRUMB_FORCED (R43): the deferred crumb is sent at the first boundary outside a preemption. Conventions: log 56. -/
def execCrumbForced (port : Nat) (s : State) : Outcome State Fault Refusal :=
  onUnit 24 port (s.event fun t =>
    if t.sends port && (t.pt port).crumbWait && !(t.pt port).txSusp then
      (t.emit port none [crumbBeat]).onPt port fun x => { x with crumbWait := false }
    else t)

/-- The elastic stage of a native port that receives holds `fill` beats (R44). -/
def State.setFill (s : State) (p fill : Nat) : State := s.onPt p fun x => { x with rx := { x.rx with fill := fill } }

/-- CRUMB_DELETE (R44): the stage would exceed 2 beats, and the crumb that arrives is deleted. Conventions: log 56. -/
def execCrumbDelete (port fill : Nat) (s : State) : Outcome State Fault Refusal :=
  onUnit 24 port (s.event fun t =>
    if t.native port && t.aligned port && decide (2 < fill) then (t.countP (Reg.rxCrumbDel port) port).setFill port 2 else t)

/-- CRUMB_INSERT (R44): the stage would run empty, and a crumb is inserted. Conventions: log 56. -/
def execCrumbInsert (port fill : Nat) (s : State) : Outcome State Fault Refusal :=
  onUnit 24 port (s.event fun t =>
    if t.native port && t.aligned port && decide (fill = 0) then (t.countP (Reg.rxCrumbIns port) port).setFill port 1 else t)

/-- ELASTIC_OVERRUN (R44): the stage would exceed 2 beats with no crumb at hand; a beat is deleted, and any frame in progress
ends as bad. Conventions: log 56. -/
def execElasticOverrun (port fill : Nat) (s : State) : Outcome State Fault Refusal :=
  onUnit 24 port (s.event fun t =>
    if t.native port && t.aligned port && decide (2 < fill) then
      let u := ((t.lineErr (Reg.portLerrType port) port).stick (Reg.portLineStat port) 12).setFill port 2
      let u := if (u.pt port).rxSusp then u.suspendedLost port else u
      u.onPt port fun x => { x with brokenAt := some t.now }
    else t)

/-- FILL_CRUMB_ABORT (R42): after 64 fill crumbs in a row the frame ends with ABORT 0x4. Where the copy on the
line is none of the buffer's, it is one a frame being received passes through: nothing more of it leaves (log 20). -/
def execFillCrumbAbort (port : Nat) (s : State) : Outcome State Fault Refusal :=
  onUnit 24 port (s.event fun t =>
    if !t.native port || !(t.pt port).up then t
    else
      let u := t.emit port none (List.replicate 64 crumbBeat)
      if (t.sw.lineOf port).isSome then u.cutLine port 4
      else ((u.emit port none [abortBeat 4]).countP (Reg.txAbort port) port).onPt port fun x => { x with fillCut := true })

/-- A data beat that R47 does not let stand (R47): in a preemption with no class-7 frame yet, in one after a class-7 frame
(RESUME was lost, and the suspended frame is bad), or with no frame open at all. What follows of it goes uncounted.
Conventions: log 20. -/
def State.strayData (s : State) (p : Nat) : State :=
  let x := s.pt p
  if x.rx.drop then s
  else
    let t := (s.lineErr (Reg.portLerrType p) p).onPt p fun y => { y with rx := { y.rx with drop := true } }
    if x.rxSusp && x.rx.c7 then t.suspendedLost p else t

/-- A beat that arrives is judged (R28, R30, R31, R47). -/
def State.judgeBeat (s : State) (p : Nat) (b : Beat) (place : Place) : State :=
  let x := s.pt p
  if !b.ctl then (if decide (place = .gap) then s.strayData p else s)
  else if !beatCrcOk b then (s.lineErr (Reg.portLerrCrc8 p) p).stick (Reg.portLineStat p) 9
  else if x.rx.drop && (decide (beatTy b = 3) || decide (beatTy b = 4)) then s
  else if badBeat x.rxSusp b place then s.lineErr (Reg.portLerrType p) p
  else s

/-- CONTROL_BEAT_DISCARD (R26, R28, R30, R34): the line bits are freed of stuffing, with an error counted for each stuffed bit
that is none, and descrambled; the last 33 bits are the beat. Conventions: logs 20, 56. -/
def execControlBeatDiscard (port : Nat) (line : List Bool) (place : Place) (s : State) : Outcome State Fault Refusal :=
  onUnit 24 port (s.event fun t =>
    if !t.native port || !(t.pt port).up then t
    else
      let h := (t.pt port).rx.hear line
      let u := t.onPt port fun x => { x with rx := h.2.2 }
      let u := (List.range h.2.1).foldl (fun v _ => (v.lineErr (Reg.portLerrStuff port) port).stick (Reg.portLineStat port) 10) u
      if h.1.length < 33 then u else u.judgeBeat port (beatOf (h.1.drop (h.1.length - 33))) place)

/-! Preemption as received (R46, R47). -/

/-- PREEMPT_RECEIVE (R47): it suspends the open class 0 to 5 frame, and with none open or inside a preemption is discarded.
Conventions: log 20. -/
def execPreemptReceive (port : Nat) (open_ : Option (Nat × Nat)) (s : State) : Outcome State Fault Refusal :=
  onUnit 24 port (s.event fun t =>
    if !t.native port || !t.aligned port then t
    else match if (t.pt port).rxSusp then none else open_.filter fun x => decide (x.1 < 6) with
      | none => t.lineErr (Reg.portLerrType port) port
      | some f =>
        (t.onPt port fun x => { x with rxSusp := true, rxOpen := true, rx := { x.rx with bytes := f.2, c7 := false, drop := false } }).countP
          (Reg.portPreemptRx port) port)

/-- RESUME_RECEIVE (R47): it resumes the suspended frame, or with none suspended is discarded. Conventions: log 20. -/
def execResumeReceive (port : Nat) (s : State) : Outcome State Fault Refusal :=
  onUnit 24 port (s.event fun t =>
    if !t.native port || !t.aligned port then t
    else if (t.pt port).rxSusp then t.onPt port fun x => { x with rxSusp := false, rx := { x.rx with drop := false } }
    else t.lineErr (Reg.portLerrType port) port)

/-! Doze (R48 to R50). -/

/-- The port is bound to a PSLOT (R48, R275). -/
def State.onPslot (s : State) (p : Nat) : Bool := (List.range 5).any fun i => decide (1 ≤ i) && decide (s.fld (Reg.clkRefCfg i) 8 5 = p)

/-- No TIME message falls due within `n` ticks: the next REQ (R241), an INFO of a domain, at its second or for a changed
field (R247). -/
def State.timeQuiet (s : State) (p n : Nat) : Bool :=
  !s.takesPart p
    || (match (s.ptm p).reqAt with
        | none => false
        | some r => decide (s.now + n < r + s.reqEvery p))
      && [0, 1].all fun d =>
          !s.carries p d || (decide (s.domState d = 0) && !s.gmSelf d)
            || (match if d = 0 then (s.ptm p).sentA else (s.ptm p).sentB with
                | none => false
                | some m => decide (m.1 = s.infoOf d) && decide (s.now + n < m.2 + 1250000000))

/-- No class-7 gate opens and no message falls due within 2,048 beats (R48). -/
def State.quietAhead (s : State) (p : Nat) : Bool :=
  s.timeQuiet p (s.beats p 2048) && !s.halterPending p && !s.gateWithin p (s.beats p 2048)
    && (match (s.pt p).halterSentAt with
        | none => true
        | some r => decide (s.now + s.beats p 2048 < r + 125000000))

/-- Every condition of R48 but the idle time holds. -/
def State.dozeHolds (s : State) (p : Nat) : Bool :=
  s.bitAt (Reg.portLineCtrl p) 1 && s.bothCan p 3 && s.bitAt (Reg.portHalterStat p) 0
    && !s.onPslot p && !s.isUp p 0 && !s.isUp p 1 && decide (s.halterWord p 10 / 16 % 4 = 0)
    && !s.inPair p && s.egressIdle p && s.quietAhead p

/-- Every condition of R48 holds. -/
def State.mayDoze (s : State) (p : Nat) : Bool :=
  s.dozeHolds p
    && decide ((s.pt p).idleAt + s.beats p (64 * max 1 (s.fld (Reg.portLineCtrl p) 16 16)) ≤ s.now)

/-- DOZE_ENTRY (R48): four DOZE beats, then no beat at all. -/
def execDozeEntry (port : Nat) (s : State) : Outcome State Fault Refusal :=
  onUnit 24 port (s.event fun t =>
    if t.native port && (t.pt port).up && !t.bitAt (Reg.portLineStat port) 5 && t.mayDoze port then
      (((t.emit port none (List.replicate 4 dozeBeat)).setFld (Reg.portLineStat port) 5 1 1).onPt port fun x =>
        { x with dozeAt := t.now }).countP (Reg.portDozeEntry port) port
    else t)

/-- DOZE_RECEIVE (R49). -/
def execDozeReceive (port : Nat) (s : State) : Outcome State Fault Refusal :=
  onUnit 24 port (s.event fun t =>
    if t.native port && (t.pt port).up then t.setFld (Reg.portLineStat port) 4 1 1 else t)

/-- A dozing transmitter has a cause to wake (R50): a condition of R48 has ceased to hold, which takes in doze_en, a frame
queued and a halter due, or a class-7 gate opens within 96 beats. -/
def State.wakeCause (s : State) (p : Nat) : Bool := !s.dozeHolds p || s.gateWithin p (s.beats p 96)

/-- DOZE_WAKE (R50): the TRAIN burst leaves. A transmitter with a frame or a message to send wakes by itself
(`State.wakeTx`). -/
def execDozeWake (port : Nat) (s : State) : Outcome State Fault Refusal :=
  onUnit 24 port (s.event fun t => if t.native port && t.wakeCause port then t.wakeTx port else t)

/-- TRAIN_ALIGNMENT (R50): restored, or at the end of the burst lost. -/
def execTrainAlignment (port : Nat) (aligned : Bool) (s : State) : Outcome State Fault Refusal :=
  onUnit 24 port (s.event fun t =>
    if !t.native port || !(t.pt port).up || !t.bitAt (Reg.portLineStat port) 4 then t
    else if aligned then (t.setFld (Reg.portLineStat port) 4 1 0).onPt port fun x => { x with misses := 0 }
    else
      let u := (t.countP (Reg.portAlignLoss port) port).stick (Reg.portLineStat port) 8
      (u.leaveUp port).setLine port 2)

/-! The halter exchange (R51 to R55). -/

/-- A halter may leave: the port is UP, and R43, R45 and R46 let a message start. -/
def State.mayHalter (s : State) (p : Nat) : Bool := s.native p && (s.pt p).up && s.mayMessage p 14

/-- HALTER_SEND (R52): on entering UP, after a change of an own field, or to answer; what occasions it says whether it asks
for a reply. Conventions: log 22. -/
def execHalterSend (port : Nat) (s : State) : Outcome State Fault Refusal :=
  onUnit 24 port (s.event fun t =>
    if t.mayHalter port && t.halterPending port then t.sendHalter port (t.halterAsks port) else t)

/-- HALTER_PERIODIC (R52): 100 ms after the last one. Conventions: log 22. -/
def execHalterPeriodic (port : Nat) (s : State) : Outcome State Fault Refusal :=
  onUnit 24 port (s.event fun t =>
    let due : Bool := match (t.pt port).halterSentAt with
      | none => true
      | some r => decide (r + 125000000 ≤ t.now)
    if t.mayHalter port && due then t.sendHalter port (t.halterAsks port) else t)

/-- HALTER_RECEIVE (R51, R54). Conventions: log 22. -/
def execHalterReceive (port : Nat) (words : List Nat) (s : State) : Outcome State Fault Refusal :=
  onUnit 24 port (s.event fun t =>
    if !t.native port || !t.aligned port then t
    else if msgOk words then t.takeHalter port words
    else t.countP (Reg.portHalterDiscard port) port)

/-- HALTER_TIMEOUT (R54): no valid halter for 350 ms while UP. -/
def execHalterTimeout (port : Nat) (s : State) : Outcome State Fault Refusal :=
  onUnit 24 port (s.event fun t =>
    match (t.pt port).halterAt with
    | none => t
    | some r =>
      if t.native port && (t.pt port).up && t.bitAt (Reg.portHalterStat port) 0 && decide (r + 437500000 ≤ t.now) then
        let u := (t.setFld (Reg.portHalterStat port) 0 1 0).stick (Reg.portHalterStat port) 16
        let u := u.onPt port fun x => { x with c7Ok := false }
        (u.raiseAt (64 + port) (u.rd (Reg.portHalterStat port)) port).dropUpstream port
      else t)

/-- MESSAGE_DISCARD (R51): a HALTER or TIME message whose beats are not in order is discarded. -/
def execMessageDiscard (port : Nat) (beats : List Beat) (s : State) : Outcome State Fault Refusal :=
  onUnit 24 port (s.event fun t =>
    if t.native port && t.aligned port && (msgWords beats).isNone then t.countP (Reg.portHalterDiscard port) port else t)

/-! STD lines (R61). -/

/-- STD_BLOCK_LOCK_CHANGE (R61): an SGMII port also waits for an in-band word that reports link up.
Conventions: logs 19, 57. -/
def execStdBlockLockChange (port : Nat) (locked : Bool) (s : State) : Outcome State Fault Refusal :=
  onUnit 24 port (s.event fun t =>
    if t.native port || !t.enabled port || decide (t.lineState port = 0) then t
    else
      let u := t.onPt port fun x => { x with pcs := locked }
      if !locked then (u.leaveUp port).setLine port 2
      else if (t.pt port).mode = .sgmii ∧ (t.pt port).sgUp = false then u.setLine port 2
      else u.enterUp port)

/-- SGMII_INBAND_WORD (R61): speeds 0 to 2; a word with link down or another speed takes the port out of
UP, and it re-enters at the new speed. Conventions: logs 19, 52. -/
def execSgmiiInbandWord (port : Nat) (linkUp : Bool) (speed : Nat) (s : State) : Outcome State Fault Refusal :=
  onUnit 24 port (s.event fun t =>
    if (t.pt port).mode ≠ .sgmii ∨ !(t.pt port).pcs ∨ 3 ≤ speed then t
    else
      let changed : Bool := decide (t.fld (Reg.portPhyStat port) 5 2 ≠ speed)
      let u := if changed || !linkUp then (if (t.pt port).up then (t.leaveUp port).setLine port 2 else t) else t
      let u := (u.setFld (Reg.portPhyStat port) 5 2 speed).onPt port fun x => { x with sgUp := linkUp }
      if linkUp then u.enterUp port else u)

/-! Commands. -/

/-- The port named is an F or L port that is there (R60). -/
def State.lineGone (s : State) (p : Nat) : Option Nat := firstBad [(0, decide (p < 24) && !s.absent p)]

/-- PORT_HALTER_GET (R60). Conventions: logs 32, 51. -/
def execPortHalterGet (h : CmdHdr) (port : Nat) (s : State) : Outcome State Fault Refusal :=
  s.cmd h 0x0105 (fun t => { role := .any, gone := t.lineGone port }) fun t =>
    if !t.native port then .refuse St.state []
    else
      let age := match (t.pt port).halterAt with
        | none => (Config.measured t.freeCtr).toNat
        | some r => (t.now - r) / 1250000
      .done ((List.range 12).map (t.halterWord port) ++ [age, (t.rd (Reg.portHalterStat port)).toNat])
        (if (t.pt port).halterAt = none then t.drawn else t)

/-- PORT_LINE_EXPERT_SET (R60). -/
def execPortLineExpertSet (h : CmdHdr) (port : Nat) (preemptEn dozeEn : Bool) (dozeIdle capMask : Nat) (s : State) :
    Outcome State Fault Refusal :=
  s.cmd h 0x0184
    (fun t => { gone := t.lineGone port, owned := [(0, port)], reins := [portRein port],
                bad := firstBad [(2, decide (dozeIdle < 65536)), (3, decide (capMask < 256))] })
    fun t =>
      if !t.native port then .refuse St.state []
      else
        let u := ((t.setFld (Reg.portLineCtrl port) 0 1 (b2n preemptEn)).setFld (Reg.portLineCtrl port) 1 1 (b2n dozeEn)).setFld
          (Reg.portLineCtrl port) 16 16 dozeIdle
        let u := if dozeEn then u else u.wakeTx port
        .done [] ((u.setFld (Reg.portCapAdv port) 0 8 capMask).onPt port fun x => { x with halterDue := true })

end Sys2Proof.Machine
end

