-- ==== Sys2Proof/Machine/Ports.lean ====
section
/-! DEFINITION. The physical ports (R62 to R85): PORT_SET and the equaliser commands, light and quality, and
multidrop segments. -/

namespace Sys2Proof.Machine

open Host

/-! Commands. -/

/-- The mode code may stand on the port's kind (R77). -/
def modeFits (p mode : Nat) : Bool :=
  if p < 16 then decide (mode ≤ 5) else if p < 24 then decide (mode ≤ 6) else decide (mode = 0 ∨ mode = 7)

/-- The checks of R74 on an L port's entry for a family: the reply parameter of the one that fails. -/
def State.boardFault (s : State) (p fam : Nat) : Option Nat :=
  let e := s.board p
  if !boardOk e p then some 1 else if (e.getD 1 0).getLsbD fam then none else some 2

/-- Another port of the group is UP (R78). Conventions: log 52. -/
def State.groupBusy (s : State) (p : Nat) : Bool :=
  (List.range 4).any fun i => decide (4 * groupOf p + i ≠ p) && (s.pt (4 * groupOf p + i)).up

/-! Transceiver delays (R251, R252). -/

/-- A delay of the port's record in 1/16 ps, by family, direction (0 transmit, 1 receive) and point; the typical one where
the record does not serve (DEDUCED, log 46). -/
def State.calPoint (s : State) (p fam dir k : Nat) : Nat :=
  (Config.calibration (((p * 3 + fam) * 2 + dir) * 8 + k + (if s.mgt.calValid && Config.calHas p fam then 0 else 2 ^ 20))).toNat

/-- The temperature of the die sensor of a unit or a transceiver in 1/256 °C, and whether it answers.
Conventions: log 11. -/
def State.dieTemp (s : State) (n : Nat) : Int × Bool :=
  let a := Reg.mgtTemp (Config.sensorOf n % 8)
  ((BitVec.ofNat 16 (s.fld a 0 16)).toInt, s.bitAt a 16)

/-- The delay interpolated at the transceiver's temperature. Conventions: log 46. -/
def State.delayAt (s : State) (p dir : Nat) : Nat :=
  let fam := (s.pt p).mode.family
  let t := (s.dieTemp (4 + p)).1
  if t ≤ -10240 then s.calPoint p fam dir 0
  else
    let k := min 6 ((t + 10240) / 6400).toNat
    let a : Int := s.calPoint p fam dir k
    let b : Int := s.calPoint p fam dir (k + 1)
    (a + roundDiv ((b - a) * (t + 10240 - 6400 * k)) 6400).toNat

/-- A port takes the delays of its family, and PORT_TT_STAT says whether its record serves (R252).
Conventions: log 46. -/
def State.loadDelays (s : State) (p : Nat) : State :=
  let t := (s.wr (Reg.ttTxdly p) (w32 (s.delayAt p 0))).wr (Reg.ttRxdly p) (w32 (s.delayAt p 1))
  if s.mgt.calValid && Config.calHas p (s.pt p).mode.family then t.setFld (Reg.ttStat p) 1 1 1
  else (t.setFld (Reg.ttStat p) 1 1 0).portErr p (Reg.ttStat p) 10

/-- A delay moves by at most 0.25 ps towards a value. Conventions: log 46. -/
def stepDelay (old target : Nat) : Nat := if old ≤ target then min target (old + 4) else max target (old - 4)

/-- The delays in force move at a sensor read; they stay while the sensor does not answer (R251, R381).
Conventions: log 46. -/
def State.moveDelays (s : State) : State :=
  (List.range 24).foldl (fun t p =>
    if t.absent p || !(t.dieTemp (4 + p)).2 then t
    else (t.wr (Reg.ttTxdly p) (w32 (stepDelay (t.rd (Reg.ttTxdly p)).toNat (t.delayAt p 0)))).wr (Reg.ttRxdly p)
      (w32 (stepDelay (t.rd (Reg.ttRxdly p)).toNat (t.delayAt p 1)))) s

/-- The mode applied to an F or L port: the group retunes where the family differs, and the port restarts
from LOS (R39, R78). Conventions: log 52. -/
def State.applyMode (s : State) (p : Nat) (m : PortMode) : State :=
  let t := (s.toLos p).setFld (Reg.portPhyStat p) 5 2 (if (s.pt p).mode = m then s.fld (Reg.portPhyStat p) 5 2 else 3)
  let t := if (s.pt p).mode = m then t else t.onPt p fun x => { x with sgUp := false }
  let t := if p < 16 then t else t.loadBoard p m.family
  let t := ((t.onPt p fun x => { x with mode := m }).setFld (Reg.portPhyStat p) 4 1 0).loadDelays p
  let t := t.setFld (Reg.portPhyCtrl p) 0 1 1
  let t := t.freeLaser p
  if m.family = t.synFamily (groupOf p) then t.tryAcquire p else t.synRestart (groupOf p) m.family

/-- PORT_SET (R67, R74, R77, R78). -/
def execPortSet (h : CmdHdr) (port mode flags : Nat) (s : State) : Outcome State Fault Refusal :=
  s.cmd h 0x0101
    (fun t => { gone := firstBad [(0, decide (port < 28) && t.exists port)], owned := [(0, port)], reins := [portRein port],
                bad := firstBad [(1, modeFits port mode), (2, decide (flags < 2))] })
    fun t =>
      if mode = 0 then
        .done [] ((t.writePhyCtrl port (putFld (t.rd (Reg.portPhyCtrl port)) 0 1 0)).setFld (Reg.portPhyStat port) 4 1 0)
      else match modeOf mode with
        | none =>
          .done [] (((t.toLos port).writePhyCtrl port (orBit (t.rd (Reg.portPhyCtrl port)) 0)).onPt port fun x => { x with segHeld := false })
        | some m =>
          match if port < 16 then none else t.boardFault port m.family with
          | some 1 =>
            -- the reply is STATE with parameter 1; board_tbl_bad and its source report the entry (R74)
            .refuseWith St.state [1] (t.portErr port (Reg.portPhyStat port) 11)
          | some n => .refuse St.state [n]
          | none =>
            if m.family ≠ t.synFamily (groupOf port) ∧ t.groupBusy port ∧ flags % 2 = 0 then .refuse St.busy []
            else .done [] (t.applyMode port m)

/-- PORT_QUALITY_GET (R85). -/
def execPortQualityGet (h : CmdHdr) (port : Nat) (s : State) : Outcome State Fault Refusal :=
  s.cmd h 0x0106 (fun t => { role := .any, gone := firstBad [(0, decide (port < 28) && t.exists port)] }) fun t =>
    .done [(t.phyStat port).toNat, (t.rd (Reg.portQual0 port)).toNat, (if port < 24 then (t.rd (Reg.portQual1 port)).toNat else 0),
           (t.rd (Reg.portOpt0 port)).toNat, (if port < 16 then (t.rd (Reg.portOpt1 port)).toNat else 0)] t

/-- PORT_EQ_EXPERT_SET (R75): the three registers take effect together. -/
def execPortEqExpertSet (h : CmdHdr) (port : Nat) (tx rx dig : Word) (s : State) : Outcome State Fault Refusal :=
  s.cmd h 0x0185
    (fun t => { gone := firstBad [(0, decide (port < 28) && t.exists port)], owned := [(0, port)], reins := [portRein port] })
    fun t =>
      if port < 16 ∨ 24 ≤ port then .refuse St.state []
      else .done [] ((((t.stage (Reg.portEqTx port) tx).stage (Reg.portEqRx port) rx).stage (Reg.portEqDig port) dig).portCommit port)

/-- CFG_BOARD_SET (R73, R409): an entry held for the next PORT_SET and CFG_SAVE. -/
def execCfgBoardSet (h : CmdHdr) (entry : List Byte) (s : State) : Outcome State Fault Refusal :=
  let lane := (entry.getD 0 0).toNat
  s.cmd h 0x0811
    (fun _ => { gone := firstBad [(0, decide (lane < 8))], owned := [(0, 16 + lane)], reins := [portRein (16 + lane), 16],
                bad := firstBad [(0, decide (entry.length = 32))] })
    fun t => .done [] { t with boards := Tab.set (fun _ => []) t.boards lane entry }

/-! Light and quality. -/

/-- LASER_FAULT (R67): the laser goes dark and the port enters LOS. -/
def execLaserFault (port : Nat) (s : State) : Outcome State Fault Refusal :=
  onUnit 16 port (s.event fun t =>
    if t.txOn port then
      ((t.portErr port (Reg.portPhyStat port) 8).onPt port fun x => { x with laserHeld := true }).toLos port
    else t)

/-- QUALITY_UPDATE (R76): figures above a field's range read as its largest. -/
def execQualityUpdate (port : Nat) (q : Quality) (s : State) : Outcome State Fault Refusal :=
  onUnit 24 port (s.event fun t =>
    if !(t.pt port).up then t
    else
      let u := t.wr (Reg.portQual0 port) (w32 (min 64 q.eye + min 255 q.margin * 256 + min 65535 q.resid * 65536))
      let n := (t.fld (Reg.portQual1 port) 16 16 + 1) % 65536
      let u := u.wr (Reg.portQual1 port) (w32 ((if t.native port then min 65535 q.time else 65535) + n * 65536))
      if q.eye < 16 ∨ q.margin < 10 then u.portErr port (Reg.portPhyStat port) 10 else u)

/-- The optical monitors of R85, read every 100 ms (R84): bias in 2 uA, launch and received power in 0.1 uW. -/
def State.senseOptics (s : State) (opt : List (Nat × Nat × Nat)) : State :=
  (List.range 16).foldl (fun t p =>
    match opt[p]? with
    | none => t
    | some (bias, txp, rxp) =>
      if t.absent p then t
      else
        let u := (t.wr (Reg.portOpt0 p) (w32 (min 65535 bias + min 65535 txp * 65536))).setFld (Reg.portOpt1 p) 0 16 (min 65535 rxp)
        if rxp < u.fld (Reg.portOpt1 p) 16 16 then u.portErr p (Reg.portPhyStat p) 9 else u) s

/-! Multidrop segments (R83). -/

/-- An M port. -/
def mPort (p : Nat) : Bool := decide (24 ≤ p) && decide (p < 28)

/-- M_PORT_ENTERS_UP (R83). -/
def execMPortEntersUp (port : Nat) (s : State) : Outcome State Fault Refusal :=
  onUnit 28 port (s.event fun t =>
    if mPort port && t.enabled port && !(t.pt port).segHeld then t.enterUp port else t)

/-- SEGMENT_FAULT (R83): the fourth frame in a row that did not come back intact. -/
def execSegmentFault (port : Nat) (s : State) : Outcome State Fault Refusal :=
  onUnit 28 port (s.event fun t =>
    if mPort port && (t.pt port).up then
      ((t.portErr port (Reg.portPhyStat port) 12).leaveUp port).onPt port fun x => { x with segHeld := true }
    else t)

/-- SEGMENT_RETRY (R83): every 100 ms; the first frame that comes back intact brings the port to UP. -/
def execSegmentRetry (port : Nat) (intact : Bool) (s : State) : Outcome State Fault Refusal :=
  onUnit 28 port (s.event fun t =>
    if mPort port && t.enabled port && (t.pt port).segHeld && intact then t.enterUp port else t)

end Sys2Proof.Machine
end

