-- ==== Sys2Proof/Machine/Frames.lean ====
section
/-! DEFINITION. Frames at the port boundary (R86 to R112): reception with its judgement, counting, cut-through and
learning, PORT_FRAME_SET, and the host frame rings. -/

namespace Sys2Proof.Machine

open Host

/-! Reception (R88 to R96). -/

/-- How a received frame was judged (R88, R95, R96). -/
inductive Verdict
  | good | fcs | abort | line | runt | long_
deriving DecidableEq, Repr

/-- The reason with which a copy under way is ended (R94); 4 for every ending by the line itself. Conventions: log 57. -/
def Verdict.reason : Verdict → Nat
  | .good => 0
  | .fcs | .runt => 1
  | .long_ => 2
  | .abort => 3
  | .line => 4

/-- The judgement at the frame's end, for an ingress maxfrm. -/
def judge (f : RxFrame) (max : Nat) : Verdict :=
  match f.ending with
  | .abort _ => .abort
  | .lineBad => .line
  | .eof =>
    if f.bytes.length < 64 then .runt
    else if max < f.bytes.length then .long_
    else if fcsGood f.bytes then .good
    else if fcsStomped f.bytes then .abort else .fcs

/-- The cause a bad frame counts (R96); a runt and an OVERSIZE frame count by their length. -/
def State.countBad (s : State) (p : Nat) (v : Verdict) : State :=
  match v with
  | .abort | .line => s.countP (Reg.rxAbort p) p
  | .fcs => s.countP (Reg.rxFcsErr p) p
  | _ => s

/-- A body whose FCS is the complement of the right one (R95). -/
def stomp (b : List Byte) : List Byte := bodyOf b ++ leBytes 4 (~~~crc32 (bodyOf b)).toNat

/-! Cut-through (R92 to R94). -/

/-- The pair of modes allows cut-through (R92). -/
def State.ctPair (s : State) (p e : Nat) : Bool :=
  let speed := fun q => s.fld (Reg.portPhyStat q) 5 2
  match (s.pt p).mode, (s.pt e).mode with
  | .native25, .native25 | .native25, .native10 | .native10, .native10 => true
  | .std25, .std25 | .std25, .std10 | .std25, .std1g | .std25, .native25 | .std25, .native10 => true
  | .std10, .std10 | .std10, .std1g | .std10, .native10 => true
  | .std1g, .std1g => true
  | .sgmii, .sgmii => decide (speed p = speed e)
  | .sgmii, .std1g => decide (speed p = 2)
  | _, _ => false

/-- The classes with a head to send, a cut-through copy's own among them (R123, R126). -/
def State.readyWith (s : State) (e cls : Nat) (c : Nat) : Bool := decide (c = cls) || s.headReady e c

/-- A class 0 to 6 frame may be cut through to an egress (R92, R93, R123): nothing stands ahead of it there, in SRAM or in
DRAM, no window reserves either port (R124), and the scheduler picks its class (R126). -/
def State.cutOk (s : State) (p e : Nat) (f : Frm) : Bool :=
  let q := 8 * e + f.cls
  decide (p < 24) && decide (e < 24) && s.bitAt (Reg.portFrmCtrl p) 0 && s.ctPair p e && decide (64 ≤ f.bytes.length)
    && (s.pt e).up && !s.headReady e f.cls && !s.headReady e 6 && !s.headReady e 7 && (s.sw.seg q).isEmpty
    && (s.sw.stageOf e).isEmpty && (s.sw.lineOf e).isNone && (s.sw.openOf e).isNone
    && (s.sw.conn e).isNone && !(s.sw.conns.any fun x => x.2.any fun c => decide (c.1 = p))
    && s.gateOpen e f.cls && !s.heldBack e f.cls f.bytes.length && decide (s.fate q = .sram)
    && decide ((s.pickClass e (s.readyWith e f.cls)).2 = some f.cls)

/-- The time of a copy's first bit at its egress, in 1/256 tick (R207): as the line took it, or the time the frame came
where the row gives none. Conventions: log 57. -/
def leftAt (x : RxFrame) (e : Nat) : Nat :=
  ((x.left.find? fun y => decide (y.1 = e)).map (·.2)).getD (x.ts.toNat * 256 + x.sub.toNat)

/-- The line of an egress is in use for a frame of `n` bytes from now on (R46, R48). -/
def State.lineBusy (s : State) (e n : Nat) : State :=
  s.onPt e fun y => { y with idleAt := s.now + s.frameTicks e n }

/-- A copy under way is ended as bad on a native line with ABORT, elsewhere with a stomped FCS (R94). -/
def State.endBad (s : State) (e : Nat) (b : List Byte) (reason ts cls hint : Nat) : State :=
  let b := if reason = 2 then b.take (s.maxfrm e) else b
  ((s.countP (Reg.txAbort e) e).sent e (if s.native e then b else stomp b) (if s.native e then 16 + reason else 1) ts none cls
    hint).lineBusy e b.length

/-- A passing copy that 64 fill crumbs have ended (R42) leaves nothing more of its frame. -/
def State.passed (s : State) (e : Nat) : State := s.onPt e fun y => { y with fillCut := false }

/-- A cut-through copy (R92, R94, R126, R233): its bytes leave the deficit of its class, its edits are made, and it ends as
the frame did; `long_` where the frame is longer than the ingress maxfrm. Conventions: logs 27, 57. -/
def State.cutCopy (s : State) (p e : Nat) (f : Frm) (x : RxFrame) (v : Verdict) (long_ untag : Bool) : State :=
  let ts := leftAt x e
  let t := s.perf (0xA0 + p)
  let o := t.tcEdit f e (outBytes f untag) ts
  let b := o.1
  let t := if f.cls < 6 then
      let u := (t.pickClass e (t.readyWith e f.cls)).1
      u.setDeficit (8 * e + f.cls) (u.sw.deficitOf (8 * e + f.cls) - min b.length (t.maxfrm e))
    else t
  if (s.pt e).fillCut then t.passed e
  else if t.maxfrm e < b.length then (t.countP (Reg.txOversize e) e).endBad e b 2 ts f.cls f.hint
  else if v = .good then
    let c := t.tcEdit f e (outBytes f untag) ts
    ((c.2.countTx e b).sent e b 0 ts none f.cls f.hint).lineBusy e b.length
  else t.endBad e b (if long_ then 2 else v.reason) ts f.cls f.hint

/-- The queues of a bad frame decided before its end was known (R118): those that refused it counted it. -/
def State.refuseOnly (s : State) (f : Frm) (dests : List Nat) (multi : Bool) : State :=
  dests.foldl (fun t e =>
    let q := 8 * e + f.cls
    match t.fate q with
    | .refuse c => (t.fateSources q (.refuse c)).refused q c multi
    | k => t.fateSources q k) s

/-- The copies of a class 0 to 6 frame (R88, R89, R92, R94). -/
def State.bestEffort (s : State) (p : Nat) (v : Verdict) (r : Res) (f : Frm) (x : RxFrame) : State :=
  let all := portsOf r.dests
  let multi : Bool := decide (1 < all.length)
  let long_ : Bool := decide (s.maxfrm p < x.bytes.length)
  let ct := all.filter fun e => bit x.started e && s.cutOk p e f
  let rest := all.filter fun e => !ct.contains e
  let t := ct.foldl (fun u e => u.cutCopy p e f x v long_ (bit r.untag e)) s
  match v with
  | .good => t.enqueue f (rest.map fun e => (e, bit r.untag e)) multi
  | .long_ =>
    let host := rest.filter fun e => decide (e = 29 ∨ e = 30)
    let t := t.refuseOnly f (rest.filter fun e => !host.contains e) multi
    t.enqueue { f with plain := true, big := true } (host.map fun e => (e, false)) multi
  | _ => if f.bytes.length < 64 then t else t.refuseOnly f rest multi

/-! Class 7 (R54, R124). -/

/-- Class 7 runs on a native link: agreed, and a cycle has started since (R54); while the engine does not run no cycle is
in progress, and class 7 runs as soon as the ends agree. Conventions: log 27. -/
def State.c7Send (s : State) (p : Nat) : Bool := s.c7Agreed p && ((s.pt p).c7Ok || !s.running)

/-- Class 7 may not leave on the port (R54). -/
def State.c7Blocked (s : State) (e : Nat) : Bool :=
  decide (e < 28) && (!(s.pt e).up || (s.native e && !s.c7Send e))

/-- A reserved connection from the ingress is open at the egress for a stream's window (R124, R176).
Conventions: log 28. -/
def State.c7Open (s : State) (e i window : Nat) : Bool :=
  decide (e < 24) && decide (s.sw.conn e = some (i, window))
    && (match s.sw.gate e with
        | some (k, m) => decide (k = window) && m.getLsbD 7
        | none => false)

/-- A class-7 frame that leaves while a class 0 to 5 frame is on the line preempts it (R45, R46): with PREEMPT, or within the
preemption that a class-7 frame still in flight keeps open. -/
def State.preempt (s : State) (e n : Nat) : State :=
  match s.sw.lineOf e with
  | some l =>
    if vqQueue l.key % 8 < 6 ∧ s.mayPreempt e then
      let share : Bool := (s.pt e).txSusp && decide (s.now ≤ (s.pt e).c7Until)
      let t := if share then s
        else ((((s.resumeTx e).emit e none [preemptBeat]).countP (Reg.portPreemptTx e) e).perf (0x1C0 + e))
      t.onPt e fun y => { y with txSusp := true, c7Until := s.now + s.beats e (frameBeats n) }
    else s
  | none => s.resumeTx e

/-- A class-7 copy leaves at once, unchanged (R124). Conventions: log 27. -/
def State.sendC7 (s : State) (e : Nat) (b : List Byte) (ts hint : Nat) : State :=
  ((((s.preempt e b.length).countTx e b).sent e b 0 ts none 7 hint).lineBusy e b.length).onPt e fun y =>
    { y with c7End := ts * 5 + s.lineFifths e (s.pt e).mode b.length * 256 }

/-- One class-7 copy of a frame on an open connection. Conventions: log 27. -/
def State.directC7 (s : State) (p e : Nat) (f : Frm) (x : RxFrame) (v : Verdict) (long_ started : Bool) : State :=
  let whole : Bool := s.native p && !s.native e
  let n := f.bytes.length
  let ts := leftAt x e
  if started && !whole && (s.pt e).fillCut then s.passed e
  else if s.maxfrm e < n then
    let t := s.countP (Reg.txOversize e) e
    if whole || !(started || v = .good) then t else (t.preempt e n).endBad e f.bytes 2 ts 7 f.hint
  else if v = .good then s.sendC7 e f.bytes ts f.hint
  else if started && !whole then (s.preempt e n).endBad e f.bytes (if long_ then 2 else v.reason) ts 7 f.hint else s

/-- The copies of a class-7 frame (R54, R124): sent on open connections, else buffered; a frame for an inbound slot goes
to port 31 as well (R189). -/
def State.scheduled (s : State) (p : Nat) (v : Verdict) (r : Res) (f : Frm) (x : RxFrame) : State :=
  let e := match r.stream with
    | some n => s.stream n
    | none => {}
  let f := { f with plain := true, deadline := e.deadline, stream := r.stream.getD 0 }
  let long_ : Bool := decide (s.maxfrm p < x.bytes.length)
  let all := portsOf r.dests
  let multi : Bool := decide (1 < all.length + b2n e.slotEn)
  let t := all.foldl (fun u y => if u.c7Blocked y then u.countP (Reg.txC7Blocked y) y else u) s
  let open_ := all.filter fun y => !s.c7Blocked y && s.c7Open y p e.window
  let rest := all.filter fun y => !s.c7Blocked y && !s.c7Open y p e.window
  let t := open_.foldl (fun u y => u.directC7 p y f x v long_ (bit x.started y)) t
  match v with
  | .good => t.enqueue f ((rest ++ (if e.slotEn then [31] else [])).map fun y => (y, false)) multi
  | .long_ =>
    let host := rest.filter fun y => decide (y = 29 ∨ y = 30)
    (t.refuseOnly f (rest.filter fun y => !host.contains y) multi).enqueue { f with big := true } (host.map fun y => (y, false)) multi
  | _ => if f.bytes.length < 64 then t else t.refuseOnly f rest multi

/-! Sampling (R132). -/

/-- A sample copy: a header of 16 bytes and the frame's first bytes. Conventions: log 30. -/
def sampleBytes (p cls : Nat) (v : Verdict) (n : Nat) (x : RxFrame) : List Byte :=
  [BitVec.ofNat 8 (p + cls * 32), BitVec.ofNat 8 (b2n (decide (v ≠ .long_) && !fcsGood x.bytes) + b2n (decide (v = .long_)) * 2 + b2n (decide (128 < n)) * 4)]
    ++ leBytes 2 n ++ leBytes 8 x.ts.toNat ++ [x.sub, 0, 0, 0] ++ x.bytes.take 128

/-- The frame counts for sampling, and every Nth gives a copy (R132). Conventions: log 30. -/
def State.sampleRx (s : State) (p cls : Nat) (v : Verdict) (x : RxFrame) : State :=
  let n := x.bytes.length
  if n < 64 ∨ 28 ≤ p then s
  else
    let k := Tab.get (fun _ => 0) s.sw.sampled p + 1
    let t := s.onSw fun y => { y with sampled := Tab.set (fun _ => 0) y.sampled p k }
    let w := s.rd (Reg.swcSample p)
    if bit w 24 && decide (k % (getFld w 0 24 + 1) = 0) then
      let d := if 1 ≤ getFld w 25 4 ∧ getFld w 25 4 ≤ 4 then getFld w 25 4 else 0
      let e := if d = 0 then 28 else hostPort (d - 1)
      match t.fate (8 * e) with
      | .refuse _ => (t.countQ Reg.swcSampleDrop).raise 106
      | _ =>
        t.enqueue
          { bytes := sampleBytes p cls v n x, ingress := p, cls := 0, ts := x.ts, sub := x.sub, vid := 0, pcp := 0, plain := true,
            sample := 1 + d, big := decide (v = .long_), deadline := 0, tsReq := none, refs := 0, pool := 0 } [(e, false)] false
    else t

/-- A frame with EtherType 0x8808 goes no further than its counters (R91). Conventions: log 30. -/
def isPause (b : List Byte) : Bool := decide (14 ≤ b.length) && decide (etherOf b = 0x8808)

/-- The frame as the buffer holds it (R115). -/
def State.heldFrame (s : State) (p cls vid : Nat) (b : List Byte) (ts : Raw) (sub : Byte) : Frm :=
  { bytes := b, ingress := p, cls := cls, ts := ts, sub := sub, vid := vid, pcp := s.pcpOf p b, plain := false, sample := 0, big := false,
    deadline := 0, tsReq := none, refs := 0, pool := 0 }

/-- A frame of class 0 to 6 inside a preemption means that RESUME was lost; an ABORT of a class-7 frame there counts too
(R47). With any SOF a run of discarded beats ends. Conventions: log 20. -/
def State.lostResume (s : State) (p : Nat) (x : RxFrame) : State :=
  let s := s.onPt p fun y => { y with rx := { y.rx with drop := false } }
  if !(s.pt p).rxSusp then s
  else if x.sofCls ≠ 7 then (s.lineErr (Reg.portLerrType p) p).suspendedLost p
  else
    let t := s.onPt p fun y => { y with rx := { y.rx with c7 := true } }
    match x.ending with
    | .abort _ => t.lineErr (Reg.portLerrType p) p
    | _ => t

/-- The stamps a frame's arrival and its cut-through copies take (R207, R250, R251): its coarse instants at the reference
plane. -/
def State.stampFrame (s : State) (p : Nat) (x : RxFrame) : RxFrame :=
  let u := stamp256 (s.rxPlane p { at_ := x.ts.toNat * 256 + x.sub.toNat, phase := x.phase })
  { x with ts := BitVec.ofNat 64 (u / 256), sub := BitVec.ofNat 8 u, left := x.left.map fun y => (y.1, stamp256 (s.txPlane y.1 y.2)) }

/-- A frame that was in progress when the line last ended every frame as bad is bad itself (R38, R44, R96).
Conventions: log 20. -/
def State.asBroken (s : State) (p : Nat) (x : RxFrame) : RxFrame :=
  match (s.pt p).brokenAt with
  | none => x
  | some r => if x.ts.toNat < r then { x with ending := .lineBad } else x

/-- The frame's end lets buffered values apply, unless a suspended frame still comes (R359). -/
def State.rxDone (s : State) (p : Nat) : State :=
  if (s.pt p).rxSusp then s else (s.onPt p fun y => { y with rxOpen := false }).applyF p

/-- The frame is a PTP frame of a port that carries time by PTP (R228): under profiles 1 to 3 it ends at the port unless it
crosses under tc_en (R231), under profile 4 it is the owning context's. Conventions: logs 29, 53. -/
def State.ptpHere (s : State) (p : Nat) (b : List Byte) : Bool :=
  let x := s.ptm p
  !s.native p && (ptpAt b).isSome && (decide (x.profile = 4) || (decide (1 ≤ x.profile ∧ x.profile ≤ 3) && !s.tcEn p))

/-- A PTP frame goes to RX ring 1 of the PCIe context that owns its port (R228, profile 4). Conventions: logs 29, 53. -/
def State.hostPtp (s : State) (p : Nat) (x : RxFrame) : State :=
  match s.owner 0 p with
  | some c =>
    if (s.ptm p).profile = 4 ∧ c < 4 then
      s.enqueue { s.heldFrame p 6 (s.vidOf p x.bytes) x.bytes x.ts x.sub with plain := true, to_ := some c } [(hostPort c, false)] false
    else s
  | none => s

/-- The medium of an M port falls silent: the inter-frame gap of 96 bit times runs (R100). -/
def State.carrierEnd (s : State) (p : Nat) : State :=
  s.onSw fun x => { x with gapEnd := Tab.set (fun _ => 0) x.gapEnd p (s.now + 12000) }

/-- A frame received on an external port (R88 to R96, R116, R141, R148). Conventions: log 26. -/
def State.receiveFrame (s : State) (p : Nat) (y : RxFrame) : State :=
  let native := s.native p
  let x := s.asBroken p y
  let t := if native then s.lostResume p x else s.countN (Reg.rxLineErr p) (64 + p) x.symErr
  let t := if native && decide (16384 < x.hint) then t.lineErr (Reg.portLerrType p) p else t
  let hint := if native && decide (x.hint ≤ 16384) then x.hint else 0
  let sof := if native then x.sofCls else 0
  let max := t.maxfrm p
  let n := x.bytes.length
  let v := judge x max
  let b := x.bytes.take max
  let t := (t.countRx p n max).countBad p v
  let t := if v = .good then t.countRxType p b else t
  let mine := t.ptpHere p b
  let seen : Bool := !isPause b && !mine && (decide (16 ≤ n) || decide (0 < hint))
  let l := if seen then t.lookup p sof hint none b else (t, none)
  let cls := match l.2 with
    | some r => r.cls
    | none => t.classOf p sof false b
  let t := (l.1.sampleRx p cls v x)
  let t := if v = .good && !isPause b then t.learn p b else t
  let t := if v = .good && mine then t.hostPtp p x else t
  let t := match l.2 with
    | none => t
    | some r =>
      let f := t.heldFrame p r.cls r.vid b x.ts x.sub
      if native && !t.c7Send p && (decide (r.cls = 7) || decide (sof = 7)) then t.countP (Reg.rxC7Discard p) p
      else if r.cls = 7 then t.scheduled p v r f x
      else t.bestEffort p v r f x
  (if mPort p then t.carrierEnd p else t).rxDone p

/-- FRAME_RECEIVE (R88). -/
def execFrameReceive (port : Nat) (frame : RxFrame) (s : State) : Outcome State Fault Refusal :=
  onUnit 28 port (s.event fun t => if t.absent port || !(t.pt port).up then t
    else (t.notePhase port { at_ := 0, phase := frame.phase }).receiveFrame port (t.stampFrame port frame))

/-- PORT_FRAME_SET (R87). -/
def execPortFrameSet (h : CmdHdr) (port maxfrm : Nat) (ctEn : Bool) (s : State) : Outcome State Fault Refusal :=
  s.cmd h 0x0107
    (fun t => { gone := firstBad [(0, decide (port < 28) && t.exists port)], owned := [(0, port)], reins := [portRein port],
                bad := firstBad [(1, if port < 24 then decide (1518 ≤ maxfrm) && decide (maxfrm ≤ 9216) else decide (maxfrm = 1522))] })
    fun t =>
      .done [] ((t.writeF port (Reg.portMaxfrm port) (putFld (t.readBack (Reg.portMaxfrm port)) 0 14 maxfrm)).setFld
        (Reg.portFrmCtrl port) 0 1 (b2n ctEn))

/-! TX rings (R109, R110). -/

/-- What the buffer of a descriptor holds. -/
def descBytes (d : Desc) : List Byte := d.data.take d.len ++ List.replicate (d.len - d.data.length) 0

/-- The bytes of a TX frame, with padding and FCS (R97, R109). -/
def txBytes (ds : List Desc) (fcs : Bool) : List Byte :=
  let b := ds.flatMap descBytes
  if fcs then b else withFcs (b ++ List.replicate (60 - b.length) 0)

/-- The length and the places of the next TX frame: `none` while its eop is not posted; `(k, false)` for descriptors
that are INCOMPLETE (R110). Conventions: log 28. -/
def nextTx : List Desc → Nat → Option (Nat × Bool)
  | [], _ => none
  | d :: rest, k =>
    if k = 0 ∧ !d.ctl.getLsbD 0 then some (1, false)
    else if 0 < k ∧ d.ctl.getLsbD 0 then some (k, false)
    else if d.ctl.getLsbD 1 then some (k + 1, true)
    else nextTx rest (k + 1)

/-- Bytes 16 to 31 of a posted TX descriptor are not zero where R109 marks them so: 25, 28 to 30 and 31 [6:0]. -/
def restBad (b : List Byte) : Bool :=
  [9, 12, 13, 14].any (fun i => decide (b.getD i 0 ≠ 0)) || decide ((b.getD 15 0).toNat % 128 ≠ 0)

/-- The status of a TX frame before it is offered to the switch: the first cause in the table's order (R109).
Conventions: log 28. -/
def State.txFault (s : State) (c : Nat) (ds : List Desc) : Option Nat :=
  match ds with
  | [] => some 4
  | d :: _ =>
    let fcs := d.ctl.getLsbD 2
    let direct := d.ctl.getLsbD 3
    let tsr := d.ctl.getLsbD 4
    let n := (txBytes ds fcs).length
    let ports := portsOf d.portMask
    let badDesc : Bool :=
      decide (7 ≤ d.cls)
        || ds.any (fun x => decide (32 ≤ x.ctl.toNat) || decide (x.len = 0) || decide (16384 < x.len) || restBad x.rest)
        || (direct && (ports.isEmpty || ports.any fun p => decide (28 ≤ p) || s.absent p))
        || (tsr && (!direct || decide (ports.length ≠ 1)))
    if fcs && decide (n < 64) then some 2
    else if 9216 < n then some 3
    else if badDesc then some 4
    else if direct && ports.any (fun p => decide (s.owner 0 p ≠ some c)) then some 5
    else none

/-- A TX frame is written back in its turn. -/
def State.txWb (s : State) (c r : Nat) (w : TxWb) : State :=
  (s.onCx c fun x => x.setWb r (x.wb r ++ [w])).flushAll c r

/-- A TX frame enters the switch (R103, R109): the FCS a host supplies is not checked, so a frame counts by its type whatever
it is (R97; DEDUCED, log 57); whether it was refused by every queue it was offered to. Conventions: log 28. -/
def State.txEnter (s : State) (c r h : Nat) (ds : List Desc) : State × Bool :=
  match ds with
  | [] => (s, false)
  | d :: _ =>
    let p := hostPort c
    let b := txBytes ds (d.ctl.getLsbD 2)
    let t := (s.countRx p b.length 9216).countRxType p b
    let base : Frm := { t.heldFrame p d.cls (t.vidOf p b) b s.raw 0 with
                        tsReq := if d.ctl.getLsbD 4 then some (2 * c + (r - 2), h) else none }
    if d.ctl.getLsbD 3 then
      let es := portsOf d.portMask
      let u := t.enqueue { base with plain := true } (es.map fun e => (e, false)) (decide (1 < es.length))
      (u, u.sw.nextId = t.sw.nextId)
    else if isPause b then (t, false)
    else
      let l := t.lookup p 0 0 (some d.cls) b
      let t := if fcsGood b then l.1.learn p b else l.1
      match l.2 with
      | none => (t, false)
      | some x =>
        let es := portsOf x.dests
        let u := t.enqueue { base with vid := x.vid } (es.map fun e => (e, bit x.untag e)) (decide (1 < es.length))
        (u, !es.isEmpty && decide (u.sw.nextId = t.sw.nextId))

/-- The raw time at which the TX frame at head had its sop posted, set. -/
def Ctx.setSop (x : Ctx) (r : Nat) (v : Option Nat) : Ctx := if r = 2 then { x with sopAt0 := v } else { x with sopAt1 := v }
def Ctx.sop (x : Ctx) (r : Nat) : Option Nat := if r = 2 then x.sopAt0 else x.sopAt1

/-- The frames posted on a TX ring are read as far as their eop is posted (R110); the first argument bounds them.
Conventions: log 28. -/
def State.serveTx : Nat → State → Nat → Nat → State
  | 0, s, _, _ => s
  | fuel + 1, s, c, r =>
    if !s.bitAt (Reg.ringCtrl c r) 0 then s
    else
      let ds := (s.cx c).posted r
      let h := s.fld (Reg.ringHead c r) 0 12
      match nextTx ds 0 with
      | none =>
        if ds.isEmpty then s.onCx c fun x => x.setSop r none
        else s.onCx c fun x => x.setSop r (some ((x.sop r).getD s.now))
      | some (k, false) =>
        State.serveTx fuel (((s.advance c r k).onCx c fun x => x.setSop r none).txWb c r { head := h, count := k, status := some 1 }) c r
      | some (k, true) =>
        let fr := ds.take k
        let t := (s.advance c r k).onCx c fun x => x.setSop r none
        match s.txFault c fr with
        | some st => State.serveTx fuel (t.txWb c r { head := h, count := k, status := some st }) c r
        | none =>
          let e := t.txEnter c r h fr
          let wait : Bool := match fr with
            | d :: _ => d.ctl.getLsbD 4 && !e.2
            | [] => false
          State.serveTx fuel
            (e.1.txWb c r { head := h, count := k, status := if e.2 then some 6 else if wait then none else some 0 }) c r

/-- A TX ring is read as far as its descriptors go: each round takes one at least. -/
def State.serveTxAll (s : State) (c r : Nat) : State := State.serveTx (((s.cx c).posted r).length + 1) s c r

/-- A descriptor whose contents no operand gives: the host's memory holds what it holds (R107) (DEDUCED, log 28). -/
def State.freeDesc (s : State) (j : Nat) : Desc :=
  let v := fun i => Config.hostDesc (s.freeCtr + j) i
  let n := v 0 % 65536
  { addr := v 4, len := n, ctl := BitVec.ofNat 8 (v 1), cls := v 2 % 256, portMask := w32 (v 3),
    data := (List.range n).map fun i => BitVec.ofNat 8 (Config.hostDesc (s.freeCtr + j) (5 + i)) }

/-- A write of a ring's tail (R106, R108, R110): the descriptors up to it are posted; `posted` is what the host wrote
in them. -/
def State.ringTail (s : State) (c r : Nat) (v : Word) (posted : List Desc) : State :=
  let n := max 1 (s.ringSizeOf c r)
  let k := (getFld v 0 12 + n - s.fld (Reg.ringTail c r) 0 12 % n) % n
  let got := (List.range k).map fun j => (posted[j]?).getD (s.freeDesc (j - posted.length))
  let t := (s.wr (Reg.ringTail c r) v).onCx c fun x => x.setPosted r (x.posted r ++ got)
  let t : State := { t with freeCtr := t.freeCtr + (k - posted.length) }
  if r < 2 then t.serveAll c r else t.serveTxAll c r

/-- A write of a ring's control: a ring that starts serves what is posted, one that stops discards its frames (R108). -/
def State.ringCtl (s : State) (c r : Nat) (v : Word) : State :=
  let t := s.wr (Reg.ringCtrl c r) v
  if r < 2 then t.serveAll c r else t.serveTxAll c r

/-- HCX_RING_TAIL_WRITE (R108). -/
def execHcxRingTailWrite (c ring : Nat) (value : Word) (posted : List Desc) (s : State) : Outcome State Fault Refusal :=
  if ring < 4 then onUnit 4 c (s.event fun t => t.ringTail c ring value posted) else .fault .noSuchUnit

/-- TX_RING_TIMEOUT (R110): the frame at head has had its sop posted for tmo and no eop. -/
def execTxRingTimeout (c ring : Nat) (s : State) : Outcome State Fault Refusal :=
  if 2 ≤ ring ∧ ring < 4 then
    onUnit 4 c (s.event fun t =>
      match (t.cx c).sop ring with
      | none => t
      | some a =>
        if t.bitAt (Reg.ringCtrl c ring) 0 && decide (a + max 1 (t.fld (Reg.ringCtrl c ring) 16 16) * 12500 ≤ t.now) then
          let k := ((t.cx c).posted ring).length
          let h := t.fld (Reg.ringHead c ring) 0 12
          (((t.advance c ring k).onCx c fun x => x.setSop ring none).txWb c ring { head := h, count := k, status := some 1 }).stick
            (Reg.ringStat c ring) 9
        else t)
  else .fault .noSuchUnit

/-- RING_DMA_ERROR (R111): an RX frame is in progress while its ring holds it, a TX frame while its descriptors stand at head.
Conventions: log 28. -/
def execRingDmaError (c ring : Nat) (s : State) : Outcome State Fault Refusal :=
  if ring < 4 then
    onUnit 4 c (s.event fun t =>
      let u := ((t.stick (Reg.ringStat c ring) 8).setFld (Reg.ringCtrl c ring) 0 1 0).raise (243 + c)
      if ring < 2 then u.serveAll c ring
      else if ((t.cx c).posted ring).isEmpty then u
      else
        let k := ((nextTx ((t.cx c).posted ring) 0).map (·.1)).getD ((t.cx c).posted ring).length
        (u.onCx c fun x => x.setSop ring none).putTxBack c ring (t.fld (Reg.ringHead c ring) 0 12) k 7 none)
  else .fault .noSuchUnit

/-- TX_TIMESTAMP_WRITEBACK (R109): the awaited frame at the front of the ring's write-backs has left, and its descriptors are
written back with the time of its first bit. -/
def execTxTimestampWriteback (c ring : Nat) (s : State) : Outcome State Fault Refusal :=
  if 2 ≤ ring ∧ ring < 4 then
    onUnit 4 c (s.event fun t =>
      match (t.cx c).wb ring with
      | w :: _ =>
        if w.status.isNone && w.left.isSome then (t.txStatus (2 * c + (ring - 2)) w.head (some 0) none).flushAll c ring else t
      | [] => t)
  else .fault .noSuchUnit

end Sys2Proof.Machine
end

