-- ==== Sys2Proof/Machine/Switch.lean ====
section
/-! DEFINITION. The switch core (R113 to R140): cell slots, transmission, ageing, overflow, the DRAM lottery, its
commands and its faults. -/

namespace Sys2Proof.Machine

open Host

/-! Cell slots (R121, R122). -/

/-- One cell slot: two iterations, then the cells matched cross. -/
def State.cellSlot (s : State) : State :=
  let down := (List.range 28).filter fun e => !(s.pt e).up
  let conns := s.sw.conns.filterMap fun x => x.2.map fun c => (x.1, c.1)
  let m : Match := { ins := conns.map (·.2), outs := conns.map (·.1) ++ down }
  let t := s.perf 0xC0
  let t := if conns.isEmpty then t else t.perf 0xC3
  let t := (List.range 32).foldl (fun u e => if 4 ≤ u.stageCells e then u.perf (0x80 + e) else u) t
  let a := t.iterate m true
  let t := a.2.keys.foldl (fun u _ => u.perf 0xC1) a.1
  let b := t.iterate a.2 false
  let t := (b.2.keys.drop a.2.keys.length).foldl (fun u _ => u.perf 0xC2) b.1
  b.2.keys.foldl (fun u k => u.moveCell k) t

/-- CELL_SLOT (R122). Conventions: log 27. -/
def execCellSlot (s : State) : Outcome State Fault Refusal := .next (s.event State.cellSlot)

/-! Transmission (R124, R126). -/

/-- The frame's first bit has left at `ts` in 1/256 tick: its transmit descriptor may be written back (R109). -/
def State.markLeft (s : State) (f : Frm) (ts : Nat) : State :=
  match f.tsReq with
  | none => s
  | some (key, h) => s.txStatus key h none (some ts)

/-- A copy leaves its output stage unsent. -/
def State.dropStaged (s : State) (c : Staged) : State := (s.unqueue c).dropCopy (vqQueue c.key) c.copy

/-- The frame at the head of the output stage starts on the line where its gate is open, R45 does not hold it back and the
egress maxfrm admits it (R90, R126). Conventions: log 27. -/
def State.startLine (s : State) (e ts : Nat) : State :=
  match s.sw.stageOf e with
  | [] => s
  | c :: rest =>
    match s.sw.frame c.copy.id with
    | none => s.setStage e rest
    | some f =>
      let b := outBytes f c.copy.untag
      if (s.sw.lineOf e).isSome || !s.gateOpen e (vqQueue c.key % 8) || s.heldBack e (vqQueue c.key % 8) b.length then s
      else if s.maxfrm e < b.length then ((s.setStage e rest).dropStaged c).countP (Reg.txOversize e) e
      else
        -- an M port's frame has left once its attempt succeeds
        let t := (s.setStage e rest).lineBusy e b.length
        let t := if e < 24 then t.markLeft f ts else t
        if e < 24 ∧ cellsOf f.bytes.length ≤ c.copy.sent then t.finish c.key c.copy ts none
        else if s.native e then t.startBeats e { c with ts := ts }
        else t.setLineCopy e (some { c with ts := ts })

/-- The class-7 copy buffered for an open connection (R124, R131): sent, or discarded for its age or because class 7 may
not leave on the port (R54). -/
def State.sendBuffered (s : State) (e ts : Nat) : Option State :=
  match s.sw.conn e, s.sw.gate e with
  | some (i, w), some (k, m) =>
    if k = w ∧ m.getLsbD 7 then
      match s.sw.vq (vqKey e 7 i) with
      | [] => none
      | x :: rest =>
        let t := s.setVq (vqKey e 7 i) rest
        if s.expired x then some (t.agedOut (8 * e + 7) x)
        else if s.c7Blocked e then some ((t.dropCopy (8 * e + 7) x).countP (Reg.txC7Blocked e) e)
        else match s.sw.frame x.id with
          | none => some t
          | some f =>
            if s.maxfrm e < f.bytes.length then some ((t.dropCopy (8 * e + 7) x).countP (Reg.txOversize e) e)
            else some ((((t.preempt e f.bytes.length).markLeft f ts).finish (vqKey e 7 i) x ts none).lineBusy e f.bytes.length)
    else none
  | _, _ => none

/-- An attempt of an M port succeeds (R101). -/
def State.mSent (s : State) (e ts : Nat) : State :=
  match s.sw.lineOf e with
  | none => s
  | some c =>
    let x := Tab.get (fun _ => {}) s.sw.mtx e
    match s.sw.frame c.copy.id with
    | none => s.setLineCopy e none
    | some f =>
      if x.sending && decide (cellsOf f.bytes.length ≤ c.copy.sent) then
        let t := ((s.setLineCopy e none).onSw fun y => { y with mtx := Tab.set (fun _ => {}) y.mtx e {} }).markLeft f ts
        let t := if x.n = 1 then t.countP (Reg.txColSingle e) e else if 2 ≤ x.n then t.countP (Reg.txColMulti e) e else t
        (t.finish c.key c.copy ts none).carrierEnd e
      else s

/-- FRAME_TRANSMIT (R126): a buffered class-7 frame passes the output stage, and preempts where it says so (R46); on an M
port the attempt under way ends well. Conventions: log 27. -/
def execFrameTransmit (port : Nat) (preempting : Bool) (ts : Raw) (sub : Byte) (s : State) : Outcome State Fault Refusal :=
  onUnit 28 port (s.event fun t =>
    let at_ := stamp256 (t.txPlane port (ts.toNat * 256 + sub.toNat))
    if !(t.pt port).up then t
    else if 24 ≤ port then t.mSent port at_
    else
      let busy : Bool := (t.sw.lineOf port).isSome
      let mayGo : Bool := if preempting then busy && t.mayPreempt port else !busy
      match if mayGo then t.sendBuffered port at_ else none with
      | some u => u
      | none => if preempting then t else t.startLine port at_)

/-! CSMA/CD (R100, R101). -/

/-- An M port's transmission changed. -/
def State.onMtx (s : State) (e : Nat) (f : MTx → MTx) : State :=
  s.onSw fun y => { y with mtx := Tab.set (fun _ => {}) y.mtx e (f (Tab.get (fun _ => {}) y.mtx e)) }

/-- M_PORT_TX_ATTEMPT (R100): with no carrier, no back-off and the inter-frame gap past the frame at the head is tried; its
age counts at the first attempt (R101, R131). With tx_dis nothing is sent (R85). -/
def execMPortTxAttempt (port : Nat) (carrier : Bool) (s : State) : Outcome State Fault Refusal :=
  onUnit 28 port (s.event fun t =>
    let x := Tab.get (fun _ => {}) t.sw.mtx port
    if !mPort port || !(t.pt port).up || x.sending || x.until_.isSome then t
    else if carrier then t.carrierEnd port
    else if !t.txOn port || decide (t.now < Tab.get (fun _ => 0) t.sw.gapEnd port) then t
    else match t.sw.lineOf port, t.sw.stageOf port with
      | some _, _ => t.onMtx port fun y => { y with sending := true }
      | none, [] => t
      | none, c :: rest =>
        if t.expired c.copy then (((t.setStage port rest).unqueue c).agedOut (vqQueue c.key) c.copy)
        else
          let u := t.startLine port (t.now * 256)
          if (u.sw.lineOf port).isSome then u.onMtx port fun y => { y with sending := true } else u)

/-- M_PORT_COLLISION (R100, R101). Conventions: log 51. -/
def execMPortCollision (port bitTimes : Nat) (s : State) : Outcome State Fault Refusal :=
  onUnit 28 port (s.event fun t =>
    let x := Tab.get (fun _ => {}) t.sw.mtx port
    match t.sw.lineOf port with
    | none => t
    | some c =>
      let gone := fun (u : State) => ((u.setLineCopy port none).dropStaged c).onMtx port fun _ => {}
      if !mPort port || !x.sending then t
      else if 512 < bitTimes then (gone t).countP (Reg.txColLate port) port
      else if 16 ≤ x.n + 1 then (gone t).countP (Reg.txColExcess port) port
      else
        let k := Tab.get (fun _ => 0) t.sw.draws port
        let r := Config.backoff t.serial port k % 2 ^ min (x.n + 1) 10
        ((t.onMtx port fun y => { y with n := x.n + 1, sending := false, until_ := some (t.now + r * 64000) }).onSw fun y =>
          { y with draws := Tab.set (fun _ => 0) y.draws port (k + 1) }).carrierEnd port)

/-- M_PORT_BACKOFF_EXPIRY (R100). -/
def execMPortBackoffExpiry (port : Nat) (s : State) : Outcome State Fault Refusal :=
  onUnit 28 port (s.event fun t =>
    match (Tab.get (fun _ => {}) t.sw.mtx port).until_ with
    | some r => if r ≤ t.now then t.onMtx port fun y => { y with until_ := none } else t
    | none => t)

/-! Ageing (R131). -/

/-- Expired heads of a queue go, up to the first that has not expired or has started. -/
def sweepList (drop : State → Copy → List Copy → State) : List Copy → State → State
  | [], t => t
  | x :: rest, t => if x.sent = 0 ∧ t.expired x then sweepList drop rest (drop t x rest) else t

/-- HEAD_SWEEP (R131): every virtual output queue and every host ring's queue. -/
def execHeadSweep (s : State) : Outcome State Fault Refusal :=
  .next (s.event fun t =>
    let t := (t.sw.voq.map (·.1)).foldl (fun u k =>
      sweepList (fun v x rest => (v.setVq k rest).agedOut (vqQueue k) x) (u.sw.vq k) u) t
    (List.range 8).foldl (fun u j =>
      let v := sweepList (fun v x rest =>
        let cls := ((v.sw.frame x.id).map (·.cls)).getD 0
        (v.setRing j rest).agedOut (8 * hostPort (j / 2) + cls) { x with sent := 0 })
        ((u.sw.ring j).map fun x => { x with sent := 0 }) u
      v.serveAll (j / 2) (j % 2)) t)

/-! Overflow (R127 to R130). -/

/-- DRAM is trained and usable (R133). -/
def State.dramReady (s : State) : Bool := s.bitAt Reg.swcDramStat 16

/-- OVERFLOW_RECORD_WRITE (R129): the oldest staged record is written, its header last. -/
def execOverflowRecordWrite (s : State) : Outcome State Fault Refusal :=
  .next (s.event fun t =>
    match t.sw.stagedQ with
    | [] => t
    | q :: _ =>
      match (t.sw.seg q).find? fun r => !r.written with
      | none => t.onSw fun x => { x with stagedQ := x.stagedQ.erase q }
      | some r =>
        if !t.dramReady then t
        else
          let i := (t.sw.seg q).findIdx fun x => !x.written
          ((t.setSeg q ((t.sw.seg q).set i { r with written := true })).unstage q r true).countQ (Reg.swcQspilled q))

/-- The oldest record of a segment is taken from it. -/
def State.popSeg (s : State) (q : Nat) (r : Rec) (rest : List Rec) : State :=
  let at_ := Tab.get (fun _ => 0) s.sw.dramAt q + recBytes r.frm.bytes.length
  (s.setSeg q rest).onSw fun x => { x with dramAt := Tab.set (fun _ => 0) x.dramAt q (if rest.isEmpty then 0 else at_ % 65536) }

/-- DRAM_RETURN (R130, R131, R140): the queue's oldest record comes back once its SRAM part is short and the pool has its
cells. -/
def execDramReturn (queue : Nat) (hdr : List Byte) (s : State) : Outcome State Fault Refusal :=
  onUnit 256 queue (s.event fun t =>
    match t.sw.seg queue with
    | [] => t
    | r :: rest =>
      if !r.written || !t.dramReady || decide (t.fld Reg.swcReturnThr 0 15 ≤ t.occ queue) then t
      else if !headerOk hdr then (t.flushSeg queue).raise 102
      else
        let f := r.frm
        let n := cellsOf f.bytes.length
        if t.ageLimit f true < t.now - f.ts.toNat then
          (((t.popSeg queue r rest).txGone f).countQ (Reg.swcQaged queue)).raise 98
        else if t.poolFree < n then t
        else
          let id := t.sw.nextId
          let k := queue * 32 + f.ingress
          let u := ((t.popSeg queue r rest).takeCells n).setFrame id (some { f with refs := 1, pool := n })
          let u := u.onSw fun x => { x with nextId := id + 1 }
          let u := (u.setVq k (u.sw.vq k ++ [{ id := id, sent := 0, dram := true, untag := r.untag }])).addOcc queue n
          u.countQ (Reg.swcQreturned queue))

/-- Every segment is discarded (R140). -/
def State.flushDram (s : State) : State := (s.sw.dram.map (·.1)).foldl (fun t q => t.flushSeg q) s

/-- DRAM_READY_CHANGE (R139, R140, R170). -/
def execDramReadyChange (ready : Bool) (s : State) : Outcome State Fault Refusal :=
  .next (s.event fun t =>
    if t.dramReady = ready then t
    else
      let u := (t.setFld Reg.swcDramStat 16 1 (b2n ready)).raise 99
      if ready then u else u.flushDram.poolMark)

/-! The DRAM lottery (R136, R137). -/

/-- The LFSR advances once (R136). Conventions: log 33. -/
def lfsrNext (w : Word) : Word := (w >>> 1) ^^^ (if w.getLsbD 0 then 0x80200003 else 0)

/-- The winner of a draw by weights, or none. Conventions: log 33. -/
def drawOf : List Nat → Nat → Nat → Nat → Option Nat
  | [], _, _, _ => none
  | w :: t, r, acc, i => if r < acc + w then some i else drawOf t r (acc + w) (i + 1)

/-- The draw of a slot (R136): the winner for an LFSR value, the tickets and the active requesters.
Conventions: log 33. -/
def lottery (lfsr : Word) (tickets : List Nat) (active : BitVec 6) : Option Nat :=
  let pick := fun (ws : List Nat) =>
    let total := ws.foldl (· + ·) 0
    if total = 0 then none else drawOf ws (lfsr.toNat / 65536 * total / 65536) 0 0
  let ws := (List.range 6).map fun i => if active.getLsbD i then tickets.getD i 0 else 0
  if ws.foldl (· + ·) 0 = 0 then pick ((List.range 6).map fun i => b2n (active.getLsbD i)) else pick ws

/-- DRAM_SLOT_DRAW (R136). -/
def execDramSlotDraw (active : BitVec 6) (s : State) : Outcome State Fault Refusal :=
  .next (s.event fun t =>
    let lfsr := lfsrNext (t.rd Reg.arbLfsr)
    let u := t.wr Reg.arbLfsr lfsr
    match lottery lfsr ((List.range 6).map fun i => t.fld (Reg.arbTicket i) 0 8) active with
    | none => u.perf 0xE6
    | some w =>
      (List.range 6).foldl (fun v i => if active.getLsbD i && i != w then v.perf (0xE8 + i) else v)
        ((u.count (Reg.arbGrant w) 107).perf (0xE0 + w)))

/-- The arbiter's buffered registers. -/
def isArb (a : Nat) : Bool := decide (0x700100 ≤ a) && decide (a < 0x700130)

/-- A commit of the arbiter takes the staged values, to be applied at the next slot boundary (R137): what is staged later, or
discarded, does not change them. A commit that already waits keeps what a new one does not stage. Conventions: log 33. -/
def State.arbCommit (s : State) : State :=
  let new := s.pendK.filter fun x => isArb x.1
  let old := (s.sw.arbDue.getD []).filter fun x => !new.any fun y => decide (y.1 = x.1)
  (s.dropK isArb).onSw fun x => { x with arbDue := some (old ++ new) }

/-- ARB_COMMIT_APPLY (R137, R360): with nothing captured nothing changes. Conventions: log 33. -/
def execArbCommitApply (s : State) : Outcome State Fault Refusal :=
  .next (s.event fun t =>
    match t.sw.arbDue with
    | none => t
    | some l =>
      let u := t.onSw fun x => { x with arbDue := none }
      if l.isEmpty then u
      else
        let u := l.foldl (fun v x => v.wr x.1 x.2) u
        let u := (List.range 6).foldl (fun v i => v.wr (Reg.arbTicket i) (w32 (v.fld (Reg.arbTicketSh i) 0 8))) u
        u.wr Reg.arbLfsr (if u.rd Reg.arbLfsrSeed = 0 then 1 else u.rd Reg.arbLfsrSeed))

/-! Faults (R140). -/

/-- BUFFER_ECC_ERROR (R140). Conventions: log 31. -/
def execBufferEccError (what : BufEcc) (s : State) : Outcome State Fault Refusal :=
  .next (s.event fun t =>
    match what with
    | .corrected => (t.countQ Reg.swcEccCorr).raise 103
    | .descriptor q cells =>
      if 256 ≤ q then t
      else
        let u := (t.flushQueue q).flushSeg q
        (((u.onSw fun x => { x with quar := x.quar + cells }).countQ Reg.swcEccUncorr).raise 104).poolMark
    | .freeList => ((t.onSw fun x => { x with quar := x.quar + 1 }).raise 104).poolMark
    | .blockTable => (t.onSw fun x => { x with quarBlk := x.quarBlk + 1 }).raise 104)

/-! Commits (R133, R360). -/

/-- The SWC block's addresses. -/
def isSwc (a : Nat) : Bool := decide (0x200000 ≤ a) && decide (a < 0x300000)

/-- The sum of the floors in the registers. Conventions: log 34. -/
def State.floorSum (s : State) : Nat := ((List.range 256).map s.floorOf).foldl (· + ·) 0

/-- The staged SWC values would leave too small a pool (R133). Conventions: log 34. -/
def State.swcOver (s : State) : Bool :=
  let t := s.applyK isSwc
  decide (122880 < t.headroom + t.floorSum)

/-- A commit of the switch core (R126, R133). -/
def State.swcCommit (s : State) : State :=
  if s.swcOver then s.stick Reg.swcCfgStat 0
  else
    let t := s.applyK isSwc
    let t := t.onSw fun x => { x with floors := t.floorSum }
    ((List.range 32).foldl (fun u e =>
      if s.pendK.any fun x => decide (x.1 = Reg.swcDrr0 e) || decide (x.1 = Reg.swcDrr1 e) then
        let v := (List.range 6).foldl (fun v c => v.setDeficit (8 * e + c) 0) u
        v.onSw fun x => { x with turn := Tab.set (fun _ => 0) x.turn e 0, started := Tab.set (fun _ => false) x.started e false }
      else u) t).poolMark

/-- A write of SWC_SAMPLEp restarts the count (R132). -/
def State.writeSample (s : State) (p : Nat) (v : Word) : State :=
  (s.wr (Reg.swcSample p) v).onSw fun x => { x with sampled := Tab.set (fun _ => 0) x.sampled p 0 }

/-! Commands (R135). -/

/-- The port of a switch-core command, and its owner where it has one. -/
def State.swcNeed (s : State) (p : Nat) (reins : List Nat) (bad : Option Nat) : Need :=
  { gone := firstBad [(0, decide (p < 32) && s.exists p)], owned := if p = 28 ∨ p = 31 then [] else [(0, p)], reins := reins, bad := bad }

/-- The queues spill exists for (R127). -/
def mayStore (e c : Nat) : Bool := decide (c < 6) && spillPort e

/-- A field of a staged register set. -/
def State.stageFld (s : State) (a lo len v : Nat) : State := s.stage a (putFld (s.readBack a) lo len v)

/-- The staged values are committed, or refused with RANGE where they leave too small a pool (R133). -/
def commitOr (i : Nat) (t : State) : CmdEnd := if t.swcOver then .refuse St.range [i] else .done [] t.swcCommit

/-- SWC_QUEUE_SET (R135). -/
def execSwcQueueSet (h : CmdHdr) (port profile : Nat) (s : State) : Outcome State Fault Refusal :=
  s.cmd h 0x0201 (fun t => t.swcNeed port [8] (firstBad [(1, decide (profile < 3))])) fun t =>
    commitOr 1 ((List.range 6).foldl (fun u c =>
      let a := Reg.swcQcfg (8 * port + c)
      let d := Reg.swcQdramCfg (8 * port + c)
      let en := b2n (mayStore port c)
      if profile = 0 then
        (((u.stageFld a 12 4 4).stageFld a 28 1 en).stageFld a 16 12 64).stageFld d 0 16 1024
      else if profile = 1 then (u.stageFld a 12 4 2).stageFld a 28 1 0
      else (((u.stageFld a 12 4 5).stageFld a 28 1 en).stageFld a 16 12 32).stageFld d 0 16 8192) t)

/-- SWC_PCP_SET (R135). -/
def execSwcPcpSet (h : CmdHdr) (port : Nat) (classes : List Nat) (defPcp : Nat) (s : State) : Outcome State Fault Refusal :=
  s.cmd h 0x0202
    (fun t => t.swcNeed port [8] (firstBad [(1, decide (classes.length = 8) && classes.all fun c => decide (c < 8)), (2, decide (defPcp < 8))]))
    fun t =>
      let w := (List.range 8).foldl (fun w k => putFld w (3 * k) 3 (classes.getD k 0)) (t.readBack (Reg.swcPcpMap port))
      .done [] (t.writeF port (Reg.swcPcpMap port) (putFld w 24 3 defPcp))

/-- SWC_SAMPLE_SET (R135). -/
def execSwcSampleSet (h : CmdHdr) (port n dest : Nat) (s : State) : Outcome State Fault Refusal :=
  s.cmd h 0x0203
    (fun t =>
      let k := t.swcNeed port [8] (firstBad [(1, decide (n ≤ 2 ^ 24)), (2, decide (dest < 16))])
      { k with gone := firstBad [(0, decide (port < 28) && t.exists port)] })
    fun t => .done [] (t.writeSample port (w32 ((n - 1) + b2n (decide (0 < n)) * 2 ^ 24 + dest * 2 ^ 25)))

/-- The eight registers of a queue group as read (R134). -/
def State.queueGroup (s : State) (q : Nat) : List Nat :=
  [(s.readBack (Reg.swcQcfg q)).toNat, (s.readBack (Reg.swcQdramCfg q)).toNat, (s.rd (Reg.swcQocc q)).toNat, s.segBlocks q,
   (s.rd (Reg.swcQdrop q)).toNat, (s.rd (Reg.swcQaged q)).toNat, (s.rd (Reg.swcQspilled q)).toNat, (s.rd (Reg.swcQreturned q)).toNat]

/-- SWC_STATS_GET (R135). -/
def execSwcStatsGet (h : CmdHdr) (port : Nat) (s : State) : Outcome State Fault Refusal :=
  s.cmd h 0x0204 (fun t => { t.swcNeed port [] none with role := .any }) fun t =>
    .done ((List.range 8).flatMap (fun c => t.queueGroup (8 * port + c)) ++ [t.poolWord.toNat]) t

/-- SWC_QUEUE_EXPERT_SET (R135). Conventions: log 34. -/
def execSwcQueueExpertSet (h : CmdHdr) (port cls floor alpha spillThr : Nat) (spillEn : Bool) (dramMax quantum : Nat) (s : State) :
    Outcome State Fault Refusal :=
  s.cmd h 0x0281
    (fun t => t.swcNeed port [8] (firstBad
      [(1, decide (cls < 8)), (2, decide (floor < 4096)), (3, decide (alpha < 16)), (4, decide (spillThr < 4096)),
       (5, !spillEn || mayStore port cls), (6, decide (dramMax < 65536)), (7, decide (quantum < 256))]))
    fun t =>
      let q := 8 * port + cls
      let u := ((((t.stageFld (Reg.swcQcfg q) 0 12 floor).stageFld (Reg.swcQcfg q) 12 4 alpha).stageFld (Reg.swcQcfg q) 16 12
        spillThr).stageFld (Reg.swcQcfg q) 28 1 (b2n spillEn)).stageFld (Reg.swcQdramCfg q) 0 16 dramMax
      let u := if cls < 4 then u.stageFld (Reg.swcDrr0 port) (8 * cls) 8 quantum
        else if cls < 6 then u.stageFld (Reg.swcDrr1 port) (8 * (cls - 4)) 8 quantum else u
      commitOr 2 u

/-- SWC_GLOBAL_EXPERT_SET (R135). Conventions: log 34. -/
def execSwcGlobalExpertSet (h : CmdHdr) (headroom ageSram ageDram ageC6 stage ret poolLow : Nat) (s : State) :
    Outcome State Fault Refusal :=
  s.cmd h 0x0282
    (fun _ => { reins := [8], bad := firstBad [
      (0, decide (headroom < 32768)), (1, decide (ageSram ≤ 1000000)), (2, decide (ageDram ≤ 1000000)), (3, decide (ageC6 ≤ 1000000)),
      (4, decide (144 ≤ stage ∧ stage ≤ 16384)), (5, decide (16 ≤ ret ∧ ret ≤ 16384)), (6, decide (poolLow < 262144))] })
    fun t =>
      let u := (((t.stageFld Reg.swcHeadroom 0 15 headroom).stageFld Reg.swcAgeSram 0 20 ageSram).stageFld Reg.swcAgeDram 0 20
        ageDram).stageFld Reg.swcAgeC6 0 20 ageC6
      let u := (u.stageFld Reg.swcSpillStage 0 15 stage).stageFld Reg.swcReturnThr 0 15 ret
      commitOr 0 (u.writePoolLow (putFld (u.rd Reg.swcPoolLow) 0 18 poolLow))

/-- SWC_ARB_EXPERT_SET (R135). -/
def execSwcArbExpertSet (h : CmdHdr) (tickets : List Nat) (seed : Word) (s : State) : Outcome State Fault Refusal :=
  s.cmd h 0x0283
    (fun _ => { reins := [8], bad := firstBad [(0, decide (tickets.length = 6) && tickets.all fun x => decide (x < 256))] })
    fun t =>
      let u := (List.range 6).foldl (fun u i => u.stageFld (Reg.arbTicketSh i) 0 8 (tickets.getD i 0)) t
      .done [] ((u.stage Reg.arbLfsrSeed seed).arbCommit)

end Sys2Proof.Machine
end

