-- ==== Sys2Proof/Machine/Clock.lean ====
section
/-! DEFINITION. The clock subsystem (R267 to R294): the oven, the DPLL, the references with their qualification and
selection, switching and holdover, and the synthesisers. -/

namespace Sys2Proof.Machine

open Host

/-- A reference, and one changed. -/
def State.refSt (s : State) (i : Nat) : RefSt := Tab.get (fun _ => {}) s.clk.ref i
def State.onRef (s : State) (i : Nat) (f : RefSt → RefSt) : State :=
  s.onClk fun x => { x with ref := Tab.set (fun _ => {}) x.ref i (f (s.refSt i)) }

/-- A bit of CLK_REFi_STAT: present, qualified, soft_alarm, disagree. -/
def State.refBit (s : State) (i b : Nat) : Bool := s.bitAt (Reg.clkRefStat i) b

/-! The DAC (R269). -/

/-- A 24-bit signed value of a register. -/
def State.dac24 (s : State) (a : Nat) : Int := (BitVec.ofNat 24 (s.fld a 0 24)).toInt

/-- CLK_DAC set, saturating; beyond 90 % of its range dac_limit sets, with source 157 as it passes. -/
def State.setDac (s : State) (v : Int) : State :=
  let was := s.dac24 Reg.clkDac
  let v := clamp (-8388608) 8388607 v
  let far := fun (x : Int) => decide (7549747 < x.natAbs)
  let t := s.setFld Reg.clkDac 0 24 (BitVec.ofInt 24 v).toNat
  if far v then (t.stick Reg.clkDpllStat 10).raiseIf (!far was) 157 else t

/-! States and selection (R271, R278 to R282). -/

/-- CLK_DPLL_STAT.state and active. -/
def State.dpll (s : State) : Nat := s.fld Reg.clkDpllStat 0 2
def State.activeRef (s : State) : Nat := s.fld Reg.clkDpllStat 2 3
def State.holdValid (s : State) : Bool := s.bitAt Reg.clkDpllStat 5

/-- The DPLL changes state, with source 146; its run of good comparisons starts afresh. -/
def State.setDpll (s : State) (n : Nat) : State :=
  if s.dpll = n then s
  else ((s.setFld Reg.clkDpllStat 0 2 n).raise 146).onClk fun x => { x with good := 0, secs := 0 }

/-- The hold value (R284): the mean of CLK_DAC over the 10 s that end 2 s before, while a reference is tracked.
Conventions: log 42. -/
def State.refreshHold (s : State) : State :=
  if s.activeRef < 6 ∧ s.clk.dacs.length = 12 then
    s.setFld Reg.clkDacHold 0 24 (BitVec.ofInt 24 (mean (s.clk.dacs.drop 2))).toNat
  else s

/-- Nothing is tracked and nothing measured; the hold value is taken as tracking ends (R284). Conventions: log 42. -/
def State.untrack (s : State) : State :=
  (((s.refreshHold.setFld Reg.clkDpllStat 2 3 7).setFld Reg.clkDpllStat 7 1 0).wr Reg.clkPhaseErr 0x80000000).onClk fun x =>
    { x with next := none, passAt := none, good := 0, secs := 0 }

/-- The DAC holds CLK_DAC_HOLD, or the value in force where none is valid (R282, R283). Conventions: log 42. -/
def State.holdDac (s : State) : State := if s.holdValid then s.setDac (s.dac24 Reg.clkDacHold) else s

/-- HOLDOVER (R271, R282). Conventions: log 42. -/
def State.enterHoldover (s : State) : State :=
  if s.dpll = 3 then s.untrack
  else ((s.untrack.holdDac).count Reg.clkHoldovers 159).setDpll 3

/-- FREERUN (R271, R284). Conventions: log 42. -/
def State.enterFreerun (s : State) : State := (s.untrack.setFld Reg.clkDpllStat 5 1 0).setDpll 0

/-- Tracking of a reference starts (R283, step 4). Conventions: log 42. -/
def State.startTracking (s : State) (i : Nat) (b : Int) (pass : Option Int) : State :=
  let t := s.untrack.setFld Reg.clkDpllStat 2 3 i
  let t := t.onClk fun x => { x with buildout := b, passAt := pass, acquired := true, fast := true }
  ((((t.setDpll 1).stick Reg.clkDpllStat 8).count Reg.clkSwitches 159)).raise 147

/-- A switch to a reference begins (R283): the first acquisition, one from FREERUN, and one under PASS take a build-out
of 0 and track at once; under ABSORB the phase is measured first. Conventions: log 42. -/
def State.startSwitch (s : State) (i : Nat) : State :=
  let first : Bool := !s.clk.acquired || decide (s.dpll = 0)
  let t := s.refreshHold.holdDac
  if first then t.startTracking i 0 none
  else if s.bitAt Reg.clkSwitch 0 then t.startTracking i 0 (some (t.dac24 Reg.clkDac))
  else
    let u := (t.untrack.setFld Reg.clkDpllStat 7 1 1).onClk fun x => { x with next := some i }
    if s.dpll = 2 then u.setDpll 1 else u

/-- What is selected (R278, R279). -/
inductive Sel
  | auto
  | force (i : Nat)
  | holdover
  | freerun
deriving DecidableEq, Repr

/-- The selection in force: the pins, or CLK_SEL while they read 000. -/
def State.sel (s : State) : Sel :=
  let p := s.fld Reg.clkRsel 0 3
  if p = 0 then
    match s.fld Reg.clkSel 0 2 with
    | 0 => .auto
    | 1 => if s.fld Reg.clkSel 4 3 < 6 then .force (s.fld Reg.clkSel 4 3) else .holdover
    | 2 => .holdover
    | _ => .freerun
  else if p ≤ 5 then .force (p - 1) else if p = 6 then .holdover else .freerun

/-- The selection acts (R281, R282); AUTO decides by itself (R280). `changed` says that the selection is new. -/
def State.applySel (s : State) (changed : Bool) : State :=
  match s.sel with
  | .auto => s.setFld Reg.clkDpllStat 6 1 0
  | .force i =>
    let t := s.setFld Reg.clkDpllStat 6 1 1
    if t.refBit i 1 then
      if t.activeRef = i ∨ t.clk.next = some i then t else t.startSwitch i
    else if changed || decide (t.dpll ≠ 3) then
      ((t.enterHoldover).stick Reg.clkDpllStat 9).raise 153
    else t
  | .holdover => (s.setFld Reg.clkDpllStat 6 1 0).enterHoldover
  | .freerun => (s.setFld Reg.clkDpllStat 6 1 0).enterFreerun

/-! Qualification (R275 to R277). -/

/-- The seconds a reference must pass (R276). -/
def State.waitFor (s : State) (i : Nat) : Nat :=
  if (s.refSt i).dis && decide (s.fld Reg.clkSwitch 16 12 ≠ 0) then min 3600 (s.fld Reg.clkSwitch 16 12) else 2

/-- A reference is disqualified for a cause (R275): its wait restarts, and an active one is tracked no more.
Conventions: log 42. -/
def State.disqualify (s : State) (i cause : Nat) : State :=
  let t := s.stick (Reg.clkRefStat i) cause
  let was := s.refBit i 1
  let t := (t.setFld (Reg.clkRefStat i) 1 2 0).setFld (Reg.clkRefStat i) 16 16 0
  let t := t.onRef i fun x => { x with pass := 0, dis := x.dis || was }
  let t := if was then t.raise 149 else t
  if s.activeRef = i ∨ s.clk.next = some i then
    match t.sel with
    | .force _ => t.applySel false
    | _ => t.untrack.holdDac
  else t

/-- A reference is absent (R272, R275). Conventions: log 42. -/
def State.refAbsent (s : State) (i : Nat) : State :=
  if !s.refBit i 0 then s
  else
    let t := ((s.setFld (Reg.clkRefStat i) 0 1 0).wr (Reg.clkRefFoff1 i) 0x80000000).wr (Reg.clkRefFoff64 i) 0x80000000
    let t := ((t.setFld (Reg.clkRefStat i) 3 2 0).onRef i fun x => { x with foff := [] })
    let u := t.disqualify i 8
    if s.refBit i 1 then u else u.raise 149

/-- A reference may be present: a PSLOT while its bound port is UP (R274). -/
def State.refThere (s : State) (i : Nat) : Bool :=
  if 1 ≤ i ∧ i ≤ 4 then
    let p := s.fld (Reg.clkRefCfg i) 8 5
    decide (p < 24) && !s.absent p && (s.pt p).up
  else true

/-- The steering in force, in 1e-12: one DAC step is 20 ppm / 2^24 (R269, R275). -/
def State.steering (s : State) : Int := roundDiv ((s.dac24 Reg.clkDac - s.dac24 Reg.clkDacCentre) * 20000000) 16777216

/-- EXTREF's nominal frequency in uHz (R273, R292). -/
def State.extNominal (s : State) : Int :=
  match s.fld (Reg.clkRefCfg 0) 4 2 with
  | 1 => 25000000000000
  | 2 => 31250000000000
  | _ => 10000000000000

/-- A second's offset against the OCXO in 1e-12: EXTREF's against the nominal frequency set for it (R273). -/
def State.offsetOf (s : State) (i : Nat) (m : RefMeas) : Int :=
  if i = 0 then roundDiv ((m.value - s.extNominal) * 10 ^ 12) s.extNominal else m.value

/-- One second of a reference that is present (R273, R275, R276): an edge more than 200 ns from its prediction is a phase
hit, that of the active reference being the DPLL's to tell. Conventions: log 42. -/
def State.qualifyRef (s : State) (i : Nat) (m : RefMeas) : State :=
  let f1 := s.offsetOf i m + s.steering
  let hit : Bool := decide (200000 < m.edge) && decide (s.activeRef ≠ i)
  let l := (f1 :: (s.refSt i).foff).take 64
  let f64 := mean l
  let t := (s.onRef i fun x => { x with foff := l }).setFld (Reg.clkRefStat i) 0 1 1
  let t := (t.wr (Reg.clkRefFoff1 i) (sat32 f1)).wr (Reg.clkRefFoff64 i) (sat32 f64)
  let t := if 1000000 < f64.natAbs then
      (if s.refBit i 3 then t else (t.setFld (Reg.clkRefStat i) 3 1 1).raise 150)
    else if f64.natAbs ≤ 900000 then t.setFld (Reg.clkRefStat i) 3 1 0 else t
  let t := if i = 0 ∧ 1000000000 < f1.natAbs then (t.stick (Reg.clkRefStat i) 11).raise 156 else t
  let t := if hit then t.disqualify i 10 else t
  if 4600000 < f1.natAbs then
    let u := t.disqualify i 9
    if s.refBit i 1 then u.count Reg.clkDisquals 159 else u
  else if hit || s.refBit i 1 then t
  else
    let n := (t.refSt i).pass + 1
    let need := t.waitFor i
    let t := t.onRef i fun x => { x with pass := n }
    if need ≤ n then ((t.setFld (Reg.clkRefStat i) 1 2 1).setFld (Reg.clkRefStat i) 16 16 0).raise 148
    else (t.setFld (Reg.clkRefStat i) 2 1 (b2n (t.refSt i).dis)).setFld (Reg.clkRefStat i) 16 16
      (if (t.refSt i).dis then need - n else 0)

/-- A reference's offset over 64 s in 1e-12. Conventions: log 42. -/
def State.foff64 (s : State) (i : Nat) : Int := (s.rd (Reg.clkRefFoff64 i)).toInt

/-- Two qualified references of equal rank 1 to 15 (R277). -/
def State.equalRank (s : State) (i j : Nat) : Bool :=
  decide (i ≠ j) && s.refBit i 1 && s.refBit j 1 && decide (s.fld (Reg.clkRefCfg i) 0 4 ≠ 0)
    && decide (s.fld (Reg.clkRefCfg i) 0 4 = s.fld (Reg.clkRefCfg j) 0 4)

/-- A pair of references disagrees (R277): from the limit up, and until the difference has fallen to 90 % of it. -/
def State.apartNow (s : State) (x : Nat × Nat) : Bool :=
  let lim : Nat := max 1 (s.fld Reg.clkDisagree 0 16) * 1000
  let diff := (s.foff64 x.1 - s.foff64 x.2).natAbs
  s.equalRank x.1 x.2 && (decide (lim < diff) || (s.clk.apart.contains x && decide (lim * 9 < diff * 10)))

/-- The pairs of references. -/
def refPairs : List (Nat × Nat) :=
  (List.range 6).flatMap fun i => ((List.range 6).filter fun j => decide (i < j)).map fun j => (i, j)

/-- disagree of every reference (R277): source 151 for each pair that has come to disagree. Conventions: log 42. -/
def State.disagreeRefs (s : State) : State :=
  let now := refPairs.filter s.apartNow
  let new := now.filter fun x => !s.clk.apart.contains x
  let t := (List.range 6).foldl (fun u i =>
    u.setFld (Reg.clkRefStat i) 4 1 (b2n (now.any fun x => decide (x.1 = i ∨ x.2 = i)))) (s.onClk fun x => { x with apart := now })
  new.foldl (fun u _ => u.raise 151) t

/-- A second of the hold value (R284) and of FREERUN's drift (R271). Conventions: log 42. -/
def State.holdSecond (s : State) : State :=
  let v := s.dac24 Reg.clkDac
  let t := s.onClk fun x => { x with dacs := (v :: x.dacs).take 12 }
  if s.dpll = 2 then
    let n := s.clk.secs + 1
    let t := t.onClk fun x => { x with secs := n }
    let t := t.refreshHold
    if 100 ≤ n then t.setFld Reg.clkDpllStat 5 1 1 else t
  else if s.dpll = 0 then
    let c := s.dac24 Reg.clkDacCentre
    t.setDac (if v ≤ c then min c (v + 83886) else max c (v - 83886))
  else t

/-- REFERENCE_QUALIFICATION (R273, R275 to R277, R284): once a second. -/
def execReferenceQualification (meas : List (Option RefMeas)) (s : State) : Outcome State Fault Refusal :=
  .next (s.event fun t =>
    let u := (List.range 6).foldl (fun v i => match meas.getD i none with
      | none => v.refAbsent i
      | some m => if v.refThere i then v.qualifyRef i m else v.refAbsent i) t
    u.disagreeRefs.holdSecond.applySel false)

/-- REFERENCE_LOST (R272, R275, R281). -/
def execReferenceLost (index : Nat) (s : State) : Outcome State Fault Refusal :=
  onUnit 6 index (s.event fun t => t.refAbsent index)

/-- The candidate of R280: the lowest rank, then the lowest index. -/
def State.candidateRef (s : State) : Option Nat :=
  ((List.range 6).foldl (fun (b : Option (Nat × Nat)) i =>
    let r := s.fld (Reg.clkRefCfg i) 0 4
    if r = 0 ∨ !s.refBit i 1 then b
    else match b with
      | none => some (r, i)
      | some (q, _) => if r < q then some (r, i) else b) none).map (·.2)

/-- AUTO_DECISION (R280). Conventions: log 42. -/
def execAutoDecision (s : State) : Outcome State Fault Refusal :=
  .next (s.event fun t =>
    if t.sel ≠ .auto then t
    else match t.candidateRef with
      | some i => if t.activeRef = i ∨ t.clk.next = some i then t else t.startSwitch i
      | none => if t.dpll = 3 then t.enterHoldover else if t.holdValid then t.enterHoldover else t.enterFreerun)

/-- RSEL_CHANGE (R278). -/
def execRselChange (pins : BitVec 3) (s : State) : Outcome State Fault Refusal :=
  .next (s.event fun t =>
    if t.fld Reg.clkRsel 0 3 = pins.toNat then t
    else
      let u := t.wr Reg.clkRsel (w32 (pins.toNat + b2n (decide (pins.toNat ≠ 0)) * 8))
      (u.applySel true).raise 152)

/-! The loop (R269 to R271). -/

/-- Bandwidths in mHz by CLK_DPLL_CFG.bw (R270). -/
def bwMilli (n : Nat) : Nat := [50, 100, 200, 500, 1000, 2000, 5000, 10000, 20000, 50000].getD n 100000

/-- The bandwidth in force (R270, R271). -/
def State.bandwidth (s : State) : Nat :=
  let b := bwMilli (s.fld Reg.clkDpllCfg 0 4)
  if s.activeRef = 5 then 50
  else if s.dpll = 1 ∧ s.bitAt Reg.clkDpllCfg 4 ∧ s.clk.fast then max 10000 b else b

/-- DPLL_COMPARISON (R269 to R271, R275, R283). Conventions: log 42. -/
def execDpllComparison (errPs : Int) (freqOk : Bool) (s : State) : Outcome State Fault Refusal :=
  .next (s.event fun t =>
    let i := t.activeRef
    if 6 ≤ i then t
    else
      let t := t.perf 0x1E2
      let err := errPs - roundDiv (t.clk.buildout * 1000) 65536
      let last := t.rd Reg.clkPhaseErr
      if last ≠ 0x80000000 ∧ 200000 < (err - last.toInt).natAbs then t.disqualify i 10
      else
        let t := t.wr Reg.clkPhaseErr (sat32 err)
        let want := t.dac24 Reg.clkDac + Config.dacStep t.freeCtr t.bandwidth err
        let want := match t.clk.passAt with
          | some h => clamp (h - 838860) (h + 838860) want
          | none => want
        let t := (t.setDac want).drawn
        let t := if err.natAbs ≤ 100000 then t.onClk fun x => { x with fast := false } else t
        if t.dpll = 2 then (if 100000 < err.natAbs then (t.setDpll 1).onClk fun x => { x with fast := true } else t)
        else
          let n := if err.natAbs ≤ 10000 ∧ freqOk then t.clk.good + 1 else 0
          if (if i = 5 then 1 else 1000) ≤ n then (t.setDpll 2).onClk fun x => { x with passAt := none }
          else t.onClk fun x => { x with good := n })

/-- REFERENCE_SWITCH_DONE (R283): the measured build-out, within its bounds. -/
def execReferenceSwitchDone (mean : Int) (s : State) : Outcome State Fault Refusal :=
  .next (s.event fun t =>
    match t.clk.next with
    | none => t
    | some i =>
      let b : Int := if i = 5 then 500000000 * 65536 else 500000 * 65536
      t.startTracking i (clamp (-b) b mean) none)

/-! The oven (R268). -/

/-- The oven works wherever feed power is present; sources are raised while the module runs. -/
def State.oven (s : State) (f : State → State) : State := if s.life = .unpowered then s else f s

/-- OVEN_READY (R217, R268): a domain whose other conditions stand enters FIRST_LOCK. -/
def execOvenReady (s : State) : Outcome State Fault Refusal :=
  .next (s.oven fun t =>
    if t.ovenReady then t
    else
      let u := t.setFld Reg.clkOven 0 1 1
      if !u.live then u
      else
        [0, 1].foldl (fun v d =>
          if v.domState d ≠ 0 then v
          else if v.gmSelf d && !(v.dm d).gm.flags.testBit 4 then v.beGm d
          else match (v.dm d).marks with
            | (up, r) :: _ =>
              if agreeing (v.dm d).agree && (v.following d).isSome then v.firstLock d up r (slopeOf (v.dm d).marks) else v
            | [] => v) (u.raise 144))

/-- OVEN_OOR (R268). -/
def execOvenOor (oor : Bool) (s : State) : Outcome State Fault Refusal :=
  .next (s.oven fun t =>
    if !t.ovenReady || t.bitAt Reg.clkOven 1 == oor then t
    else
      let u := t.setFld Reg.clkOven 1 1 (b2n oor)
      let u := if oor then u.stick Reg.clkOven 8 else u
      u.raiseIf u.live 145)

/-- OVEN_WARM_FAIL (R268): the firmware sets it 300 s after feed power. -/
def execOvenWarmFail (s : State) : Outcome State Fault Refusal :=
  .next (if s.fwOn && !s.ovenReady && !s.bitAt Reg.clkOven 2 && decide (300000000000 ≤ s.uptime) then (s.setFld Reg.clkOven 2 1 1).raise 145 else s)

/-! Synthesisers (R286 to R289). -/

/-- SYNTH_LOCK (R250, R287, R289): the band is stored for the family, a group's transmit phase is held until the next lock,
and the group's ports may acquire (R38). The core and DRAM synthesisers lock while the module is still held.
Conventions: log 42. -/
def execSynthLock (n band phase : Nat) (s : State) : Outcome State Fault Refusal :=
  onUnit 8 n (if !(s.live || (decide (s.life = .held) && decide (6 ≤ n))) then s
    else if !s.bitAt (Reg.clkSynStat n) 1 || !s.synThere n then s
    else
      let f := if n < 6 then s.synFamily n else 0
      let mem : Bool := s.bitAt (Reg.clkSynBand n) (8 * f + 7) && decide (s.fld (Reg.clkSynBand n) (8 * f) 6 = band % 64)
      let again : Bool := decide (s.rd (Reg.clkSynBand n) ≠ 0) || (decide (6 ≤ n) && s.live)
      let u := (((s.setFld (Reg.clkSynStat n) 0 2 1).setFld (Reg.clkSynStat n) 2 6 band).setFld (Reg.clkSynStat n) 8 1 (b2n mem)).setFld
        (Reg.clkSynStat n) 9 10 (s.synN n)
      let u := u.setFld (Reg.clkSynBand n) (8 * f) 8 (band % 64 + 128)
      let u := u.onClk fun x => { x with tries := Tab.set (fun _ => 0) x.tries n 0 }
      let u := if again then u.count Reg.clkSynRelocks 159 else u
      if n < 6 then
        (List.range 4).foldl (fun v k => if v.absent (4 * n + k) then v else v.tryAcquire (4 * n + k))
          (u.onClk fun x => { x with phase := Tab.set (fun _ => 0) x.phase n phase })
      else u)

/-- SYNTH_LOCK_RETRY (R288): an attempt has failed; after three, fail sets. -/
def execSynthLockRetry (n : Nat) (s : State) : Outcome State Fault Refusal :=
  onUnit 8 n (s.event fun t =>
    if !t.bitAt (Reg.clkSynStat n) 1 || !t.synThere n then t
    else
      let k := Tab.get (fun _ => 0) t.clk.tries n + 1
      let u := t.onClk fun x => { x with tries := Tab.set (fun _ => 0) x.tries n k }
      if k = 3 then (u.stick (Reg.clkSynStat n) 25).raise 154 else u)

/-- LINE_SYNTH_UNLOCK (R288). -/
def execLineSynthUnlock (n : Nat) (s : State) : Outcome State Fault Refusal :=
  onUnit 6 n (s.event fun t =>
    if !t.bitAt (Reg.clkSynStat n) 0 || !t.synThere n then t
    else ((t.stick (Reg.clkSynStat n) 24).raise 154).synRestart n (t.fld (Reg.clkSynCfg n) 0 2))

/-- CORE_SYNTH_UNLOCK (R289): it relocks from its stored band, and an epoch reset follows; the inactive domain goes to
UNLOCKED. -/
def execCoreSynthUnlock (s : State) : Outcome State Fault Refusal :=
  .next (s.event fun t =>
    let u := (((t.stick (Reg.clkSynStat 6) 24).setFld (Reg.clkSynStat 6) 8 1 1).count Reg.clkSynRelocks 159).raise 155
    let u := u.epochReset
    (u.setDomState (1 - u.tim.active) 0).onDm (1 - u.tim.active) fun x => { x with stepAt := u.now })

/-- DRAM_SYNTH_UNLOCK (R289): as a failure of the DRAM controller (R140). -/
def execDramSynthUnlock (s : State) : Outcome State Fault Refusal :=
  .next (s.event fun t =>
    let u := ((t.stick (Reg.clkSynStat 7) 24).raise 155).setFld (Reg.clkSynStat 7) 0 2 2
    if u.dramReady then ((u.setFld Reg.swcDramStat 16 1 0).raise 99).flushDram.poolMark else u)

/-! Commands (R294). -/

/-- A PSLOT is bound anew: the clock it had is gone (R274). Conventions: log 42. -/
def State.bindSlot (s : State) (i port : Nat) : State :=
  if s.fld (Reg.clkRefCfg i) 8 5 = port then s else (s.refAbsent i).setFld (Reg.clkRefCfg i) 8 5 port

/-- CLK_REF_SET (R273, R274, R280). -/
def execClkRefSet (h : CmdHdr) (index rank freq : Nat) (port : Option Nat) (s : State) : Outcome State Fault Refusal :=
  let slot : Bool := decide (1 ≤ index) && decide (index ≤ 4)
  s.cmd h 0x0501
    (fun t => { gone := firstBad [(0, decide (index < 6)), (3, match port with
                  | some p => !slot || t.exists p
                  | none => true)], reins := [12],
                owned := (match port with
                  | some p => if slot && decide (p < 24) then [(0, p)] else []
                  | none => []),
                bad := firstBad [(1, decide (rank < 16)), (2, decide (index ≠ 0) || decide (freq < 3)),
                  (3, match port with
                    | some p => !slot || decide (p < 24)
                    | none => true)] })
    fun t =>
      let u := t.setFld (Reg.clkRefCfg index) 0 4 rank
      let u := if index = 0 then u.setFld (Reg.clkRefCfg 0) 4 2 freq else u
      .done [] (if slot then u.bindSlot index (port.getD 31) else u)

/-- A write to CLK_SEL (R279): ignored while the pins read other than 000. -/
def State.writeClkSel (s : State) (v : Word) : State :=
  if s.fld Reg.clkRsel 0 3 ≠ 0 then s else (s.wr Reg.clkSel v).applySel (decide (s.rd Reg.clkSel ≠ v))

/-- CLK_SELECT (R279). -/
def execClkSelect (h : CmdHdr) (mode index : Nat) (s : State) : Outcome State Fault Refusal :=
  s.cmd h 0x0502 (fun _ => { reins := [12], bad := firstBad [(0, decide (mode < 4)), (1, decide (index < 8))] }) fun t =>
    if t.fld Reg.clkRsel 0 3 ≠ 0 then .refuse St.state []
    else .done [] (t.writeClkSel (putFld (putFld (t.rd Reg.clkSel) 0 2 mode) 4 3 index))

/-- CLK_STATUS_GET (R294). -/
def execClkStatusGet (h : CmdHdr) (s : State) : Outcome State Fault Refusal :=
  s.cmd h 0x0503 (fun _ => { role := .any }) fun t =>
    .done (([Reg.clkOven, Reg.clkRsel, Reg.clkDpllStat, Reg.clkDac, Reg.clkDacHold, Reg.clkDacCentre].map fun a => (t.rd a).toNat)
      ++ [(BitVec.ofInt 64 t.clk.buildout).toNat, (t.rd Reg.clkPhaseErr).toNat]
      ++ (List.range 6).flatMap fun i => [(t.rd (Reg.clkRefStat i)).toNat, (t.rd (Reg.clkRefFoff1 i)).toNat, (t.rd (Reg.clkRefFoff64 i)).toNat]) t

/-- CLK_SWITCH_SET (R294). -/
def execClkSwitchSet (h : CmdHdr) (phaseMode wtr disagree : Nat) (s : State) : Outcome State Fault Refusal :=
  s.cmd h 0x0504
    (fun _ => { reins := [12], bad := firstBad [(0, decide (phaseMode < 2)), (1, decide (wtr ≤ 3600)), (2, decide (1 ≤ disagree) && decide (disagree ≤ 10000))] })
    fun t => .done [] (((t.setFld Reg.clkSwitch 0 1 phaseMode).setFld Reg.clkSwitch 16 12 wtr).setFld Reg.clkDisagree 0 16 disagree)

/-- CLK_DPLL_EXPERT_SET (R294). -/
def execClkDpllExpertSet (h : CmdHdr) (bw : Nat) (fastAcq : Bool) (s : State) : Outcome State Fault Refusal :=
  s.cmd h 0x0581 (fun _ => { reins := [12], bad := firstBad [(0, decide (bw ≤ 10))] }) fun t =>
    .done [] ((t.setFld Reg.clkDpllCfg 0 4 bw).setFld Reg.clkDpllCfg 4 1 (b2n fastAcq))

/-- CLK_SYN_EXPERT_SET (R288, R294): a restart, with the band memory cleared where asked. -/
def execClkSynExpertSet (h : CmdHdr) (syn action : Nat) (force : Bool) (s : State) : Outcome State Fault Refusal :=
  s.cmd h 0x0582
    (fun t => { gone := firstBad [(0, decide (syn < 6) && t.synThere syn)], reins := [syn + 1, 12], bad := firstBad [(1, decide (action < 2))] })
    fun t =>
      if !force && (List.range 4).any fun i => (t.pt (4 * syn + i)).up then .refuse St.busy []
      else
        let u := if action = 1 then t.wr (Reg.clkSynBand syn) 0 else t
        .done [] (u.synRestart syn (u.fld (Reg.clkSynCfg syn) 0 2))

end Sys2Proof.Machine
end

