-- ==== Sys2Proof/Machine/Contexts.lean ====
section
/-! DEFINITION. Host contexts: their commands (R335 to R348), their transports (R321 to R329) and
their resets (R339). -/

namespace Sys2Proof.Machine

open Host

/-! Commands of group 0x0A. -/

/-- CTX_NOP (R348): the reception alone renews the leases. -/
def execCtxNop (h : CmdHdr) (s : State) : Outcome State Fault Refusal :=
  s.cmd h 0x0A00 (fun _ => { role := .any }) fun t => .done [] t

/-- LEVEL_SET (R335). -/
def execLevelSet (h : CmdHdr) (level complement : Nat) (s : State) : Outcome State Fault Refusal :=
  s.cmd h 0x0A01
    (fun _ => { role := .any, bad := firstBad [(0, decide (level < 2)), (1, decide (complement = 255 - level))] })
    fun t => .done [] (t.onCx h.ctx fun x => { x with expert := decide (level = 1) })

/-- A role from its number (R346). -/
def roleOf : Nat → Role
  | 0 => .observer
  | 1 => .operator
  | _ => .principal

/-- A role change: source 240 and its record (R337, R395). Conventions: log 13. -/
def State.roleChange (s : State) (c : Nat) (old new : Role) : State :=
  if old = new then s else (s.raiseFw 240).logRec 0x100 5 [7, c, old.num, new.num]

/-- ROLE_SET (R337). -/
def execRoleSet (h : CmdHdr) (target role : Nat) (s : State) : Outcome State Fault Refusal :=
  s.cmd h 0x0A02
    (fun _ => { role := .prin, gone := firstBad [(0, decide (target < 8))], bad := firstBad [(1, decide (role < 3))] })
    fun t =>
      if target = h.ctx then .refuse St.state []
      else
        let old := t.role target
        let new := roleOf role
        let a := t.setRole target new
        let b := if new = .principal then a.setRole h.ctx .operator else a
        let c := if new = .observer then b.breakReins target else b
        .done [] ((c.roleChange target old new).roleChange h.ctx (t.role h.ctx) (c.role h.ctx))

/-- CTX_GET (R348). -/
def execCtxGet (h : CmdHdr) (target : Nat) (s : State) : Outcome State Fault Refusal :=
  s.cmd h 0x0A03 (fun _ => { role := .any, gone := firstBad [(0, decide (target < 8))] }) fun t =>
    .done ([(t.role target).num, b2n (t.cx target).expert, target, (t.rd (Reg.hcxBind target)).toNat, (t.cx target).mac]
      ++ ((List.range 64).filter (t.holds target)).flatMap (fun r => [r, t.leaseLeft r])
      ++ [(t.ctxStat target).toNat, (t.rd (Reg.hcxSeqGaps target)).toNat, (t.rd (Reg.hcxCmdCount target)).toNat,
          (t.rd (Reg.hcxAuthFail target)).toNat]) t

/-- CTX_BIND (R327, R348). The MAC is bound in VLAN `vid`'s FID; a unicast address is asked. -/
def execCtxBind (h : CmdHdr) (target port vid mac : Nat) (unbind : Bool) (s : State) : Outcome State Fault Refusal :=
  s.cmd h 0x0A04
    (fun t => { role := .prin,
                gone := firstBad [(0, decide (target = 6 ∨ target = 7)), (1, unbind || (decide (port < 28) && t.exists port))],
                reins := [0, 9],
                bad := firstBad [(2, unbind || decide (1 ≤ vid ∧ vid ≤ 4094)), (3, unbind || decide (mac < 2 ^ 48 ∧ mac / 2 ^ 40 % 2 = 0))] })
    fun t =>
      let other := if target = 6 then 7 else 6
      if unbind then .done [] ((t.unbind target).ctxReset target true)
      else if t.bitAt (Reg.hcxBind other) 7 && decide ((t.cx other).mac = mac) then .refuse St.exists_ []
      else t.bind target port vid mac

/-- CTX_KEY_SET (R348); a key sent in-band is refused. -/
def execCtxKeySet (h : CmdHdr) (target : Nat) (key : List Byte) (s : State) : Outcome State Fault Refusal :=
  s.cmd h 0x0A05
    (fun _ => { role := .prin, gone := firstBad [(0, decide (target = 6 ∨ target = 7))], reins := [0],
                bad := firstBad [(1, decide (key.length = 32))] })
    fun t =>
      if 6 ≤ h.ctx then .refuse St.state []
      else .done [] (t.onCx target fun x => { x with key := if key.all (· == 0) then [] else key })

/-- CTX_RESET (R339). -/
def execCtxReset (h : CmdHdr) (target : Nat) (s : State) : Outcome State Fault Refusal :=
  s.cmd h 0x0A06 (fun _ => { role := .prin, gone := firstBad [(0, decide (target < 8))] }) fun t =>
    if target = h.ctx then .refuse St.state [] else .done [] (t.ctxReset target true)

/-- The first number of a list that does not lie above the one before it. -/
def firstDrop : List Nat → Option Nat
  | a :: b :: t => if a < b then firstDrop (b :: t) else some b
  | _ => none

/-- The rein that breaks the order of REIN_TAKE (R340): the list is not strictly rising, or a listed
rein that the context does not hold lies below one that it holds. -/
def State.orderBreak (s : State) (c : Nat) (reins : List Nat) : Option Nat :=
  (firstDrop reins).or (reins.find? fun r => !s.holds c r && (List.range 64).any fun q => decide (r < q) && s.holds c q)

/-- The reins of absent groups (R2). -/
def State.reinGone (s : State) (r : Nat) : Bool :=
  decide (64 ≤ r) || (decide (s.code = .i08) && decide (r = 2 ∨ r = 4))

/-- REIN_TAKE (R340). -/
def execReinTake (h : CmdHdr) (lease : Nat) (reins : List Nat) (s : State) : Outcome State Fault Refusal :=
  s.cmd h 0x0A10
    (fun t => { role := .oper, gone := (reins.findIdx? t.reinGone).map (· + 2), order := t.orderBreak h.ctx reins, reins := reins,
                bad := firstBad [(0, decide (lease = 0 ∨ (10 ≤ lease ∧ lease ≤ 60000))), (1, decide (1 ≤ reins.length ∧ reins.length ≤ 64))] })
    fun t =>
      let ms := if lease = 0 then 2000 else lease
      .done [] (reins.foldl (fun u r => u.setRein r (some { holder := h.ctx, lease := ms, ends := t.uptime + ms * 1000000 })) t)

/-- REIN_DROP (R343). -/
def execReinDrop (h : CmdHdr) (reins : List Nat) (s : State) : Outcome State Fault Refusal :=
  s.cmd h 0x0A11 (fun t => { role := .oper, gone := reins.findIdx? t.reinGone }) fun t =>
    if reins.all (t.holds h.ctx) then .done [] (reins.foldl (fun u r => u.setRein r none) t)
    else .refuse St.notFound []

/-- REIN_GET (R345). -/
def execReinGet (h : CmdHdr) (s : State) : Outcome State Fault Refusal :=
  s.cmd h 0x0A12 (fun _ => { role := .any }) fun t =>
    .done ((List.range 64).flatMap fun r => [((t.rein r).map (·.holder)).getD 0xFF, t.leaseLeft r]) t

/-- How many resources of a kind there are (R338). -/
def ownCount : Nat → Nat
  | 0 => 31
  | 1 => 16384
  | 2 => 4096
  | 3 => 4096
  | 4 => 16
  | 5 => 16
  | 6 => 4
  | _ => 0

/-- A resource of a kind that exists and can be owned: ports 0 to 27, 29 and 30, and so on (R338). -/
def State.ownable (s : State) (kind i : Nat) : Bool :=
  decide (i < ownCount kind) && (decide (kind ≠ 0) || (decide (i ≠ 28) && s.exists i))

/-- OWN_SET (R338): a transfer changes the owner alone; 0xFF frees a pin, generator or unit. -/
def execOwnSet (h : CmdHdr) (kind first count owner : Nat) (s : State) : Outcome State Fault Refusal :=
  s.cmd h 0x0A20
    (fun t => { role := .prin, reins := [0],
                gone := firstBad [(0, decide (kind < 7)), (1, (List.range count).all fun i => t.ownable kind (first + i))],
                bad := firstBad [(2, decide (0 < count)), (3, decide (owner < 8) || (decide (owner = 0xFF) && decide (4 ≤ kind)))] })
    fun t =>
      let ids := (List.range count).map (first + ·)
      -- a free pin, generator or unit is claimed or allocated first, under R297 and R314
      let u := ids.foldl (fun u i => if owner = 0xFF then u.freeResource kind i
                                     else if (u.owner kind i).isSome then u.setOwner kind i owner else u) t
      .done [] (ids.foldl (fun v i => v.logRec 0x100 5 [kind, i, (t.owner kind i).getD 0xFF, owner]) (u.raiseFw 240))

/-- OWN_GET (R338). -/
def execOwnGet (h : CmdHdr) (kind first count : Nat) (s : State) : Outcome State Fault Refusal :=
  s.cmd h 0x0A21
    (fun t => { role := .any,
                gone := firstBad [(0, decide (kind < 7)), (1, (List.range count).all fun i =>
                  decide (first + i < ownCount kind) && (decide (kind ≠ 0) || t.exists (first + i)))] })
    fun t => .done ((List.range count).map fun i => (t.owner kind (first + i)).getD 0xFF) t

/-- REIN_BREAK (R343). -/
def execReinBreak (h : CmdHdr) (reins : List Nat) (s : State) : Outcome State Fault Refusal :=
  s.cmd h 0x0A90 (fun t => { role := .prin, gone := reins.findIdx? t.reinGone }) fun t =>
    .done [] (reins.foldl (fun u r => u.loseRein r) t)

/-- LEASE_EXPIRY (R343): the firmware's test, once a millisecond. -/
def execLeaseExpiry (s : State) : Outcome State Fault Refusal :=
  .next (if s.fwOn then
      (List.range 64).foldl (fun t r => match t.rein r with
        | none => t
        | some x => if x.ends ≤ t.uptime then t.loseRein r else t) s
    else s)

/-! PCIe transport (R322, R323). -/

/-- HCX_DOORBELL (R322, R323): the new SQ tail; a value outside the ring is ignored. -/
def execHcxDoorbell (c : Nat) (value : Word) (s : State) : Outcome State Fault Refusal :=
  onUnit 4 c (s.event fun t => t.doorbell c value)

/-- What checks 1 to 4 of R333 and the sequence rule of R331 make of a packet that a transport
delivered to context `c`: a held packet, or the reply of the check that failed. `exact` asks for
exactly 20 + L bytes. Whatever the checks find, the leases of the context are renewed (R343). Conventions: log 3. -/
def State.deliverPacket (s : State) (c : Nat) (bs : List Byte) (exact : Bool) : State :=
  let b0 := bs.getD 0 0
  let s := (s.renew c).onCx c fun x => { x with cmdX := b0.getLsbD 0 }
  let len := leNat (slice bs 6 2)
  let op := leNat (slice bs 2 2)
  let tag := leNat (slice bs 4 2)
  if bs.length < 16 ∨ 4072 < len ∨ bs.length < 20 + len then s.reply c (op % 0x8000) tag St.badLength [] false
  else if crc32c (bs.take (16 + len)) ≠ BitVec.ofNat 32 (leNat (slice bs (16 + len) 4)) then
    s.reply c (op % 0x8000) tag St.badCrc [] false
  else if (exact && bs.length != 20 + len) || leNat (slice bs 12 4) != 0 || b0.getLsbD 3 || b0.getLsbD 2 then
    s.reply c (op % 0x8000) tag St.badLength [] false
  else
    let seq := leNat (slice bs 8 4)
    let gap : Bool := match (s.cx c).expSeq with
      | none => false
      | some e => seq != e
    let t := s.onCx c fun x => { x with expSeq := some ((seq + 1) % 2 ^ 32) }
    let u := if gap then ((t.stick (Reg.hcxStat c) 8).count (Reg.hcxSeqGaps c) 242).raise 242 else t
    if (b0 >>> 4) ≠ 1 ∨ !opcodes.contains op then u.reply c (op % 0x8000) tag St.unknownOpcode [] false
    else u.onCx c fun x => { x with held := x.held ++ [{ op := op, tag := tag, flags := b0 &&& 3, at_ := s.raw }] }

/-- SQ_ENTRY_READ (R321, R322): the firmware reads the slot at the SQ head while the CQ has room. Conventions: log 3. -/
def execSqEntryRead (c : Nat) (slot : List Byte) (s : State) : Outcome State Fault Refusal :=
  onUnit 4 c (if s.fwOn && s.bitAt (Reg.hcxQCtrl c) 0 && s.hasRoom c && decide ((s.cx c).sqTail ≠ s.fld (Reg.hcxSqHead c) 0 6) then
      let n := s.fld (Reg.hcxSqSize c) 0 7
      let t := s.wr (Reg.hcxSqHead c) (w32 ((s.fld (Reg.hcxSqHead c) 0 6 + 1) % n))
      t.deliverPacket c (slot.take (20 + leNat (slice slot 6 2))) false
    else s)

/-- CQ_SLOT_FREED (R323): a write of HCX_CQ_HEAD frees the slots it passes. -/
def execCqSlotFreed (c : Nat) (head : Word) (s : State) : Outcome State Fault Refusal :=
  onUnit 4 c (s.event fun t => t.cqHead c head)

/-- QUEUE_DMA_ERROR (R323): the queues stop, and the reply concerned is discarded. -/
def execQueueDmaError (c : Nat) (onReply : Bool) (s : State) : Outcome State Fault Refusal :=
  onUnit 4 c (s.event fun t =>
    let a := (t.stick (Reg.hcxStat c) 9).setFld (Reg.hcxQCtrl c) 0 1 0
    let b := if onReply then a.onCx c fun x => { x with replies := x.replies.dropLast }
             else a.onCx c fun x => { x with held := x.held.dropLast }
    (b.syncTail c).raise (243 + c))

/-! SPI transport (R324 to R326). -/

/-- HRDYx_N deasserted: two commands held, or the firmware not yet ready (R325, R349); firmware that has stopped leaves it to
the commands held (R350). Conventions: log 3. -/
def State.spiFull (s : State) (c : Nat) : Bool :=
  !(s.live && decide (s.mgt.fw = .ready ∨ s.mgt.fw = .stopped)) || decide (2 ≤ (s.cx c).held.length)

/-- The SPI status byte (R324). -/
def State.spiStatusByte (s : State) (c : Nat) : Nat :=
  let x := s.cx c
  b2n (!x.replies.isEmpty) + b2n (!s.spiFull c) * 2 + b2n (s.evtPending c) * 4
    + b2n x.dropped * 8 + b2n x.framing * 16 + b2n s.fwOn * 32

/-- SPI_WRITE (R324, R325): the bytes after the first. While the firmware is stopped a command is held unread (R350).
Conventions: log 3. -/
def execSpiWrite (c : Nat) (bytes : List Byte) (s : State) : Outcome State Fault Refusal :=
  onUnit 2 (c - 4) (s.event fun t =>
    if c < 4 then t
    else if bytes.length < 16 then t.onCx c fun x => { x with framing := true }
    else if t.spiFull c then
      if (t.cx c).replies.length < 8 then
        (t.onCx c fun x => { x with cmdX := (bytes.getD 0 0).getLsbD 0 }).reply c (leNat (slice bytes 2 2) % 0x8000) (leNat (slice bytes 4 2))
          St.busy [] false
      else t.onCx c fun x => { x with dropped := true }
    else if t.fwOn then t.deliverPacket c bytes true
    else t.onCx c fun x => { x with held := x.held ++
      [{ op := leNat (slice bytes 2 2), tag := leNat (slice bytes 4 2), flags := (bytes.getD 0 0) &&& 3, at_ := t.raw }] })

/-- A reply's parameters as bytes (R6): where a rule gives the fields' widths, those; else a free layout. Conventions:
log 4. -/
def Reply.paramBytes (r : Reply) : List Byte :=
  if r.params.isEmpty then []
  else if r.status = St.replay then leBytes 8 (r.params.headD 0)
  else if r.status = St.ok ∧ (r.op = 0x8901 ∨ r.op = 0x8820) then r.params.flatMap (leBytes 4)
  else if r.op = 0x8903 then (if r.params.length = 9 then (r.params.take 8).flatMap (leBytes 4) ++ leBytes 8 (r.params.getD 8 0)
    else r.params.flatMap (leBytes 4))
  else Config.packParams r.op r.status r.params

/-- A packet of a reply (R330): its header, parameters and CRC-32C. -/
def Reply.packet (r : Reply) (c : Nat) (more : Bool) (ps : List Byte) : List Byte :=
  let b := [BitVec.ofNat 8 (0x10 + b2n r.expert + b2n more * 4 + b2n r.deferred * 8), BitVec.ofNat 8 c] ++ leBytes 2 r.op ++ leBytes 2 r.tag
    ++ leBytes 2 ps.length ++ leBytes 4 r.seq ++ leBytes 2 r.status ++ [0, 0] ++ ps
  b ++ leBytes 4 (crc32c b).toNat

/-- A reply as packets of at most `cap` bytes of parameters, all but the last with MORE (R331); the first argument bounds
them. -/
def Reply.split (r : Reply) (c cap : Nat) : Nat → List Byte → List (List Byte)
  | 0, _ => []
  | n + 1, ps => if ps.length ≤ cap ∨ cap = 0 then [r.packet c false ps] else r.packet c true (ps.take cap) :: r.split c cap n (ps.drop cap)

/-- A reply's packets. -/
def Reply.packets (r : Reply) (c cap : Nat) : List (List Byte) := r.split c cap (r.paramBytes.length + 1) r.paramBytes

/-- What READ sends of a reply after the turnaround byte (R324): the length, then its bytes. -/
def Reply.spi (r : Reply) (c : Nat) : List Byte := let b := (r.packets c 4072).flatten; leBytes 2 b.length ++ b

/-- What a READ of `clocked` bytes shows behind its first byte and the turnaround, filled up with 0x00 (R324). -/
def misoBytes (b : List Byte) (clocked : Nat) : List Byte := b.take (clocked - 2) ++ List.replicate (clocked - 2 - b.length) 0

/-- SPI_READ (R324): the oldest reply; it is removed only where the transaction clocks it whole. -/
def execSpiRead (c clocked : Nat) (s : State) : Outcome State Fault Refusal :=
  onUnit 2 (c - 4) (s.event fun t =>
    if c < 4 then t
    else match (t.cx c).replies with
      | [] => t.onCx c fun x => { x with miso := misoBytes [0, 0] clocked }
      | r :: rest =>
        let whole := 2 + (r.spi c).length ≤ clocked
        t.onCx c fun x => { x with miso := misoBytes (r.spi c) clocked, replies := if whole then rest else r :: rest })

/-- SPI_STATUS (R324): the status byte; dropped and framing clear. -/
def execSpiStatus (c : Nat) (s : State) : Outcome State Fault Refusal :=
  onUnit 2 (c - 4) (s.event fun t =>
    if c < 4 then t else t.onCx c fun x => { x with miso := [BitVec.ofNat 8 (t.spiStatusByte c)], dropped := false, framing := false })

/-- SPI_RESET (R324): a second byte other than 0xF0 voids the transaction. -/
def execSpiReset (c : Nat) (second : Byte) (s : State) : Outcome State Fault Refusal :=
  onUnit 2 (c - 4) (s.event fun t =>
    if c < 4 then t
    else if second = 0xF0 then t.ctxReset c true
    else t.onCx c fun x => { x with framing := true })

/-- SPI_VOID_TRANSACTION (R324). -/
def execSpiVoidTransaction (c : Nat) (s : State) : Outcome State Fault Refusal :=
  onUnit 2 (c - 4) (s.event fun t => if c < 4 then t else t.onCx c fun x => { x with framing := true })

/-! In-band transport (R327 to R329). -/

/-- The key of a context as 32 bytes (R328). -/
def Ctx.key32 (x : Ctx) : List Byte := if x.key.isEmpty then List.replicate 32 0 else x.key

/-- The lowest acceptable anti-replay sequence (R329). -/
def State.arFloor (s : State) (c : Nat) : Nat := (s.cx c).arLast + 1

/-- The checks of R328 on a frame from port `p` addressed to bound context `c`. -/
def State.inBand (s : State) (c p : Nat) (f : List Byte) : State :=
  if s.fld (Reg.hcxBind c) 0 5 ≠ p then s.count (Reg.hcxAuthFail c) 242
  else
    let tagged : Bool := decide (beNat (slice f 12 2) = 0x8100)
    let o := if tagged then 18 else 14
    let body := (f.take (f.length - 4)).drop o
    let packet := (body.take (body.length - 16)).drop 12
    let src := beNat (slice f 6 6)
    let op := leNat (slice packet 2 2) % 0x8000
    let tag := leNat (slice packet 4 2)
    let seq := beNat (slice body 4 8)
    let s := s.onCx c fun x => { x with rxSrc := src, cmdX := (packet.getD 0 0).getLsbD 0 }
    if hmac (s.cx c).key32 (body.take (body.length - 16)) |>.take 16 |> (· != body.drop (body.length - 16)) then
      (((s.count (Reg.hcxAuthFail c) 242).reply c op tag St.auth [] false).raiseFw 241)
    else if seq ≤ (s.cx c).arLast then
      (((s.count (Reg.hcxAuthFail c) 242).reply c op tag St.replay [s.arFloor c] false).raiseFw 241)
    else
      let t := (s.onCx c fun x => { x with arLast := seq, lastSrc := some src }).floorMark (2 * (c - 6)) (s.cx c).arLast seq
      t.deliverPacket c packet true

/-- IN_BAND_COMMAND_FRAME (R328): a frame, addresses through FCS, that arrives at a port. One that is
addressed to no bound MAC, or whose header of R327 is not a command's, is no command. Conventions: log 3. -/
def execInBandCommandFrame (port : Nat) (frame : List Byte) (s : State) : Outcome State Fault Refusal :=
  onUnit 28 port (if !s.fwOn || s.absent port then s else
    let o := if beNat (slice frame 12 2) = 0x8100 then 16 else 12
    if beNat (slice frame o 2) ≠ 0x88B5 ∨ frame.getD (o + 2) 0 ≠ 1 ∨ frame.getD (o + 3) 0 ≠ 0 then s
    else
      let dst := beNat (slice frame 0 6)
      match [6, 7].find? fun c => s.bitAt (Reg.hcxBind c) 7 && decide ((s.cx c).mac = dst) with
      | none => s
      | some c => s.inBand c port frame)

/-! In-band frames sent (R327, R328, R369). -/

/-- A packet in a frame of a context (R327): from its MAC, authenticated with its key, with the module's next arseq, and put
into the switch by MGMT in class 6 for the bound port; it leaves tagged as the bound VLAN says. Conventions: log 29. -/
def State.inBandFrame (s : State) (c : Nat) (m : InBandOut) (packet : List Byte) : State :=
  let x := s.cx c
  let p := s.fld (Reg.hcxBind c) 0 5
  let body := [1, BitVec.ofNat 8 m.kind, 0, 0] ++ beBytes 8 (x.arOwn + 1) ++ packet
  let frame := withFcs (beBytes 6 m.dst ++ beBytes 6 x.mac ++ beBytes 2 0x88B5 ++ body ++ (hmac x.key32 body).take 16)
  ((s.onCx c fun y => { y with arOwn := y.arOwn + 1 }).floorMark (2 * (c - 6) + 1) x.arOwn (x.arOwn + 1)).mgtSend p (some x.vid)
    (bit (s.vlan x.vid).untag p) .none frame

/-- The bytes of parameters that a frame of a context takes at its bound port (R327, R331). -/
def State.inBandCap (s : State) (c : Nat) : Nat :=
  let p := s.fld (Reg.hcxBind c) 0 5
  min 4072 (s.maxfrm p - (if bit (s.vlan (s.cx c).vid).untag p then 14 else 18) - 12 - 16 - 4 - 20)

/-- MGMT sends what waits for an in-band context; without a binding it is gone. -/
def State.sendOut (s : State) (c : Nat) : State :=
  let t := s.onCx c fun x => { x with out := [] }
  if s.bitAt (Reg.hcxBind c) 7 then
    (s.cx c).out.foldl (fun u m => (m.reply.packets c (s.inBandCap c)).foldl (fun v b => v.inBandFrame c m b) u) t
  else t

/-- The frames MGMT has to send leave in the next tick (DESIGN CHOICE, log 29). -/
def State.mgtTick (s : State) : State :=
  [6, 7].foldl (fun t c => if (t.cx c).out.isEmpty then t else t.sendOut c) s

/-- EVENT_FRAME_REPEAT (R369): again 1 s after the last frame while the context stays pending. -/
def execEventFrameRepeat (c : Nat) (s : State) : Outcome State Fault Refusal :=
  onUnit 8 c (if decide (6 ≤ c) && s.fwOn && s.evtPending c && (s.cx c).lastMsg.all (fun t => decide (t + 1250000000 ≤ s.now)) then s.eventFrame c else s)

/-! Context resets by the transports (R339). -/

/-- PCIE_FLR (R339, R112). -/
def execPcieFlr (c : Nat) (s : State) : Outcome State Fault Refusal :=
  onUnit 4 c (s.event fun t => t.ctxReset c true)

/-- HC0 to HC3 reset together (R323, R386). -/
def State.resetPcie (s : State) : State := (List.range 4).foldl (fun t c => t.ctxReset c true) s

/-- PCIE_LINK_LOSS (R339). -/
def execPcieLinkLoss (s : State) : Outcome State Fault Refusal := .next (s.event State.resetPcie)

/-- PERST_N_ASSERT (R386): the endpoint alone; it acts as a loss of the link. -/
def execPerstNAssert (s : State) : Outcome State Fault Refusal := .next (s.event State.resetPcie)

end Sys2Proof.Machine
end

