-- ==== Sys2Proof/Machine/Cycle.lean ====
section
/-! DEFINITION. The cycle engine's commands and events (R171 to R205). -/

namespace Sys2Proof.Machine

open Host

/-! Staging (R192, R205). -/

/-- The pending banks changed. -/
def State.onPend (s : State) (f : Sched → Sched) : State := s.onCyc fun x => { x with pend := f x.pend }

/-- While a commit is armed, a staging command is answered BUSY (R196). -/
def State.staging (s : State) (t : State) : CmdEnd := if s.cyc.armed.isSome then .refuse St.busy [] else .done [] t

/-- CYC_TABLE_SET (R174, R205). -/
def execCycTableSet (h : CmdHdr) (port : Nat) (entries : List (Nat × GateEntry)) (s : State) : Outcome State Fault Refusal :=
  s.cmd h 0x0702
    (fun t => { gone := firstBad [(0, decide (port = 31) || (decide (port < 24) && t.exists port))], reins := [14],
                owned := if port = 31 then [] else [(0, port)],
                bad := firstBad [(1, decide (1 ≤ entries.length) && decide (entries.length ≤ 500)),
                  (2, entries.all fun e => decide (e.1 < 1024) && decide (e.2.offset < 2 ^ 27) && decide (e.2.duration < 2 ^ 24))] })
    fun t => t.staging (t.onPend fun x => { x with gate := entries.foldl (fun g e => Tab.set (fun _ => {}) g (1024 * port + e.1) e.2) x.gate })

/-- An outbound configuration's values are in range (R181); one that is not valid is not judged. -/
def oslotOk (c : OSlotCfg) : Bool :=
  !c.valid || (decide (c.stream < 2 ^ 14) && decide (16 ≤ c.size) && decide (c.size ≤ 1500) && decide (c.size % 4 = 0)
    && decide (c.poff % 4 = 0) && decide (c.poff + c.size ≤ 913408) && decide (c.launch < 2 ^ 27)
    && (decide (c.flagPos < 64) || decide (c.flagPos = 0xFF)) && (decide (c.seqPos ≤ 62) || decide (c.seqPos = 0xFF)))

/-- CYC_OSLOT_SET (R181). -/
def execCycOslotSet (h : CmdHdr) (slot : Nat) (cfg : OSlotCfg) (template : List Byte) (s : State) : Outcome State Fault Refusal :=
  s.cmd h 0x0703
    (fun _ => { gone := firstBad [(0, decide (slot < 4096))], owned := [(2, slot)], reins := [14],
                bad := firstBad [(1, oslotOk cfg), (2, decide (template.length = 64))] })
    fun t => t.staging (t.onPend fun x =>
      { x with osl := Tab.set (fun _ => {}) x.osl slot cfg,
               tpl := Tab.set (fun _ => []) x.tpl slot (if template.all fun b => b == 0 then [] else template) })

/-- An inbound configuration's values are in range (R188). -/
def islotOk (c : ISlotCfg) : Bool :=
  !c.valid || (decide (16 ≤ c.size) && decide (c.size ≤ 1500) && decide (c.size % 4 = 0) && decide (14 ≤ c.inOff) && decide (c.inOff ≤ 1500)
    && decide (c.poff % 4 = 0) && decide (c.poff + c.size ≤ 913408) && decide (c.seqPos < 256))

/-- CYC_ISLOT_SET (R188). -/
def execCycIslotSet (h : CmdHdr) (slot : Nat) (cfg : ISlotCfg) (s : State) : Outcome State Fault Refusal :=
  s.cmd h 0x0704
    (fun _ => { gone := firstBad [(0, decide (slot < 4096))], owned := [(3, slot)], reins := [14], bad := firstBad [(1, islotOk cfg)] })
    fun t => t.staging (t.onPend fun x => { x with isl := Tab.set (fun _ => {}) x.isl slot cfg })

/-- CYC_PERIOD_STAGE (R171, R205). -/
def execCycPeriodStage (h : CmdHdr) (period : Nat) (s : State) : Outcome State Fault Refusal :=
  s.cmd h 0x0707 (fun _ => { reins := [14], bad := firstBad [(0, decide (19532 ≤ period) && decide (period ≤ 80000000))] })
    fun t => t.staging (t.wr Reg.cycPeriodPend (w32 period))

/-- CYC_DISCARD (R192). -/
def execCycDiscard (h : CmdHdr) (streams : Bool) (s : State) : Outcome State Fault Refusal :=
  s.cmd h 0x0712 (fun _ => { reins := if streams then [10, 14] else [14] })
    fun t => t.staging (if streams then t.restoreCycle.restoreStreams else t.restoreCycle)

/-- CYC_STAGE_GET (R205). -/
def execCycStageGet (h : CmdHdr) (s : State) : Outcome State Fault Refusal :=
  s.cmd h 0x0705 (fun _ => { role := .any }) fun t =>
    let x := t.cyc.pend
    .done [t.pendShareCrc.toNat, (t.rd Reg.cycPeriodPend).toNat, b2n t.pendDirty,
           (x.gate.filter fun g => decide (g.2.duration ≠ 0)).length, (x.osl.filter fun o => o.2.valid).length,
           (x.isl.filter fun i => i.2.valid).length, (t.tbl.strP.filter fun e => e.2.valid).length] t

/-- CYC_STATUS_GET (R205). -/
def execCycStatusGet (h : CmdHdr) (s : State) : Outcome State Fault Refusal :=
  s.cmd h 0x0706 (fun _ => { role := .any }) fun t =>
    .done ([t.cycStatWord.toNat, (BitVec.ofInt 64 t.cyc.now).toNat, (t.cyc.armed.map (·.k)).getD 0, (t.rd Reg.cycNetHash).toNat]
      ++ (List.range 10).map fun i => (t.rd (Reg.cycLaunched + 4 * i)).toNat) t

/-! Timing and the bound generator (R172, R200, R205). -/

/-- The own schedule hash and period take new values (R55, R197): halters follow. -/
def State.newSchedule (s : State) (hash per : Word) : State :=
  if s.rd Reg.cycNetHash = hash ∧ s.rd Reg.cycPeriod = per then s
  else
    let t : State := { s with hashAt := some s.now, prevHash := s.rd Reg.cycNetHash, prevPeriod := s.rd Reg.cycPeriod }
    let t := (List.range 24).foldl (fun u p => u.onPt p fun x => { x with deferred := false }) t
    ((t.wr Reg.cycNetHash hash).wr Reg.cycPeriod per).haltersDue true

/-- A generator is bound to the engine (R172). Conventions: log 39. -/
def State.bindGen (s : State) (g : Nat) : State :=
  let t := match s.boundGen with
    | some o => if o = g then s else (s.genLost o false).setFld (Reg.tgStat o) 5 1 0
    | none => s
  let t := ((t.setFld Reg.cycCtrl 4 4 g).setFld Reg.cycCtrl 8 1 1).setFld (Reg.tgStat g) 5 1 1
  t.onCyc fun x => { x with handsOff := false, armDue := false }

/-- CYC_CTRL.en written (R199). -/
def State.setEn (s : State) (en : Bool) : State :=
  let t := s.setFld Reg.cycCtrl 0 1 (b2n en)
  if !en then t.setEngine 0 else if s.fld Reg.cycStat 0 2 = 0 then t.setEngine 1 else t

/-- CYC_START_SET (R172, R200, R205). -/
def execCycStartSet (h : CmdHdr) (gen : Nat) (timing : Option (Nat × Int)) (s : State) : Outcome State Fault Refusal :=
  s.cmd h 0x0701
    (fun _ => { gone := firstBad [(0, decide (gen < 16))], owned := [(5, gen)], reins := [14],
                bad := match timing with
                  | none => none
                  | some (p, _) => firstBad [(1, decide (19532 ≤ p) && decide (p ≤ 80000000))] })
    fun t =>
      if t.cyc.armed.isSome then .refuse St.busy []
      else if timing.isSome && t.running then .refuse St.state []
      else
        let u := t.bindGen gen
        let u := match timing with
          | none => u
          | some (p, phi) =>
            ((u.newSchedule (u.rd Reg.cycNetHash) (w32 p)).wr Reg.cycPeriodPend (w32 p)).onCyc fun x => { x with phase := phi }
        let u := u.setEn true
        .done [] (if u.locked then u.armCause else u)

/-- CYC_GEN_AUTO_ARM (R172, R200): the first boundary at least 1 ms ahead. Conventions: log 39. -/
def execCycGenAutoArm (s : State) : Outcome State Fault Refusal :=
  .next (s.event fun t =>
    match t.boundGen with
    | none => t
    | some g =>
      let per := (t.rd Reg.cycPeriod).toNat
      if !t.cyc.armDue || t.cyc.handsOff || !t.bitAt Reg.cycCtrl 0 || decide (t.fld Reg.cycStat 0 2 ≠ 1) || decide (per = 0) || !t.locked then t
      else
        let k := (t.netTicks + 1250000 - t.cyc.phase + (per - 1 : Nat)) / (per : Int)
        let u := t.onCyc fun x => { x with armDue := false }
        ((u.tgLoad g true 1 (u.cycleAt k).toNat 0 per 0 (u.fld (Reg.tgWidth g) 0 24)).tgStart g).1)

/-! Commits (R195 to R198). -/

/-- Every pending bank becomes active at once (R197); for cycle `k` the phase is re-based and the generator takes the new
period. Conventions: log 37. -/
def State.applyCommit (s : State) (hash : Word) (k : Option Int) : State :=
  let old := s.rd Reg.cycPeriod
  let new := s.rd Reg.cycPeriodPend
  let t := (s.newSchedule hash new).onCyc fun x => { x with act := x.pend }
  let t := t.onTbl fun x => { x with strA := x.strP, badStr := [] }
  match k with
  | none => t
  | some k =>
    if old = new then t
    else
      let t := t.onCyc fun x => { x with phase := x.phase + k * ((old.toNat : Int) - new.toNat) }
      match t.boundGen with
      | some g => t.loadPeriod g new.toNat (t.cycleAt (k + 1))
      | none => t

/-- A commit command after its checks of R333 (R195). Conventions: log 37. -/
def State.commit (s : State) (k : Nat) (share : Option Word) (hash : Word) (immediate : Bool) : CmdEnd :=
  if match share with
    | some w => w != s.pendShareCrc
    | none => false
  then .refuse St.mismatch []
  else match s.checkPending with
  | some (rule, i) => .refuse St.range [rule, i]
  | none =>
    if s.cyc.armed.isSome || (immediate && s.running) || s.boundGen.isNone
        || (!immediate && (decide (s.rd Reg.cycPeriod = 0) || !s.locked)) then .refuse St.state []
    else if immediate then
      let t := s.applyCommit hash none
      .done [] (if t.locked then t.armCause else t)
    else
      let ahead := s.cycleAt (cycleNum k) - s.netTicks
      if ahead < 1250000 ∨ 500000000000 < ahead then .refuse St.range [195, 0]
      else .accepted k [] (s.onCyc fun x => { x with armed := some { k := k, hash := hash } })

/-- CYCLE_COMMIT (R195). Conventions: log 37. -/
def execCycleCommit (h : CmdHdr) (k : Nat) (share hash : Word) (immediate : Bool) (s : State) : Outcome State Fault Refusal :=
  s.cmd h 0x0710 (fun _ => { reins := [10, 14], bad := firstBad [(2, decide (hash ≠ 0))] })
    fun t => t.commit k (some share) hash immediate

/-- CYCLE_COMMIT_FORCE (R195): no share comparison. -/
def execCycleCommitForce (h : CmdHdr) (k : Nat) (hash : Word) (immediate : Bool) (s : State) : Outcome State Fault Refusal :=
  s.cmd h 0x0790 (fun _ => { reins := [10, 14], bad := firstBad [(2, decide (hash ≠ 0))] })
    fun t => t.commit k none hash immediate

/-- CYCLE_CANCEL (R196): until the start of cycle k. -/
def execCycleCancel (h : CmdHdr) (s : State) : Outcome State Fault Refusal :=
  s.cmd h 0x0711 (fun _ => { reins := [10, 14] }) fun t =>
    match t.cyc.armed with
    | none => .refuse St.state []
    | some c => if t.cycleAt (cycleNum c.k) ≤ t.netTicks then .refuse St.state [] else .done [] (t.cancelCommit 1)

/-- COMMIT_MISMATCH_CHECK (R198). Conventions: log 37. -/
def execCommitMismatchCheck (s : State) : Outcome State Fault Refusal :=
  .next (s.event fun t =>
    match t.cyc.judge with
    | none => t
    | some k =>
      let ok := t.agreedPorts false
      let u := t.onCyc fun x => { x with judge := none }
      let u := if ok then u else u.stick Reg.cycStat 9
      let st := if ok then St.ok else St.mismatch
      (u.complete 0x0710 k st []).complete 0x0790 k st [])

/-! The boundary (R191). -/

/-- The banks swap at the start of cycle `k` (R191, steps 2 to 4). -/
def State.swapBanks (s : State) (k : Int) : State :=
  let f := 1 - s.cyc.fill
  s.onCyc fun x =>
    { x with fill := f, rdCycle := k - 1,
             inb := (x.inb.map fun e => if e.1 / 4096 = f then
               (e.1, { e.2 with fresh := false, late := false, early := false, dup := false, lenErr := false }) else e).filter fun e => e.2 != {},
             out := x.out.map fun o => (o.1, o.2.swap s.raw) }

/-- Cycle `k` is entered (R191, steps 5 and 6). -/
def State.boundary (s : State) (k : Int) : State :=
  ((s.onCyc fun x => { x with now := k, start := s.now }).perf 0x143).raise 192

/-- A commit armed for cycle `k` is applied (R191, step 1; R197). -/
def State.commitAt (s : State) (k : Int) : State :=
  match s.cyc.armed with
  | some c =>
    if cycleNum c.k = k then
      ((s.onCyc fun x => { x with armed := none, lost10 := false, lost14 := false, judge := some c.k }).applyCommit c.hash (some k)).raise 193
    else s
  | none => s

/-- The start of cycle `k` (R54, R191, R199): only a RUNNING engine swaps. Conventions: log 37. -/
def State.cycleStart (s : State) (k : Int) : State :=
  let t := s.commitAt k
  let t : State := (List.range 24).foldl (fun (u : State) p => if u.native p then u.onPt p fun x => { x with c7Ok := u.c7Agreed p } else u) t
  let t := if decide (t.fld Reg.cycStat 0 2 = 1) && t.locked && decide (t.rd Reg.cycPeriod ≠ 0) && t.agreedPorts true then t.setEngine 2 else t
  let t := if t.running then t.swapBanks k else t
  t.boundary k

/-- The generator is bound to the engine, starts its cycles, and is in the module's hands (R172, R200). -/
def State.startsCycles (s : State) (g : Nat) : Bool :=
  decide (s.boundGen = some g) && decide (s.tgDest g = 1) && !s.cyc.handsOff && decide (s.rd Reg.cycPeriod ≠ 0)

/-- The cycle a firing starts (R171, R172): that of its target, or of the present moment where it fires late (R312). -/
def State.firedCycle (s : State) (g : Nat) : Int :=
  let k := s.cycleOf ((s.gen g).cur / 256 : Nat)
  if (s.gen g).late then max k (s.cycleOf s.netTicks) else k

/-- An armed generator fires once its target is reached (R227, R308); a firing of the bound one starts a cycle (R172). -/
def State.fire (s : State) (g : Nat) : State :=
  if !s.tgArmed g || decide (0 < dueIn (s.tgRaw g / 256) s.now) then s
  else
    let t := s.tgFire g
    if s.startsCycles g then t.cycleStart (s.firedCycle g) else t

/-- CYCLE_START (R191): the firing of the bound generator that starts a cycle. Conventions: log 37. -/
def execCycleStart (s : State) : Outcome State Fault Refusal :=
  .next (s.event fun t =>
    match t.boundGen with
    | some g => if t.startsCycles g then t.fire g else t
    | none => t)

/-! Gates and reserved connections (R124, R175, R176). -/

/-- GATE_ENTRY_START (R175). -/
def execGateEntryStart (port index : Nat) (s : State) : Outcome State Fault Refusal :=
  onUnit 32 port (s.event fun t =>
    let g := t.gateEnt port index
    if t.running && decide (g.duration ≠ 0) && decide (index < 1024) && (decide (port < 24) || decide (port = 31)) then
      t.setGate port (some (index, g.mask))
    else t)

/-- GATE_ENTRY_END (R124, R175): the window's reserved connection is released with it. -/
def execGateEntryEnd (port : Nat) (s : State) : Outcome State Fault Refusal :=
  onUnit 32 port (s.event fun t =>
    match t.sw.gate port with
    | none => t
    | some (i, _) =>
      let u := t.setGate port none
      match u.sw.conn port with
      | some (_, j) => if j = i then u.setConn port none else u
      | none => u)

/-- RESERVED_CONNECTION_SETUP (R124, R160, R176): for the ingress of the streams of a window, after protection substitution.
Conventions: log 39. -/
def execReservedConnectionSetup (port index : Nat) (s : State) : Outcome State Fault Refusal :=
  onUnit 32 port (s.event fun t =>
    let g := t.gateEnt port index
    if !t.running || decide (24 ≤ port) || decide (g.duration = 0) || !g.mask.getLsbD 7 then t
    else match t.tbl.strA.find? fun e => e.2.valid && decide (e.2.window = index) && bit (t.substitute e.2.egress) port with
      | some e => t.setConn port (some (e.2.inPort, index))
      | none => t)

/-! Launches (R181 to R187). -/

/-- A template byte list with a byte replaced. -/
def setByte (b : List Byte) (i : Nat) (v : Byte) : List Byte := b.set i v

/-- Where a raw time falls in its cycle, in ticks (R171, R189). Conventions: log 39. -/
def State.cyclePos (s : State) (raw : Nat) : Nat :=
  let per : Int := (s.rd Reg.cycPeriod).toNat
  let n := s.outAt (raw * 256) * 5 / (4 * 2 ^ 32)
  ((n - s.cyc.phase) % max 1 per).toNat

/-- The target of a slot whose capture falls now (R22, R182): the tick k·P + φ + L of network time that the raw count
reaches 800 ticks from now. -/
def State.targetNow (s : State) (per phase : Int) (offset : Nat) : Option Int :=
  let n := s.outAt ((s.now + 800 : Nat) * 256) * 5 / (4 * 2 ^ 32) + 1
  let t := (n - phase - offset) / max 1 per * per + phase + offset
  if 0 < per ∧ s.rawOfTicks t / 256 = (s.now + 800 : Nat) then some t else none

/-- The configuration a capture builds from, with its target (R197): a target at or after the start of an armed commit's cycle
takes what that commit makes active. -/
def State.capture (s : State) (slot : Nat) : Option (Sched × Int) :=
  let per : Int := (s.rd Reg.cycPeriod).toNat
  let act := (s.targetNow per s.cyc.phase (s.cyc.act.o slot).launch).map fun t => (s.cyc.act, t)
  match s.cyc.armed with
  | none => act
  | some c =>
    let k := cycleNum c.k
    let new : Int := (s.rd Reg.cycPeriodPend).toNat
    match s.targetNow new (s.cyc.phase + k * (per - new)) (s.cyc.pend.o slot).launch with
    | some t => if s.cycleAt k ≤ t then some (s.cyc.pend, t) else act.filter fun x => decide (x.2 < s.cycleAt k)
    | none => act.filter fun x => decide (x.2 < s.cycleAt k)

/-- The frame of a launch (R181): template with flag byte and sequence, payload, FCS. -/
def State.launchFrame (s : State) (x : Sched) (n bank seq : Nat) (stale : Bool) : List Byte :=
  let c := x.o n
  let t := x.template n
  let flags := b2n stale + b2n (decide (s.fld Reg.clkDpllStat 0 2 = 3)) * 2 + s.tim.active * 4
  let t := if c.flagPos < 64 then setByte t c.flagPos (t.getD c.flagPos 0 ||| BitVec.ofNat 8 flags) else t
  let t := if c.seqPos ≤ 62 then
      setByte (setByte t c.seqPos (BitVec.ofNat 8 (seq / 256))) (c.seqPos + 1) (BitVec.ofNat 8 seq) else t
  withFcs (t ++ s.piBytes bank (payBase + c.poff) c.size)

/-- A slot is captured for a target (R182): it swaps where it is sealed; then the frame is built, skipped or repeated. -/
def State.captureSlot (s : State) (y : Sched) (slot : Nat) (target : Int) : State :=
  let t := (s.onOslot slot fun x => x.swap s.raw).perf 0x141
  let o := t.oslot slot
  if !o.ever then t
  else if o.newer then
    let seq := leNat (t.piBytes o.lbank (ostBase + 16 * slot) 2)
    t.onOslot slot fun x => { x with newer := false, cap := some ⟨t.launchFrame y slot o.lbank seq false, seq, false, target⟩ }
  else if (y.o slot).rep then
    (t.onOslot slot fun x => { x with cap := some ⟨t.launchFrame y slot o.lbank o.lastSeq true, o.lastSeq, true, target⟩ }).count Reg.cycRepeated 200
  else
    (t.onOslot slot fun x => { x with cap := none, stale := false, skipped := true, late := false, blocked := false }).count Reg.cycSkipped 200

/-- LAUNCH_CAPTURE (R22, R182, R197): the read 800 ticks ahead of the slot's target. -/
def execLaunchCapture (slot : Nat) (s : State) : Outcome State Fault Refusal :=
  onUnit 4096 slot (s.event fun t =>
    match t.capture slot with
    | some (y, target) => if t.running && (y.o slot).valid then t.captureSlot y slot target else t
    | none => t)

/-- The length of a beat, a block or a code group on a port, in 1/1280 tick (R184). -/
def State.lineUnit (s : State) (p : Nat) : Nat :=
  match (s.pt p).mode with
  | .native25 => 2048
  | .native10 => 5120
  | .std25 => 4096
  | .std10 => 10240
  | _ => 12800

/-- How far from its target a launch's first bit may leave, in 1/1280 tick (R184). -/
def State.launchFigure (s : State) (p : Nat) : Nat := if s.native p then 2048 else s.lineUnit p

/-- The boundary that carries the SOF of a launch, in 1/1280 tick of raw time (R184): the nearest to the target that is no MARK
position, the earlier where the target lies midway; where the line is not free for it, the first from `free` on.
Conventions: log 39. -/
def State.sofAt (s : State) (p : Nat) (line : LineEdge) (target free : Int) : Int :=
  let b : Int := s.lineUnit p
  let at_ := fun (i : Int) => (line.edge : Int) + i * b
  let ok := fun (i : Int) => !(s.native p && decide ((i - line.toMark) % 1024 = 0)) && decide (free ≤ at_ i)
  let i := (target - line.edge) / b
  let j := (free - line.edge + b - 1) / b
  match ([i - 1, i, i + 1, i + 2].filter ok).foldl (fun best k =>
      match best with
      | none => some k
      | some m => if (at_ k - target).natAbs < (at_ m - target).natAbs then some k else some m) (none : Option Int) with
  | some k => at_ k
  | none => if ok j then at_ j else at_ (j + 1)

/-- When a launch's first bit leaves on a port among 0 to 23: where the row gives no line for it, at its target.
Conventions: log 39. -/
def State.launchAt (s : State) (p : Nat) (lines : List LineEdge) (target : Int) : Int :=
  let free : Int := max (s.now * 1280) (s.pt p).c7End
  match lines.find? fun l => decide (l.port = p) with
  | some l => s.sofAt p l target free
  | none => max target free

/-- The frame lies inside the stream's window on a port (R185), its first bit `off` 1/1280 tick from its target. -/
def State.inWindow (s : State) (p launch window n : Nat) (off : Int) : Bool :=
  match windowOf s.cyc.act p window with
  | none => false
  | some g => decide ((g.offset * 1280 : Int) ≤ launch * 1280 + off)
      && decide ((launch * 1280 : Int) + off + s.lineFifths p (s.pt p).mode n * 256 ≤ ((g.offset + g.duration) * 1280 : Nat))

/-- A copy that is not sent (R185, R198). -/
def State.blockCopy (s : State) (slot p : Nat) : State :=
  let t := (s.count Reg.cycBlocked 200).onOslot slot fun x => { x with blocked := true }
  let t := if p < 28 then t.countP (Reg.txC7Blocked p) p else t
  if p < 24 ∧ (s.bitAt (Reg.portHalterStat p) 1 ∨ s.bitAt (Reg.portHalterStat p) 2) then t.stick Reg.cycStat 10 else t

/-- A launch on a port among 0 to 23 (R184, R185): `target` and `at_` in 1/1280 tick of raw time. Conventions: log 39. -/
def State.launchOn (s : State) (slot p : Nat) (c : OSlotCfg) (e : StreamEntry) (b : List Byte) (target at_ : Int) : State :=
  if s.c7Blocked p || !s.inWindow p c.launch e.window b.length (at_ - target) then s.blockCopy slot p
  else if s.maxfrm p < b.length then s.countP (Reg.txOversize p) p
  else
    let t := s.sendC7 p b (at_ / 5).toNat (if e.hintKey then c.stream + 1 else 0)
    if s.launchFigure p < (at_ - target).natAbs then
      (((t.onOslot slot fun x => { x with late := true }).count Reg.cycLaunchLate 200).stick Reg.cycStat 11).raise 199
    else t

/-- A launch's copies for ports 24 to 30 join their class-7 queues (R187). -/
def State.launchQueued (s : State) (slot : Nat) (e : StreamEntry) (sid : Nat) (ports : List Nat) (multi : Bool) (b : List Byte) (ts : Raw) : State :=
  let ok := fun (p : Nat) => (decide (28 ≤ p) || (s.pt p).up) && s.fate (8 * p + 7) == .sram
  let f : Frm := { bytes := b, ingress := 31, cls := 7, ts := ts, sub := 0, vid := 0, pcp := 0, plain := true, sample := 0, big := false,
                   deadline := e.deadline, tsReq := none, refs := 0, pool := 0, stream := sid }
  let up := ports.filter fun p => decide (28 ≤ p) || (s.pt p).up
  let t := s.enqueue f (up.map fun p => (p, false)) multi
  ports.foldl (fun u p =>
    if ok p then u
    else if up.contains p then (u.count Reg.cycBlocked 200).onOslot slot fun x => { x with blocked := true }
    else u.blockCopy slot p) t

/-- A captured frame goes to the ports of its stream, after protection substitution (R141, R160, R183 to R187).
Conventions: log 39. -/
def State.launchFrom (s : State) (slot : Nat) (x : Capture) (lines : List LineEdge) : State :=
  let c := s.cyc.act.o slot
  let e := s.stream c.stream
  let ports := (portsOf (s.substitute e.egress &&& s.portMask)).filter fun p => decide (p < 31)
  let gated := ports.filter fun p => decide (p < 24)
  let target := s.rawOfTicks x.target * 5
  let at_ := fun (p : Nat) => if p < 24 then s.launchAt p lines target else target
  let t := s.onOslot slot fun y =>
    { y with cap := none, lastSeq := x.seq, stale := x.stale, skipped := false, late := false, blocked := false,
             ts := match ports.head? with
               | some p => (at_ p / 1280).toNat
               | none => y.ts }
  let t := (((t.count Reg.cycLaunched 200).perf 0x140).countRx 31 x.frame.length 9216).countRxType 31 x.frame
  let t := gated.foldl (fun u p => u.launchOn slot p c e x.frame target (at_ p)) t
  t.launchQueued slot e c.stream (ports.filter fun p => decide (24 ≤ p)) (decide (1 < ports.length)) x.frame (BitVec.ofInt 64 (target / 1280))

/-- LAUNCH (R183 to R187): `lines` gives the boundaries of the egress lines about the target. -/
def execLaunch (slot : Nat) (lines : List LineEdge) (s : State) : Outcome State Fault Refusal :=
  onUnit 4096 slot (s.event fun t =>
    match (t.oslot slot).cap with
    | none => t
    | some x => if t.running then t.launchFrom slot x lines else t)

/-! Inbound slots (R188 to R190). -/

/-- A frame is judged and filed (R189). Conventions: log 39. -/
def State.fileFrame (s : State) (f : Frm) : State :=
  let e := s.stream f.stream
  let c := s.cyc.act.i e.slot
  let g := s.gateEnt 31 e.window
  if !s.running then s
  else if !c.valid ∨ g.duration = 0 then s.countT Reg.tblStreamMiss
  else
    let t := s.cyclePos f.ts.toNat
    let bank := s.cyc.fill
    let n := f.bytes.length
    if g.offset + g.duration ≤ t then ((s.onIslot bank e.slot fun x => { x with late := true }).count Reg.cycInLate 200).raise 197
    else if t < g.offset then ((s.onIslot bank e.slot fun x => { x with early := true }).count Reg.cycInEarly 200).raise 198
    else if n < c.inOff + c.size + 4 then ((s.onIslot bank e.slot fun x => { x with lenErr := true }).count Reg.cycInLenerr 200).raise 198
    else
      let again := (s.islot bank e.slot).fresh
      let u := s.onIslot bank e.slot fun x =>
        { x with seq := if c.seqPos = 0xFF then 0 else beNat (slice f.bytes c.seqPos 2), fresh := true, dup := x.dup || again,
                 port := f.ingress, len := n, ts := f.ts.toNat }
      let u := u.piWrite bank (payBase + c.poff) (slice f.bytes c.inOff c.size)
      let u := if again then u.count Reg.cycInDup 200 else u
      (u.count Reg.cycInFiled 200).perf 0x142

/-- INBOUND_FILE (R189). -/
def execInboundFile (s : State) : Outcome State Fault Refusal :=
  .next (s.event fun t =>
    match t.sw.cycIn with
    | [] => t
    | x :: rest =>
      let u := t.onSw fun y => { y with cycIn := rest }
      match u.sw.frame x.id with
      | none => u
      | some f => (u.fileFrame f).dropCopy 255 x)

/-! The process image by command (R180). -/

/-- Payload bytes of a slot; an invalid one has none. Conventions: log 38. -/
def roomOf (valid : Bool) (size : Nat) : Nat := if valid then size else 0

/-- CYC_PI_WRITE (R180): the payload bytes, then the SEQ word. Conventions: log 38. -/
def execCycPiWrite (h : CmdHdr) (slot offset : Nat) (data : List Byte) (seq : Word) (s : State) : Outcome State Fault Refusal :=
  s.cmd h 0x0708
    (fun t => { gone := firstBad [(0, decide (slot < 4096))], owned := [(2, slot)],
                bad := firstBad [(1, decide (data.length ≤ 4032) && decide (offset + data.length ≤ (roomOf (t.cyc.act.o slot).valid (t.cyc.act.o slot).size)))] })
    fun t =>
      let b := (t.oslot slot).wbank
      let u := t.piWrite b (payBase + (t.cyc.act.o slot).poff + offset) data
      .done [] ((u.piWrite b (ostBase + 16 * slot) (leBytes 4 seq.toNat)).onOslot slot fun x => { x with sealed := true, sealAt := t.raw })

/-- CYC_PI_READ (R179, R180): what the host window shows. -/
def execCycPiRead (h : CmdHdr) (inbound : Bool) (slot offset len : Nat) (s : State) : Outcome State Fault Refusal :=
  let size := fun (t : State) => if inbound then (roomOf (t.cyc.act.i slot).valid (t.cyc.act.i slot).size) else (roomOf (t.cyc.act.o slot).valid (t.cyc.act.o slot).size)
  let poff := fun (t : State) => if inbound then (t.cyc.act.i slot).poff else (t.cyc.act.o slot).poff
  s.cmd h 0x0709
    (fun t => { role := .any, gone := firstBad [(0, decide (slot < 4096))], owned := [(if inbound then 3 else 2, slot)],
                bad := firstBad [(1, decide (len ≤ 4032) && decide (offset + len ≤ size t))] })
    fun t =>
      let bank := if inbound then t.inBank false else (t.oslot slot).wbank
      .done ((t.piBytes bank (payBase + poff t + offset) len).map fun b => b.toNat) t

/-! CYC_RD_SEL (R203). -/

/-- The words CYC_RD_W0 to W15 of a selection. -/
def State.cycRdWords (s : State) (v : Word) : List Word :=
  let x := if bit v 15 then s.cyc.pend else s.cyc.act
  let i := getFld v 0 12
  let b := match getFld v 12 3 with
    | 0 => oslotBytes (x.o i)
    | 1 => x.template i
    | 2 => islotBytes (x.i i)
    | 3 => if i < 1024 then gateBytes (Tab.get (fun _ => {}) x.gate (1024 * getFld v 16 5 + i)) else []
    | _ => []
  (List.range 16).map fun k => w32 (leNat (slice b (4 * k) 4))

end Sys2Proof.Machine
end

