-- ==== Sys2Proof/Machine/Tables.lean ====
section
/-! DEFINITION. The table commands and events (R141 to R170). -/

namespace Sys2Proof.Machine

open Host

/-! FDB commands (R151 to R156, R168). -/

/-- What FDB_INSERT, FDB_DELETE and FDB_BATCH check. Conventions: log 32. -/
def State.fdbNeed (s : State) (o : FdbOp) : Need :=
  { gone := firstBad [(2, s.fdbOpThere o)], owned := ownedPorts (s.fdbOpPorts o), reins := [9], bad := fdbOpBad o }

/-- FDB_INSERT (R151, R156). -/
def execFdbInsert (h : CmdHdr) (op : FdbOp) (s : State) : Outcome State Fault Refusal :=
  let op := { op with delete := false }
  s.cmd h 0x0301 (fun t => t.fdbNeed op) fun t =>
    match t.fdbInsert op with
    | (st, ps, u) => if st = St.ok then .done ps u.nextEpoch else .refuse st ps

/-- FDB_DELETE (R168). -/
def execFdbDelete (h : CmdHdr) (fid mac : Nat) (s : State) : Outcome State Fault Refusal :=
  s.cmd h 0x0302 (fun t => t.fdbNeed { delete := true, flags := 0, fid := fid, mac := mac, dest := 0 }) fun t =>
    match t.fdbDelete fid mac with
    | some u => .done [] u.nextEpoch
    | none => .refuse St.notFound []

/-- FDB_LOOKUP (R168): the entry, its set and way, and whether the old seed holds it. -/
def execFdbLookup (h : CmdHdr) (fid mac : Nat) (s : State) : Outcome State Fault Refusal :=
  s.cmd h 0x0303 (fun _ => { role := .any, bad := firstBad [(0, decide (fid < 4096))] }) fun t =>
    match t.fdbFind fid mac with
    | some (i, e, old) => .done [e.mac, e.ctl, e.dest.toNat, i / 8, i % 8, b2n old] t
    | none => .refuse St.notFound []

/-- Ports 0 to 30 that a context owns. -/
def State.portsOwned (s : State) (c : Nat) : Word :=
  (List.range 31).foldl (fun w p => if s.owner 0 p = some c then orBit w p else w) 0

/-- FDB_FLUSH (R156, R168): port 0xFF names every port the caller owns. -/
def execFdbFlush (h : CmdHdr) (port : Nat) (static : Bool) (fid : Nat) (s : State) : Outcome State Fault Refusal :=
  s.cmd h 0x0304
    (fun t => { gone := firstBad [(0, decide (port = 0xFF) || (decide (port < 31) && t.exists port))],
                owned := if port = 0xFF then [] else ownedPorts [port], reins := [9],
                bad := firstBad [(2, decide (fid < 4096) || decide (fid = 0xFFFF))] })
    fun t =>
      match t.fdbFlush (if port = 0xFF then t.portsOwned h.ctx else portBit port) static fid with
      | (u, true) => .done [] u.nextEpoch
      | (u, false) => .done [] u

/-- The results of a batch, in the order given (R156): the adds are applied first. -/
def State.batch (s : State) (ops : List FdbOp) : State × List Nat :=
  let code := fun (st : Nat) => if st = St.ok then 0 else if st = St.exists_ then 1 else if st = St.full then 2 else 3
  let adds := ops.foldl (fun (x : State × List (Option Nat)) o =>
    if o.delete then (x.1, x.2 ++ [none])
    else match x.1.fdbInsert o with
      | (st, _, u) => (u, x.2 ++ [some (code st)])) (s, [])
  let all := (ops.zip adds.2).foldl (fun (x : State × List Nat) y =>
    match y.2 with
    | some r => (x.1, x.2 ++ [r])
    | none => match x.1.fdbDelete y.1.fid y.1.mac with
      | some u => (u, x.2 ++ [0])
      | none => (x.1, x.2 ++ [3])) (adds.1, [])
  all

/-- FDB_BATCH (R156). -/
def execFdbBatch (h : CmdHdr) (ops : List FdbOp) (s : State) : Outcome State Fault Refusal :=
  s.cmd h 0x0305
    (fun t => { gone := ops.findIdx? fun o => !t.fdbOpThere o, owned := ops.flatMap fun o => ownedPorts (t.fdbOpPorts o),
                reins := [9],
                bad := if 254 < ops.length then some 0 else ops.findIdx? fun o => (fdbOpBad o).isSome })
    fun t =>
      match t.batch ops with
      | (u, rs) => .done (rs ++ [(u.nextEpoch.rd Reg.tblCfgEpoch).toNat]) u.nextEpoch

/-- LEARN_SET (R168). -/
def execLearnSet (h : CmdHdr) (port : Nat) (en : Bool) (max : Nat) (s : State) : Outcome State Fault Refusal :=
  s.cmd h 0x0306
    (fun t => { gone := firstBad [(0, decide (port < 32) && t.exists port)], owned := ownedPorts [port], reins := [9],
                bad := firstBad [(2, decide (max < 4096))] })
    fun t => .done [] ((t.setFld Reg.tblLearnEn port 1 (b2n en)).setFld (Reg.tblLearnRate port) 0 12 max)

/-- FDB_AGE_SET (R168). -/
def execFdbAgeSet (h : CmdHdr) (time : Nat) (s : State) : Outcome State Fault Refusal :=
  s.cmd h 0x0307 (fun _ => { reins := [9], bad := firstBad [(0, decide (time < 65536))] }) fun t =>
    .done [] (t.setFld Reg.tblAge 0 16 time)

/-- LEARN_READ (R150): the caller's own queue. -/
def execLearnRead (h : CmdHdr) (max : Nat) (s : State) : Outcome State Fault Refusal :=
  s.cmd h 0x0308 (fun _ => { role := .any, bad := firstBad [(0, decide (max ≤ 128))] }) fun t =>
    let l := (t.cx h.ctx).learn
    .done ((l.take max).length :: (l.take max).flatMap fun r => (learnWords r).map (·.toNat))
      (t.onCx h.ctx fun x => { x with learn := l.drop max })

/-- VLAN_SET (R2, R156, R168). Conventions: log 32. -/
def execVlanSet (h : CmdHdr) (vid : Nat) (entry : VlanEntry) (pvidPorts : Word) (s : State) : Outcome State Fault Refusal :=
  s.cmd h 0x0310
    (fun t => { gone := firstBad [(2, (portsOf entry.member).all fun p => t.exists p), (3, (portsOf entry.untag).all fun p => t.exists p),
                                  (4, (portsOf pvidPorts).all fun p => t.exists p)], owned := ownedPorts (portsOf pvidPorts), reins := [11],
                bad := firstBad [(0, decide (1 ≤ vid ∧ vid ≤ 4094)), (1, decide (entry.fid < 4096))] })
    fun t =>
      let changed : Bool := decide (t.vlan vid ≠ entry)
      let u := t.onTbl fun x => { x with vlan := Tab.set vlanReset x.vlan vid entry, badVlan := Tab.set (fun _ => false) x.badVlan vid false }
      let u := (portsOf pvidPorts).foldl (fun v p => v.setFld (Reg.tblPvid p) 0 12 vid) u
      .done [] (if changed then u.nextEpoch else u)

/-- FDB_REHASH (R153). Conventions: log 35. -/
def execFdbRehash (h : CmdHdr) (seed : Word) (s : State) : Outcome State Fault Refusal :=
  s.cmd h 0x0390 (fun _ => { reins := [9] }) fun t =>
    if t.rehashing || decide (t.rd Reg.tblFdbStranded ≠ 0) then .refuse St.state []
    else .accepted 0 [] (((t.wr Reg.tblFdbSeedOld (t.rd Reg.tblFdbSeed)).wr Reg.tblFdbSeed seed).setFld Reg.tblFdbStat 0 2 3)

/-- REHASH_WALK_END (R153): the firmware's walk moved what it could. Conventions: log 35. -/
def execRehashWalkEnd (s : State) : Outcome State Fault Refusal :=
  .next (s.event fun t =>
    if !t.rehashing || !t.fwOn then t
    else
      let u := t.rehashWalk
      let n := u.leftOver
      let u := ((u.wr Reg.tblFdbStranded (w32 n)).setFld Reg.tblFdbStat 0 2 (if n = 0 then 0 else 2)).raise 111
      u.complete 0x0390 0 (if n = 0 then St.ok else St.full) [])

/-! Stream and protection commands (R157 to R161). -/

/-- A stream entry names only ports that are there, and not port 31 in its mask (R158). -/
def State.streamThere (s : State) (e : StreamEntry) : Bool :=
  decide (e.inPort < 32) && s.exists e.inPort && (portsOf e.egress).all fun p => decide (p < 31) && s.exists p

/-- STREAM_SET (R157, R158, R192). -/
def execStreamSet (h : CmdHdr) (index : Nat) (entry : StreamEntry) (s : State) : Outcome State Fault Refusal :=
  s.cmd h 0x0320
    (fun t => { gone := firstBad [(0, decide (index < 16384)), (4, decide (entry.inPort < 32) && t.exists entry.inPort), (7, t.streamThere entry)],
                owned := [(1, index)], reins := [10],
                bad := firstBad [(3, decide (entry.vid < 4096)), (6, decide (entry.window < 1024)),
                                 (8, !entry.valid || decide (1 ≤ entry.deadline ∧ entry.deadline < 2 ^ 32)), (9, decide (entry.slot < 4096))] })
    fun t =>
      if t.cyc.armed.isSome then .refuse St.busy []
      else match t.streamFits index entry with
        | some st => .refuse st []
        | none => .done [] (t.setStreamP index entry)

/-- STREAM_DELETE (R157, R192). Conventions: log 32. -/
def execStreamDelete (h : CmdHdr) (index : Nat) (s : State) : Outcome State Fault Refusal :=
  s.cmd h 0x0321 (fun _ => { gone := firstBad [(0, decide (index < 16384))], owned := [(1, index)], reins := [10] }) fun t =>
    if t.cyc.armed.isSome then .refuse St.busy []
    else if !(t.streamP index).valid then .refuse St.notFound []
    else .done [] (t.setStreamP index {})

/-- STREAM_GET (R168). -/
def execStreamGet (h : CmdHdr) (index : Nat) (pendingBank : Bool) (s : State) : Outcome State Fault Refusal :=
  s.cmd h 0x0322 (fun _ => { role := .any, gone := firstBad [(0, decide (index < 16384))] }) fun t =>
    .done ((dwords 8 (streamImage (if pendingBank then t.streamP index else t.stream index))).map (·.toNat)) t

/-- PROT_SET (R80, R159, R161). Conventions: log 36. -/
def execProtSet (h : CmdHdr) (pair primary alternate : Nat) (enable revertive : Bool) (wtr : Nat) (s : State) :
    Outcome State Fault Refusal :=
  let taken := fun (t : State) => (List.range 16).any fun q =>
    decide (q ≠ pair) && t.protEn q && ([t.protPrimary q, t.protAlternate q].any fun p => decide (p = primary ∨ p = alternate))
  s.cmd h 0x0330
    (fun t => { gone := firstBad [(0, decide (pair < 16)), (1, decide (primary < 24) && t.exists primary), (2, decide (alternate < 24) && t.exists alternate)],
                owned := ownedPorts [primary, alternate], reins := [8],
                bad := firstBad [(1, !taken t), (2, decide (groupOf primary ≠ groupOf alternate)), (4, decide (1 ≤ wtr ∧ wtr ≤ 3600))] })
    fun t =>
      let w := w32 (primary + alternate * 32 + b2n enable * 1024 + b2n revertive * 2048 + wtr * 16384)
      .done [] ((t.wr (Reg.tblProt pair) w).onTbl fun x =>
        { x with onAlt := Tab.set (fun _ => false) x.onAlt pair false, back := Tab.set (fun _ => false) x.back pair false, badProt := Tab.set (fun _ => false) x.badProt pair false })

/-- PROT_GET (R168). -/
def execProtGet (h : CmdHdr) (pair : Nat) (s : State) : Outcome State Fault Refusal :=
  s.cmd h 0x0331 (fun _ => { role := .any, gone := firstBad [(0, decide (pair < 16))] }) fun t => .done [(t.rd (Reg.tblProt pair)).toNat] t

/-- PROT_REVERT (R161). -/
def execProtRevert (h : CmdHdr) (pair : Nat) (s : State) : Outcome State Fault Refusal :=
  s.cmd h 0x0332
    (fun t => { gone := firstBad [(0, decide (pair < 16))], owned := ownedPorts [t.protPrimary pair, t.protAlternate pair], reins := [8] })
    fun t =>
      if !t.protEn pair || !(t.pt (t.protPrimary pair)).up || badAt t.tbl.badProt pair then .refuse St.state []
      else .done [] (if t.onAlternate pair then t.protFlip pair else t)

/-- PROT_SWITCH (R160). Conventions: log 36. -/
def execProtSwitch (pair : Nat) (s : State) : Outcome State Fault Refusal :=
  onUnit 16 pair (s.event fun t => t.protJudge pair)

/-- PROT_WTR_RETURN (R161): the primary has been UP without fault for wtr seconds. -/
def execProtWtrReturn (pair : Nat) (s : State) : Outcome State Fault Refusal :=
  onUnit 16 pair (s.event fun t =>
    let p := t.protPrimary pair
    if t.protEn pair && t.bitAt (Reg.tblProt pair) 11 && t.onAlternate pair && !badAt t.tbl.badProt pair && !t.portFault p
        && decide ((t.pt p).cleanAt + t.fld (Reg.tblProt pair) 14 12 * 1000000000 ≤ t.uptime) then
      t.protFlip pair
    else t)

/-! Shadow commands (R163 to R165). -/

/-- SHADOW_WRITE (R163). -/
def execShadowWrite (h : CmdHdr) (table first : Nat) (entries : List Nat) (s : State) : Outcome State Fault Refusal :=
  let n := entries.length
  let size := if table = 0 then 262144 else if table = 1 then 4096 else 16384
  let put := fun (t : Tab Nat) => (entries.zip (List.range n)).foldl (fun u x => Tab.set (fun _ => 0) u (first + x.2) x.1) t
  s.cmd h 0x0340
    (fun _ => { reins := [if table = 0 then 9 else if table = 1 then 11 else 10],
                bad := firstBad [(0, decide (table < 3)), (1, decide (first + n ≤ size)), (2, decide (n ≤ if table = 2 then 127 else 254)),
                                 (3, entries.all fun e => decide (e < if table = 2 then 2 ^ 256 else 2 ^ 128))] })
    fun t => .done [] (t.onTbl fun x =>
      if table = 0 then { x with shFdb := put x.shFdb } else if table = 1 then { x with shVlan := put x.shVlan } else { x with shStr := put x.shStr })

/-- SHADOW_CTRL (R164). -/
def execShadowCtrl (h : CmdHdr) (mode pace : Nat) (s : State) : Outcome State Fault Refusal :=
  s.cmd h 0x0341 (fun _ => { reins := [8], bad := firstBad [(0, decide (mode < 3)), (1, decide (1 ≤ pace ∧ pace ≤ 1000))] }) fun t =>
    .done [] (t.writeShadow (putFld (putFld (t.rd Reg.tblShadowCtrl) 0 2 mode) 2 10 pace))

/-- SHADOW_LOG_GET (R165). -/
def execShadowLogGet (h : CmdHdr) (max : Nat) (s : State) : Outcome State Fault Refusal :=
  s.cmd h 0x0342 (fun _ => { role := .any, bad := firstBad [(0, decide (max ≤ 64))] }) fun t =>
    let l := t.tbl.mmLog.take max
    .done (l.length :: l.flatMap fun r => (mmWords r).map (·.toNat)) (t.onTbl fun x => { x with mmLog := x.mmLog.drop max })

/-- SHADOW_COMPARE_UNIT (R164). -/
def execShadowCompareUnit (s : State) : Outcome State Fault Refusal := .next (s.event State.compareUnit)

/-! Ageing, the learn filter and faults. -/

/-- AGE_SCAN_VISIT (R154). -/
def execAgeScanVisit (index : Nat) (s : State) : Outcome State Fault Refusal :=
  onUnit 262144 index (s.event fun t => t.ageVisit index)

/-- LEARN_FILTER_EXPIRY (R149): keys held for 1 ms go. -/
def execLearnFilterExpiry (s : State) : Outcome State Fault Refusal :=
  .next (s.event fun t => t.onTbl fun x => { x with filter := x.filter.filter fun k => decide (t.now < k.2.2.2 + 1250000) })

/-- TABLE_ECC_ERROR (R170). Conventions: log 31. -/
def execTableEccError (what : TblEcc) (s : State) : Outcome State Fault Refusal :=
  .next (s.event fun t =>
    let bad := fun (f : Tables → Tables) => ((t.onTbl f).countT Reg.tblEccUncorr).raise 117
    match what with
    | .corrected => (t.countT Reg.tblEccCorr).raise 116
    | .fdb i =>
      match t.way i with
      | some e => bad fun x => { x with fdb := Tab.set (fun _ => none) x.fdb i (some { e with bad := true }) }
      | none => bad fun x => { x with badWay := Tab.set (fun _ => false) x.badWay i true }
    | .vlan v => bad fun x => { x with badVlan := Tab.set (fun _ => false) x.badVlan v true }
    | .stream n => bad fun x => { x with badStr := Tab.set (fun _ => false) x.badStr n true }
    | .prot q => bad fun x => { x with badProt := Tab.set (fun _ => false) x.badProt q true })

end Sys2Proof.Machine
end

