-- ==== Sys2Proof/Machine/Boot.lean ====
section
/-! DEFINITION. The configuration in force as a bank holds it, and what the firmware loads at a cold boot (R84, R169,
R201, R239, R265, R290, R318, R338, R349, R370, R393). -/

namespace Sys2Proof.Machine

/-- Every bit. -/
def allBits : Word := 0xFFFFFFFF

/-- The registers a configuration bank holds, by record type, each with its bits (R393): frame settings and port controls,
switch-core values, the FDB seed, PVIDs and pairs, time and time transfer, clock, claims and allocations, routes.
Conventions: log 47. -/
def cfgRegs : List (Nat × Word) :=
  ((List.range 28).flatMap fun p => [(Reg.portMaxfrm p, allBits), (Reg.portFrmCtrl p, allBits), (Reg.portPhyCtrl p, allBits)])
  ++ [(Reg.swcHeadroom, allBits), (Reg.swcPoolLow, allBits), (Reg.swcAgeSram, allBits), (Reg.swcAgeDram, allBits),
      (Reg.swcAgeC6, allBits), (Reg.swcSpillStage, allBits), (Reg.swcReturnThr, allBits), (Reg.arbLfsrSeed, allBits)]
  ++ ((List.range 6).flatMap fun i => [(Reg.arbTicketSh i, allBits), (Reg.arbTicket i, allBits)])
  ++ ((List.range 32).flatMap fun p => [(Reg.swcPcpMap p, allBits), (Reg.swcDrr0 p, allBits), (Reg.swcDrr1 p, allBits), (Reg.tblPvid p, allBits)])
  ++ ((List.range 28).map fun p => (Reg.swcSample p, allBits))
  ++ ((List.range 256).flatMap fun q => [(Reg.swcQcfg q, allBits), (Reg.swcQdramCfg q, allBits)])
  ++ [(Reg.tblFdbSeed, allBits)]
  ++ ((List.range 16).map fun q => (Reg.tblProt q, 0x03FFCFFF))
  ++ [(Reg.tsuCtrl, allBits), (Reg.tsuSlewMax, allBits), (Reg.tsuSwitchLimit, allBits)]
  ++ ((List.range 2).flatMap fun d => [(Reg.tsuDom d, 0xFF00), (Reg.tsuServo d, allBits), (Reg.tsuLockcfg d, allBits)])
  ++ ((List.range 24).flatMap fun p => [(Reg.ttCtrl p, allBits), (Reg.ttAlpha p, allBits), (Reg.ttAsym p, allBits)])
  ++ [(Reg.clkSwitch, allBits), (Reg.clkDisagree, allBits), (Reg.clkDpllCfg, allBits)]
  ++ ((List.range 6).map fun i => (Reg.clkRefCfg i, allBits))
  ++ ((List.range 16).flatMap fun n => [(Reg.tioBridle n, allBits), (Reg.tgStat n, 0xF0000)])
  ++ ((List.range 4).map fun u => (Reg.iuStat u, 0xF000000))
  ++ ((List.range 256).map fun n => (Reg.evtRoute n, allBits))

/-- The bits of a register that a bank holds. -/
def cfgMask (a : Nat) : Word := ((cfgRegs.find? fun x => decide (x.1 = a)).map (·.2)).getD 0

/-- The configuration in force, as CFG_SAVE writes it (R393). Conventions: log 47. -/
def State.snapshot (s : State) : Cfg :=
  { regs := (s.regs.map fun x => (x.1, x.2 &&& cfgMask x.1)).filter fun x => cfgMask x.1 != 0,
    modes := (List.range 24).map fun p => (p, (s.pt p).mode),
    boards := s.boards,
    statics := s.tbl.fdb.filterMap fun x => x.2.bind fun e => if e.stat then some e else none,
    vlan := s.tbl.vlan, streams := s.tbl.strA,
    sched := s.cyc.act, period := s.rd Reg.cycPeriod, phase := s.cyc.phase, hash := s.rd Reg.cycNetHash,
    gen := s.boundGen, en := s.bitAt Reg.cycCtrl 0,
    ptp := (List.range 28).map fun p =>
      let x := s.ptm p
      (p, { profile := x.profile, flags := x.flags, logSync := x.logSync, logAnnounce := x.logAnnounce, logDelay := x.logDelay,
            announceTmo := x.announceTmo }),
    gms := [(s.dm 0).gm, (s.dm 1).gm],
    binds := [6, 7].map fun c => if s.bitAt (Reg.hcxBind c) 7 then ((s.rd (Reg.hcxBind c)).toNat, (s.cx c).mac) else (0, 0),
    keys := [6, 7].map fun c => (s.cx c).key,
    owners := s.owners, logMask := s.mgt.logMask }

/-- The factory defaults (R84, R338, R396): F ports NATIVE25 and enabled, L ports disabled, M ports enabled.
Conventions: log 47. -/
def Cfg.factory : Cfg :=
  { regs := ((List.range 16).map fun p => (Reg.portPhyCtrl p, 1)) ++ (List.range 4).map fun i => (Reg.portPhyCtrl (24 + i), 1),
    modes := (List.range 24).map fun p => (p, .native25), logMask := factoryMask }

/-- The winning configuration bank's content (R392). Conventions: log 47. -/
def Mgt.config (m : Mgt) : Cfg :=
  match m.cfgWinner with
  | some b => (m.cfgb b).cfg.getD Cfg.factory
  | none => Cfg.factory

/-- The registers a bank holds take its values; those it does not list take their reset values. Port controls follow
with the modes. -/
def State.loadRegs (s : State) (c : Cfg) : State :=
  let put := fun (t : State) (x : Nat × Word) =>
    let m := cfgMask x.1
    t.wr x.1 ((t.rd x.1 &&& ~~~m) ||| (x.2 &&& m))
  let phy := fun (a : Nat) => (List.range 28).any fun p => decide (a = Reg.portPhyCtrl p)
  let t := s.regs.foldl (fun t x => if cfgMask x.1 = 0 ∨ phy x.1 then t else put t (x.1, Reg.reset x.1)) s
  c.regs.foldl (fun t x => if phy x.1 then t else put t x) t

/-- A port's mode from the bank (R74, R84): a disabled port keeps its mode; an L port whose board table does not serve is
left disabled. The first enabled port of a group gives it its family (R78). Conventions: log 52. -/
def State.bootPort (s : State) (c : Cfg) (p : Nat) : State :=
  if s.absent p then s
  else
    let w := ((c.regs.find? fun x => decide (x.1 = Reg.portPhyCtrl p)).map (·.2)).getD 0
    let m := ((c.modes.find? fun x => decide (x.1 = p)).map (·.2)).getD .native25
    let t := s.writePhyCtrl p (putFld w 0 1 0)
    if p < 24 then
      let t := (t.onPt p fun x => { x with mode := m }).loadDelays p
      if !bit w 0 then t
      else match if p < 16 then none else t.boardFault p m.family with
        | none => ((if p < 16 then t else t.loadBoard p m.family).setFld (Reg.portPhyCtrl p) 0 1 1).bringUp p
        | some 1 => t.portErr p (Reg.portPhyStat p) 11
        | some _ => t
    else t.writePhyCtrl p w

/-- The configured generator is bound, and a schedule held in the bank is applied as an IMMEDIATE commit (R201). -/
def State.bootCycle (s : State) (c : Cfg) : State :=
  let s := match c.gen with
    | some g => (s.bindGen g).setEn c.en
    | none => s.setEn c.en
  if c.period = 0 then s
  else
    let t := (s.onCyc fun x => { x with pend := c.sched, phase := c.phase }).wr Reg.cycPeriodPend c.period
    let t := t.applyCommit c.hash none
    if t.locked then t.armCause else t

/-- What the firmware loads from the configuration bank before it is ready, in its order: owners, routes, bindings and
keys; tables; settings; claims, the bound generator and the schedule; the port modes (R169, R201, R389).
Conventions: log 47. -/
def State.loadConfig (s : State) : State :=
  let c := s.mgt.config
  let t : State := { s with owners := c.owners, boards := c.boards }
  let t := t.onMgt fun m => { m with logMask := c.logMask }
  let t := t.loadRegs c
  let t := [6, 7].foldl (fun u x =>
    let b := (c.binds[x - 6]?).getD (0, 0)
    (u.wr (Reg.hcxBind x) (w32 b.1)).onCx x fun y =>
      { y with key := (c.keys[x - 6]?).getD [], mac := b.2, vid := b.1 / 256 % 4096 }) t
  let t := c.statics.foldl (fun u e =>
    (u.fdbInsert { delete := false, flags := 1 + b2n e.mc * 4, fid := e.fid, mac := e.mac, dest := e.dest }).2.2) t
  let t := t.onTbl fun x => { x with vlan := c.vlan, strA := c.streams, strP := c.streams }
  let t := t.onSw fun x => { x with floors := t.floorSum }
  let t := c.ptp.foldl (fun u x => u.onPtm x.1 fun y =>
    { y with profile := x.2.profile, flags := x.2.flags, logSync := x.2.logSync, logAnnounce := x.2.logAnnounce,
             logDelay := x.2.logDelay, announceTmo := x.2.announceTmo, ptp := if 1 ≤ x.2.profile ∧ x.2.profile ≤ 3 then .listening else .off }) t
  let t := (List.range 2).foldl (fun u d => match c.gms[d]? with
    | some g => u.onDm d fun x => { x with gm := g }
    | none => u) t
  -- R306: the four units are calibrated from now on
  let t := ((List.range 4).foldl (fun u i => u.setFld (Reg.iuStat i) 2 1 1) t).onMgt fun m => { m with calQ := List.range 4 }
  let t := t.bootCycle c
  (List.range 28).foldl (fun u p => u.bootPort c p) t

end Sys2Proof.Machine
end

