-- ==== Sys2Proof/Machine/Management.lean ====
section
/-! DEFINITION. Management: the processor and its boot (R379 to R400), resets and freezes (R386 to R407),
sensors and feeds (R381 to R385), the persistent store, the log, firmware update and the TAP. -/

namespace Sys2Proof.Machine

open Host

/-! System and diagnostics commands. -/

/-- A firmware bank that is valid and not rejected: unconfirmed with three bits of tries clear it is (R392, R400).
Conventions: log 12. -/
def FwBank.good (x : FwBank) : Bool := x.valid && (x.confirmed || decide (x.tries < 3))

/-- A firmware bank holds a valid image; the one booted last did as it was booted. Conventions: log 12. -/
def State.fwGood (s : State) (b : Nat) : Bool := (s.mgt.fwb b).good || ((s.mgt.fwb b).valid && decide (b = s.mgt.fwBank))

/-- Firmware versions: the running bank and the other, 0 for an invalid bank (R408). -/
def State.fwVer (s : State) : Word :=
  let v := fun b => if s.fwGood b then (s.mgt.fwb b).major * 256 + (s.mgt.fwb b).minor else 0
  w32 (v s.mgt.fwBank + v (1 - s.mgt.fwBank) * 65536)

/-- SYS_FEAT (R3, R364). -/
def State.feat (s : State) : Word := if s.code = .i16 then 0x000FFFFF else 0x00050F0F

/-- SYS_GET (R409). -/
def execSysGet (h : CmdHdr) (s : State) : Outcome State Fault Refusal :=
  s.cmd h 0x0001 (fun _ => { role := .any }) fun t =>
    .done [(t.rd Reg.sysId).toNat, (t.rd Reg.sysRev).toNat, t.feat.toNat, t.serial, (t.rd Reg.mgtBootCause).toNat, t.fwVer.toNat] t

/-- MGT_FEED_STAT as read (R408). -/
def State.feedStat (s : State) : Word :=
  let m := s.mgt
  putFld (s.rd Reg.mgtFeedStat) 0 7
    (b2n (decide (17000 < m.feedA)) + b2n (decide (17000 < m.feedB)) * 2
      + b2n (decide (19200 ≤ m.feedA ∧ m.feedA ≤ 30000)) * 4 + b2n (decide (19200 ≤ m.feedB ∧ m.feedB ≤ 30000)) * 8
      + b2n m.activeB * 16 + b2n m.handover * 32 + b2n m.busOk * 64)

/-- SENSOR_GET (R409). -/
def execSensorGet (h : CmdHdr) (s : State) : Outcome State Fault Refusal :=
  s.cmd h 0x0002 (fun _ => { role := .any }) fun t =>
    .done ((List.range 12).map (fun i => (t.rd (Reg.mgtTemp i)).toNat) ++ [(t.rd Reg.mgtOven).toNat]
      ++ (List.range 9).map (fun i => (t.rd (Reg.mgtRail i)).toNat)
      ++ [(t.rd Reg.mgtFeedA).toNat, (t.rd Reg.mgtFeedB).toNat, (t.rd Reg.mgtBus).toNat, t.feedStat.toNat]) t

/-- FREEZE (R403): the freeze follows 1 ms after the reply. Conventions: log 45. -/
def execFreeze (h : CmdHdr) (s : State) : Outcome State Fault Refusal :=
  s.cmd h 0x0910 (fun _ => { role := .prin, reins := [0] }) fun t =>
    if t.bitAt Reg.sysFreezeEn 0 then .done [] (t.onMgt fun m => { m with freezeAt := some (t.now + 1250000) })
    else .refuse St.state []

/-! Firmware update (R397, R398). -/

/-- MGT_UPD_STAT.state (R408). -/
def State.updState (s : State) : Nat := s.fld Reg.mgtUpdStat 0 3

/-- The session changes state: source 252 and a log record (R395, R397). -/
def State.setUpd (s : State) (n got : Nat) : State :=
  (((s.setFld Reg.mgtUpdStat 0 3 n).setFld Reg.mgtUpdStat 8 24 (got / 256)).raiseFw 252).logRec 0x100 8 [n, got]

/-- UPDATE_BEGIN (R397); in recovery no image runs (R389). Conventions: log 12. -/
def execUpdateBegin (h : CmdHdr) (length : Nat) (s : State) : Outcome State Fault Refusal :=
  s.cmd h 0x0801 (fun _ => { role := .prin, reins := [16], bad := firstBad [(0, decide (length ≤ 8388608))] }) fun t =>
    if t.mgt.update.isSome || (!t.bitAt Reg.mgtStat 1 && !(t.mgt.fwb t.mgt.fwBank).confirmed) then .refuse St.state []
    else if t.storeBusy then .refuse St.busy []
    else
      let b := 1 - t.mgt.fwBank
      .accepted 0 [] ((t.onMgt fun m =>
        { m with update := some { ctx := h.ctx, length := length, bank := b, data := [], restart := false },
                 fwBanks := Tab.set (fun _ => {}) m.fwBanks b {} }).setUpd 1 0)

/-- UPDATE_ERASE_DONE (R397). -/
def execUpdateEraseDone (s : State) : Outcome State Fault Refusal :=
  .next (if s.fwOn && s.mgt.update.isSome && decide (s.updState = 1) then (s.setUpd 2 0).complete 0x0801 0 St.ok [] else s)

/-- UPDATE_DATA (R397). Conventions: log 12. -/
def execUpdateData (h : CmdHdr) (offset : Nat) (data : List Byte) (s : State) : Outcome State Fault Refusal :=
  s.cmd h 0x0802
    (fun t => { role := .prin, reins := [16],
                bad := firstBad [(1, decide (1 ≤ data.length ∧ data.length ≤ 4064)),
                                 (0, match t.mgt.update with
                                     | none => true
                                     | some u => decide (offset ≠ u.data.length ∨ offset + data.length ≤ u.length))] })
    fun t =>
      match t.mgt.update with
      | none => .refuse St.state []
      | some u =>
        if t.updState ≠ 2 then .refuse St.state []
        else if offset ≠ u.data.length then .refuse St.state [u.data.length]
        else .done [] ((t.onMgt fun m => { m with update := some { u with data := u.data ++ data } }).setFld
              Reg.mgtUpdStat 8 24 ((u.data.length + data.length) / 256))

/-- UPDATE_COMMIT (R397). Conventions: log 12. -/
def execUpdateCommit (h : CmdHdr) (restart : Bool) (s : State) : Outcome State Fault Refusal :=
  s.cmd h 0x0803 (fun _ => { role := .prin, reins := [16] }) fun t =>
    match t.mgt.update with
    | none => .refuse St.state []
    | some u =>
      if t.updState ≠ 2 then .refuse St.state []
      else .accepted 0 [] ((t.onMgt fun m => { m with update := some { u with restart := restart } }).setUpd 3 u.data.length)

/-- UPDATE_VERIFY_DONE (R398): the image's header and length are checked here; whether the ECDSA
signature holds comes from outside the block's model. Conventions: log 12. -/
def execUpdateVerifyDone (sigOk : Bool) (s : State) : Outcome State Fault Refusal :=
  .next (match s.mgt.update with
    | none => s
    | some u =>
      if !s.fwOn || decide (s.updState ≠ 3) then s
      else
        let d := u.data
        let good := sigOk && decide (leNat (slice d 0 4) = 0x5B32F1A0) && decide (d.length = u.length)
          && decide (leNat (slice d 8 4) = d.length)
        if !good then
          ((s.onMgt fun m => { m with update := none }).setUpd 0 0).complete 0x0803 0 St.mismatch []
        else if s.fld Reg.sysRev 0 8 < (d.getD 16 0).toNat then
          ((s.onMgt fun m => { m with update := none }).setUpd 0 0).complete 0x0803 0 St.state []
        else
          let b : FwBank := { valid := true, seq := (s.mgt.fwb s.mgt.fwBank).seq + 1, major := (d.getD 5 0).toNat, minor := (d.getD 4 0).toNat }
          let t := ((s.onMgt fun m => { m with update := none, fwBanks := Tab.set (fun _ => {}) m.fwBanks u.bank b }).setUpd 4 d.length).complete
            0x0803 0 St.ok []
          if u.restart then t.fwRestart 5 else t)

/-- UPDATE_ABORT (R397). -/
def execUpdateAbort (h : CmdHdr) (s : State) : Outcome State Fault Refusal :=
  s.cmd h 0x0804 (fun _ => { role := .prin, reins := [16] }) fun t =>
    if t.mgt.update.isSome then .done [] t.abortUpdate else .refuse St.state []

/-- UPDATE_STATUS_GET (R397). -/
def execUpdateStatusGet (h : CmdHdr) (s : State) : Outcome State Fault Refusal :=
  s.cmd h 0x0805 (fun _ => { role := .any }) fun t =>
    .done ((t.rd Reg.mgtUpdStat).toNat :: [0, 1].flatMap fun b =>
      let x := t.mgt.fwb b
      [x.major * 256 + x.minor, x.seq, b2n x.confirmed]) t

/-! The persistent store (R390 to R394). -/

/-- CFG_SAVE (R393, R409). -/
def execCfgSave (h : CmdHdr) (s : State) : Outcome State Fault Refusal :=
  s.cmd h 0x0810 (fun _ => { reins := [16] }) fun t =>
    if t.storeBusy then .refuse St.busy []
    else .accepted 0 [] (t.onMgt fun m => { m with job := some (.config (otherBank m.cfgWinner)) })

/-- CFG_FACTORY (R409). -/
def execCfgFactory (h : CmdHdr) (s : State) : Outcome State Fault Refusal :=
  s.cmd h 0x0812 (fun _ => { role := .prin, reins := [16] }) fun t =>
    if t.storeBusy then .refuse St.busy []
    else .done [] (t.onMgt fun m => { m with job := some (.factory (otherBank m.cfgWinner)) })

/-- MGT_STORE_STAT as read (R408). -/
def State.storeStat (s : State) : Word := putFld (s.rd Reg.mgtStoreStat) 8 1 (b2n s.storeBusy)

/-- STORE_STATUS_GET (R409). Conventions: log 8. -/
def execStoreStatusGet (h : CmdHdr) (s : State) : Outcome State Fault Refusal :=
  s.cmd h 0x0813 (fun _ => { role := .any }) fun t =>
    .done [t.storeStat.toNat, (t.mgt.fwb 0).seq, (t.mgt.fwb 1).seq, (t.mgt.cfgb 0).seq, (t.mgt.cfgb 1).seq,
           Config.calSeq 0, Config.calSeq 1, (t.mgt.svb 0).seq, (t.mgt.svb 1).seq] t

/-- The seq one above the winner's (R393). -/
def Mgt.nextCfgSeq (m : Mgt) : Nat := match m.cfgWinner with
  | none => 0
  | some b => (m.cfgb b).seq + 1

/-- The seq one above the saved-state winner's (R393). -/
def Mgt.nextSavedSeq (m : Mgt) : Nat := match m.savedWinner with
  | none => 0
  | some b => (m.svb b).seq + 1

/-- MGT_STORE_STAT's winners set from the banks (R408). -/
def State.setWinners (s : State) : State :=
  let n := fun (w : Option Nat) => w.getD 3
  ((s.setFld Reg.mgtStoreStat 2 2 (n s.mgt.cfgWinner)).setFld Reg.mgtStoreStat 4 2 (if s.mgt.calValid then 0 else 3)).setFld
    Reg.mgtStoreStat 6 2 (n s.mgt.savedWinner)

/-- What a completed write or erase leaves in the store (R393, R394). A configuration write is followed
by one of the saved state. -/
def State.finishJob (s : State) (j : StoreJob) : State :=
  match j with
  | .config b => s.onMgt fun m =>
      { m with cfgBanks := Tab.set (fun _ => {}) m.cfgBanks b { valid := true, seq := m.nextCfgSeq, cfg := some s.snapshot },
               job := some (.saved (otherBank m.savedWinner)) }
  | .factory b => s.onMgt fun m =>
      { m with cfgBanks := Tab.set (fun _ => {}) m.cfgBanks b { valid := true, seq := m.nextCfgSeq, cfg := none }, job := none }
  | .saved b => s.onMgt fun m =>
      { m with savedBanks := Tab.set (fun _ => {}) m.savedBanks b { m.saved with valid := true, seq := m.nextSavedSeq }, job := none }
  | .erase 1 => s.onMgt fun m => { m with cfgBanks := [], job := none }
  | .erase 3 => s.onMgt fun m => { m with savedBanks := [], job := none }
  | .erase _ => s.onMgt fun m => { m with log := [], job := none }

/-- The section, the bank and the sequence a job has written, for its log record (R395). Conventions: log 13. -/
def StoreJob.args (m : Mgt) : StoreJob → List Nat
  | .config b => [1, b, (m.cfgb b).seq]
  | .factory b => [1, b, (m.cfgb b).seq]
  | .saved b => [3, b, (m.svb b).seq]
  | .erase n => [n, 3, 0]

/-- STORE_WRITE_DONE (R393, R394). -/
def execStoreWriteDone (s : State) : Outcome State Fault Refusal :=
  .next (match s.mgt.job with
    | none => s
    | some j =>
      if !s.fwOn then s
      else
        let t := ((s.finishJob j).setWinners.raiseFw 249).logRec 0x100 6 (j.args (s.finishJob j).mgt)
        match j with
        | .config _ => t.complete 0x0810 0 St.ok []
        | _ => t)

/-- SAVED_STATE_HOURLY_WRITE (R393): an hour of uptime after the last. -/
def execSavedStateHourlyWrite (s : State) : Outcome State Fault Refusal :=
  .next (if s.fwOn && decide (s.mgt.hourAt + 3600000000000 ≤ s.uptime) then
      s.onMgt fun m => { m with hourAt := s.uptime, saved := { m.saved with hours := m.saved.hours + 1, failovers := s.fld Reg.mgtFailovers 0 32 } }.saveState
    else s)

/-! The log (R395, R396). -/

/-- A log record as its 64 bytes (R395); an argument takes four. Conventions: log 13. -/
def LogRec.bytes (r : LogRec) : List Byte :=
  let b := leBytes 4 r.seq ++ leBytes 8 r.uptime ++ leBytes 6 r.sec ++ leBytes 4 r.ns ++ leBytes 1 r.flags ++ leBytes 1 r.epoch
    ++ leBytes 2 r.source ++ leBytes 2 r.code ++ (r.args.flatMap (leBytes 4) ++ List.replicate 32 0).take 32
  b ++ leBytes 4 (crc32c b).toNat

/-- A log record as the 16 words of its bytes. -/
def LogRec.words (r : LogRec) : List Nat := (List.range 16).map fun i => leNat (slice r.bytes (4 * i) 4)

/-- LOG_READ (R395, R409). -/
def execLogRead (h : CmdHdr) (first max : Nat) (s : State) : Outcome State Fault Refusal :=
  s.cmd h 0x0820 (fun _ => { role := .any, bad := firstBad [(1, decide (1 ≤ max ∧ max ≤ 63))] }) fun t =>
    if t.mgt.log.any fun r => decide (r.seq = first) then
      .done (((t.mgt.log.filter fun r => decide (first ≤ r.seq)).take max).flatMap LogRec.words) t
    else .refuse St.notFound []

/-- LOG_SET (R396). -/
def execLogSet (h : CmdHdr) (mask : BitVec 256) (s : State) : Outcome State Fault Refusal :=
  s.cmd h 0x0821 (fun _ => { reins := [16] }) fun t => .done [] (t.onMgt fun m => { m with logMask := mask })

/-- LOG_SUPPRESS_REPORT (R396): once the second is over, a record gives the count suppressed. Conventions: log 13. -/
def execLogSuppressReport (s : State) : Outcome State Fault Refusal :=
  .next (if s.fwOn && decide (0 < s.mgt.suppressed) && decide (s.mgt.logSecond < s.uptime / 1000000000) then
      (s.onMgt fun m => { m with suppressed := 0 }).logRec 0x100 4 [s.mgt.suppressed]
    else s)

/-! Boot (R389, R399, R400). -/

/-- BOOT (R389, R392, R400): the signatures of the two images hold as given. Conventions: logs 6, 12. -/
def execBoot (sigOk0 sigOk1 : Bool) (s : State) : Outcome State Fault Refusal :=
  .next (if s.live && decide (s.mgt.fw = .down) then
      -- a bank whose signature fails is invalid
      let s := s.onMgt fun m => { m with fwBanks := [(0, sigOk0), (1, sigOk1)].foldl (fun t x =>
        if x.2 then t else Tab.set (fun _ => {}) t x.1 { m.fwb x.1 with valid := false }) m.fwBanks }
      let w := winner (s.mgt.fwb 0).good (s.mgt.fwb 1).good (s.mgt.fwb 0).seq (s.mgt.fwb 1).seq
      let would := winner (s.mgt.fwb 0).valid (s.mgt.fwb 1).valid (s.mgt.fwb 0).seq (s.mgt.fwb 1).seq
      match w with
      | none =>
        -- recovery: the boot loader serves HC0 (R389)
        (((s.onMgt fun m => { m with fw := .ready }).stick Reg.mgtStat 1).stick Reg.mgtBootCause 9).setFld Reg.mgtStoreStat 0 2 3
      | some b =>
        let x := s.mgt.fwb b
        let rolled : Bool := decide (would ≠ w)
        let t := s.onMgt fun m =>
          { m with fw := .started, fwBank := b, rolled := rolled,
                   fwBanks := Tab.set (fun _ => {}) m.fwBanks b (if x.confirmed then x else { x with tries := x.tries + 1 }) }
        ((t.setFld Reg.mgtBootCause 4 1 b).setFld Reg.mgtBootCause 8 1 (b2n rolled)).setFld Reg.mgtStoreStat 0 2 b
    else s)

/-- What the firmware takes from the saved state at a cold boot (R329, R392). -/
def State.loadSaved (s : State) : State :=
  let v : SavedState := match s.mgt.savedWinner with
    | none => {}
    | some b => s.mgt.svb b
  let t := s.onMgt fun m => { m with saved := v }
  [6, 7].foldl (fun u c => u.onCx c fun x =>
    { x with arLast := v.floors.getD (2 * (c - 6)) 0 + 2 ^ 20 - 1, arOwn := v.floors.getD (2 * (c - 6) + 1) 0 + 2 ^ 20 - 1 }) t

/-- A bank of a section found invalid while its partner is valid is reported (R392). -/
def State.badBank (s : State) (sec : Nat) (v0 v1 : Bool) : State :=
  if v0 = v1 then s else (s.raiseFw 250).logRec 0x100 7 [sec, if v0 then 1 else 0]

/-- The configuration and saved-state banks judged (R392). -/
def State.badBanks (s : State) : State :=
  (s.badBank 1 (s.mgt.cfgb 0).valid (s.mgt.cfgb 1).valid).badBank 3 (s.mgt.svb 0).valid (s.mgt.svb 1).valid

/-- What the firmware does as it becomes ready (R349, R387, R389): a cold boot loads the saved state and the configuration; a
firmware restart loads nothing. -/
def State.becomeReady (s : State) : State :=
  let t := s.onMgt fun m => { m with fw := .ready, readyAt := s.uptime }
  let t := if s.mgt.warm then t else t.loadSaved.loadConfig
  let t := t.onMgt fun m => { m with warm := false, watchdog := false, rolled := false }
  let t := t.setWinners
  let t := if s.mgt.warm then t else
    (t.setFld Reg.mgtStoreStat 9 1 (b2n s.mgt.cfgWinner.isNone)).setFld Reg.mgtStoreStat 10 1 (b2n (!s.mgt.calValid))
  let t := t.logRec 0x100 1 [(t.rd Reg.mgtBootCause).toNat, t.fwVer.toNat]
  let t := t.badBank 0 (s.fwGood 0) (s.fwGood 1)
  let t := if s.mgt.warm then t else t.badBanks
  let t := if s.mgt.rolled then (t.raise 253).logRec 0x100 3 [1 - s.mgt.fwBank, (s.mgt.fwb (1 - s.mgt.fwBank)).seq] else t
  let t := if s.mgt.watchdog then (t.raise 1).logRec 0x100 2 [] else t
  t.raise 0

/-- FIRMWARE_READY (R349, R389). Conventions: log 6. -/
def execFirmwareReady (s : State) : Outcome State Fault Refusal :=
  .next (if s.live && decide (s.mgt.fw = .started) then s.becomeReady else s)

/-- BOOT_CONFIRM (R399): 60 s after ready. -/
def execBootConfirm (s : State) : Outcome State Fault Refusal :=
  .next (if s.fwOn && decide (s.mgt.readyAt + 60000000000 ≤ s.uptime) && !s.bitAt Reg.mgtStat 1 then
      s.onMgt fun m => { m with fwBanks := Tab.set (fun _ => {}) m.fwBanks m.fwBank { m.fwb m.fwBank with confirmed := true } }
    else s)

/-- FIRMWARE_STOP (R21, R350). -/
def execFirmwareStop (s : State) : Outcome State Fault Refusal :=
  .next (if s.fwOn then s.onMgt fun m => { m with fw := .stopped } else s)

/-- WATCHDOG_RESTART (R380): firmware that stopped no longer resets the watchdog. -/
def execWatchdogRestart (s : State) : Outcome State Fault Refusal :=
  .next (if s.live && decide (s.mgt.fw = .stopped) then s.fwRestart 6 else s)

/-! Resets and power (R383 to R388, R420). -/

/-- RST_N_ASSERT (R386): at least 1 us; it ends a freeze as a freeze exit (R407). -/
def execRstNAssert (ns : Nat) (s : State) : Outcome State Fault Refusal :=
  .next (if ns < 1000 then s else match s.life with
    | .up => s.moduleReset 1
    | .frozen => s.freezeExit
    | _ => s)

/-- POWER_UP (R383): a feed enters its window; converter A starts if FEED_A is in its window. -/
def execPowerUp (mvA mvB : Nat) (s : State) : Outcome State Fault Refusal :=
  let okA : Bool := decide (19200 ≤ mvA ∧ mvA ≤ 30000)
  let okB : Bool := decide (19200 ≤ mvB ∧ mvB ≤ 30000)
  .next (if decide (s.life = .unpowered) && (okA || okB) then
      -- R289: the core and DRAM synthesisers are still to lock
      let t := ((s.fresh [] 0 0 0).cause 0).wr (Reg.clkSynStat 6) (w32 (2 + 80 * 512))
      (t.wr (Reg.clkSynStat 7) (w32 (2 + 512 * 512))).onMgt fun m =>
        { m with feedA := mvA, feedB := mvB, activeB := !okA, busOk := true, handover := false, forced := false,
                 cutA := decide (33000 < mvA), cutB := decide (33000 < mvB) }
    else s)

/-- All that power held is lost; the store stands (R240, R384). -/
def State.powerLost (s : State) : State :=
  { (s.fresh [] 0 0 0).onMgt fun m => { m with busOk := false, handover := false, forced := false, feedA := 0, feedB := 0 } with
    life := .unpowered }

/-- LOSS_OF_POWER (R240). -/
def execLossOfPower (s : State) : Outcome State Fault Refusal :=
  .next (if s.life = .unpowered then s else s.powerLost)

/-- RESET_HOLD_END (R289, R388, R417): the core and DRAM synthesisers locked, the hold ends and the straps are sampled; a strap read low connects its
pull-up. Conventions: log 6. -/
def execResetHoldEnd (straps : BitVec 4) (s : State) : Outcome State Fault Refusal :=
  .next (if s.life = .held ∧ s.bitAt (Reg.clkSynStat 6) 0 ∧ s.bitAt (Reg.clkSynStat 7) 0 then { s.onMgt fun m => { m with pullups := ~~~straps } with life := .up } else s)

/-- FRZ_N_ASSERT (R403): asserted for `ns` from now, at least 20 ns; it triggers while the freeze is enabled, and may stand
asserted as the freeze becomes enabled. Conventions: log 45. -/
def execFrzNAssert (ns : Nat) (s : State) : Outcome State Fault Refusal :=
  .next (s.event fun t =>
    if ns < 20 then t
    else
      let u := t.onMgt fun m => { m with frzUntil := t.now + (ns * 5 + 3) / 4 }
      if u.bitAt Reg.sysFreezeEn 0 then u.onMgt fun m => { m with freezeAt := some u.now } else u)

/-- FREEZE_ENTER (R404): the gated clocks stop once a trigger is due. Conventions: log 45. -/
def execFreezeEnter (s : State) : Outcome State Fault Refusal :=
  .next (s.event fun t => match t.mgt.freezeAt with
    | none => t
    | some r => if r ≤ t.now then { t with life := .frozen } else t)

/-- THERMAL_STOP (R382): a comparator of a switch-die sensor; all lasers go dark. -/
def execThermalStop (sensor : Nat) (s : State) : Outcome State Fault Refusal :=
  onUnit 8 sensor (s.event fun t => { t with life := .frozen, thermalStop := true })

/-! Feeds. -/

/-- The voltage of the active feed. -/
def Mgt.activeMv (m : Mgt) : Nat := if m.activeB then m.feedB else m.feedA

/-- The other feed is present (R381, R384). -/
def Mgt.otherHere (m : Mgt) : Bool :=
  if m.activeB then decide (17000 < m.feedA) && !m.cutA else decide (17000 < m.feedB) && !m.cutB

/-- The cause of a failover stands (R384). -/
def Mgt.failing (m : Mgt) : Bool :=
  decide (m.activeMv < 18000) || !m.busOk || (if m.activeB then m.cutB else m.cutA)

/-- Powered in any state of the module. -/
def State.powered (s : State) : Bool := decide (s.life ≠ .unpowered)

/-- FEED_FAILOVER (R384): confirmed after 5 us; the standby converter starts, and where it does not
regulate before the hold-up ends the module loses power. -/
def execFeedFailover (regulates : Bool) (s : State) : Outcome State Fault Refusal :=
  .next (if s.powered && s.mgt.failing && s.mgt.otherHere && !s.mgt.handover then
      if regulates then s.onMgt fun m => { m with handover := true, forced := false, busOk := true } else s.powerLost
    else s)

/-- FEED_HANDOVER_COMPLETE (R384, R385): the old converter is turned off, or a forced handover whose
converter does not regulate leaves the old one active and sets force_fail. -/
def execFeedHandoverComplete (regulates : Bool) (s : State) : Outcome State Fault Refusal :=
  .next (if s.powered && s.mgt.handover then
      if regulates then
        let old := s.mgt.activeB
        let gone := decide (s.mgt.activeMv ≤ 17000)
        let t := s.onMgt fun m => { m with handover := false, forced := false, activeB := !old, busOk := true }
        let t := (t.count Reg.mgtFailovers 13).stick Reg.mgtFeedStat 8
        (t.raise 6).raiseIf gone (if old then 5 else 4)
      else if s.mgt.forced then
        ((s.onMgt fun m => { m with handover := false, forced := false }).stick Reg.mgtFeedStat 9).raise 6
      else s.powerLost
    else s)

/-- FEED_PRESENCE_CHANGE (R381): a feed's voltage changes; presence and window are reported. -/
def execFeedPresenceChange (feed mv : Nat) (s : State) : Outcome State Fault Refusal :=
  onUnit 2 feed (if s.powered then
      let old := if feed = 0 then s.mgt.feedA else s.mgt.feedB
      let inW := fun (v : Nat) => decide (19200 ≤ v ∧ v ≤ 30000)
      let t := s.onMgt fun m => if feed = 0 then { m with feedA := mv } else { m with feedB := mv }
      (t.raiseIf (decide (17000 < old) != decide (17000 < mv)) (4 + feed)).raiseIf (inW old && !inW mv) 7
    else s)

/-- FEED_LOCKOUT (R420): the feed is above 33.0 V and its converter is cut off. -/
def execFeedLockout (feed : Nat) (s : State) : Outcome State Fault Refusal :=
  onUnit 2 feed (if s.powered then
      s.onMgt fun m =>
        let active := m.activeB = (feed == 1)
        let m := if feed = 0 then { m with cutA := true } else { m with cutB := true }
        if active then { m with busOk := false } else m
    else s)

/-- FEED_LOCKOUT_END (R420): the feed is below 31.0 V again; its converter stands as the cold standby. -/
def execFeedLockoutEnd (feed : Nat) (s : State) : Outcome State Fault Refusal :=
  onUnit 2 feed (if s.powered then s.onMgt fun m => if feed = 0 then { m with cutA := false } else { m with cutB := false } else s)

/-- FEED_FORCE (R385, R409). -/
def execFeedForce (h : CmdHdr) (sel : Nat) (s : State) : Outcome State Fault Refusal :=
  s.cmd h 0x0881 (fun _ => { role := .prin, reins := [0], bad := firstBad [(0, decide (sel = 1 ∨ sel = 2))] }) fun t =>
    if t.feedOk (sel == 2) then .done [] (t.handTo (sel == 2)) else .refuse St.state []

/-! The TAP (R405, R406). -/

/-- An instruction loaded, with what its scan shifts out. The TAP works while the module is powered. -/
def State.scan (s : State) (ir : Nat) (out : List Nat) : State :=
  if s.powered then { s with tap := { s.tap with ir := ir, tdo := out } } else s

/-- WAFER_READ, MEM_ADDR and MEM_READ are available (R405). Conventions: log 18. -/
def State.tapOpen (s : State) : Bool := decide (s.life = .frozen) && s.tap.unlocked

/-- TAP_BYPASS (R405): one bit of 0. -/
def execTapBypass (s : State) : Outcome State Fault Refusal := .next (s.scan 0xFF [0])

/-- TAP_EXTEST (R405): while RST_N is asserted; otherwise it acts as BYPASS. Conventions: log 18. -/
def execTapExtest (s : State) : Outcome State Fault Refusal :=
  .next (if s.life = .held then (s.scan 0x00 [Config.bsdlBits 0x00 s.freeCtr]).drawn else s.scan 0xFF [0])

/-- TAP_IDCODE (R405): the BSDL file's value. Conventions: log 18. -/
def execTapIdcode (s : State) : Outcome State Fault Refusal :=
  .next (if s.powered then s.scan 0x01 [Config.bsdlBits 0x01 0] else s)

/-- TAP_SAMPLE_PRELOAD (R405). Conventions: log 18. -/
def execTapSamplePreload (s : State) : Outcome State Fault Refusal :=
  .next (if s.powered then (s.scan 0x02 [Config.bsdlBits 0x02 s.freeCtr]).drawn else s)

/-- TAP_FRZ_STATUS (R405). -/
def execTapFrzStatus (s : State) : Outcome State Fault Refusal :=
  .next (s.scan 0x43 [b2n (decide (s.life = .frozen)) + b2n s.tap.unlocked * 2 + b2n s.thermalStop * 4])

/-- TAP_WAFER_READ (R405): the chain's bits, whose map the spec leaves to the wafer map file. Conventions: log 18. -/
def execTapWaferRead (bits : Nat) (s : State) : Outcome State Fault Refusal :=
  .next (if s.tapOpen then (s.scan 0x40 ((List.range bits).map fun i => Config.tapBits s.freeCtr i % 2)).drawn else s.scan 0xFF [0])

/-- TAP_MEM_ADDR (R405). -/
def execTapMemAddr (addr : Word) (s : State) : Outcome State Fault Refusal :=
  .next (if s.tapOpen then
      let t := s.scan 0x41 []
      { t with tap := { t.tap with addr := addr.toNat } }
    else s.scan 0xFF [0])

/-- A word of the TAP memory space (R406): the process image as it stands, the buffer as free values,
zero outside. Conventions: log 18. -/
def State.tapWord (s : State) (a : Nat) : Nat :=
  if a < 0x1000000 then (Config.bufferWord s.freeCtr a).toNat
  else if a < 0x1200000 then leNat ((List.range 4).map fun i => s.bankByte (a - 0x1000000 + i))
  else if a < 0x1600000 then (Config.bufferWord s.freeCtr a).toNat
  else 0

/-- TAP_MEM_READ (R405, R406): words from the address, which then increments. Conventions: log 18. -/
def execTapMemRead (words : Nat) (s : State) : Outcome State Fault Refusal :=
  .next (if s.tapOpen then
      let t := s.scan 0x42 ((List.range words).map fun i => s.tapWord ((s.tap.addr + 4 * i) % 2 ^ 32))
      { t with tap := { t.tap with addr := (s.tap.addr + 4 * words) % 2 ^ 32 } }
    else s.scan 0xFF [0])

/-! Sensors (R381). -/

/-- A sensor's reading written to its register: no answer clears valid, keeps the value and raises
source 9. Conventions: log 11. -/
def State.sense (s : State) (a : Nat) (r : Reading) : State :=
  match r with
  | some v => (s.setFld a 0 16 v).setFld a 16 1 1
  | none => (s.setFld a 16 1 0).raiseFw 9

/-- A reading at or above 145 °C, in 1/256 °C; values from 2^31 up stand for temperatures below zero.
The 16-bit register cannot show such a temperature, so the reading itself is judged. Conventions: log 11. -/
def hot (v : Nat) : Bool := decide (37120 ≤ v ∧ v < 2147483648)

/-- Which of the eight die sensors last read hot; one that does not answer keeps its last value. Conventions: log 11. -/
def hotNow (old : BitVec 8) (temps : List Reading) : BitVec 8 :=
  (List.range 8).foldl (fun m i => match temps.getD i none with
    | none => m
    | some v => if hot v then m ||| (1#8 <<< i) else m &&& ~~~(1#8 <<< i)) old

/-- A rail's reading: in_window is judged against the rail's nominal, which the spec does not give.
Conventions: log 11. -/
def State.senseRail (s : State) (i : Nat) (r : Reading) : State :=
  let t := s.sense (Reg.mgtRail i) r
  match r with
  | none => t
  | some v =>
    let nom := Config.railNominal i
    let inW : Bool := decide (95 * nom ≤ 100 * v ∧ 100 * v ≤ 105 * nom)
    (t.setFld (Reg.mgtRail i) 17 1 (b2n inW)).raiseIf (s.bitAt (Reg.mgtRail i) 17 && !inW) 8

/-- CLK_OVEN.oven_err: the oven's temperature less its setpoint of 120 °C (R268, R292). Conventions: log 11. -/
def State.senseOven (s : State) (r : Reading) : State :=
  match r with
  | some v => s.setFld Reg.clkOven 16 16 (v + 65536 - 30720)
  | none => s

/-- A unit whose die sensor is more than 5 °C from its calibration is stale (R306). Conventions: log 46. -/
def State.calStale (s : State) : State :=
  (List.range 4).foldl (fun t u =>
    let d := t.dieTemp u
    let at_ := (BitVec.ofNat 16 (t.fld (Reg.iuCalTemp u) 0 16)).toInt
    if t.bitAt (Reg.iuStat u) 4 && d.2 && decide (1280 < (d.1 - at_).natAbs) && !t.bitAt (Reg.iuStat u) 3 then
      (t.setFld (Reg.iuStat u) 3 1 1).raiseAt 187 0 u
    else t) s

/-- SENSOR_READ (R381): one round, every 100 ms. Conventions: log 11. -/
def execSensorRead (r : Sensors) (s : State) : Outcome State Fault Refusal :=
  .next (if !s.fwOn then s else
    let a := (List.range 12).foldl (fun t i => t.sense (Reg.mgtTemp i) (r.temps.getD i none)) s
    let a := a.sense Reg.mgtOven r.oven
    let a := ((a.wr Reg.mgtFeedA (w32 (r.feedA % 65536 + r.feedAma % 65536 * 65536))).wr Reg.mgtFeedB
      (w32 (r.feedB % 65536 + r.feedBma % 65536 * 65536))).wr Reg.mgtBus (w32 (r.bus % 65536 + r.busMa % 65536 * 65536))
    let a := (List.range 9).foldl (fun t i => t.senseRail i (r.rails.getD i none)) a
    let was : Bool := s.mgt.hot != 0
    let is : Bool := hotNow s.mgt.hot r.temps != 0
    let a := a.setFld Reg.mgtStat 2 1 (b2n is)
    let a := (a.raiseIf (!was && is) 2).raiseIf (was && !is) 3
    let bus : Bool := decide (11400 ≤ r.bus ∧ r.bus ≤ 12600)
    let a := (a.raiseIf (s.mgt.busOk && !bus) 7).onMgt fun m => { m with busOk := bus }
    let a := a.onMgt fun m => { m with hot := hotNow m.hot r.temps, saved := { m.saved with
      maxTemp := (r.temps.take 8).foldl (fun x t => if t.getD 0 < 2147483648 then max x (t.getD 0) else x) m.saved.maxTemp,
      minFeed := if m.saved.minFeed = 0 then min r.feedA r.feedB else min m.saved.minFeed (min r.feedA r.feedB) } }
    (((a.senseOven r.oven).moveDelays).calStale).senseOptics r.opt)

end Sys2Proof.Machine
end

