-- ==== Sys2Proof/Machine/PtpOps.lean ====
section
/-! DEFINITION. PTP on STD and M ports (R228 to R231): the messages the module builds, the states of a port, and what
received messages say. The layout of the messages and their transports is that of IEEE 1588-2019 and IEEE 802.1AS-2020, which
R228 names (PRESUMED, log 53). -/

namespace Sys2Proof.Machine

/-! Ports. -/

/-- The port runs PTP of its own (R228): profiles 1 to 3. -/
def State.ptpOn (s : State) (p : Nat) : Bool :=
  decide (1 ≤ (s.ptm p).profile) && decide ((s.ptm p).profile ≤ 3) && !s.native p && (s.pt p).up

/-- A domain that TIME_PORT_SET names for the port (R238). -/
def State.ptpNames (s : State) (p d : Nat) : Bool := (s.ptm p).flags.testBit d

/-- The domains of TIME_PORT_SET whose number a message carries (R222). -/
def State.ptpDoms (s : State) (p num : Nat) : List Nat :=
  [0, 1].filter fun d => s.ptpNames p d && decide (s.fld (Reg.tsuDom d) 8 8 = num)

/-- The PTP port is a domain's upstream (R258, R263). -/
def State.ptpUp (s : State) (p d : Nat) : Bool :=
  decide (s.fld (Reg.tsuDom d) 16 5 = p) && decide (s.fld (Reg.tsuDom d) 21 3 = 2)

/-- The module has a domain's time to give: the domain is not UNLOCKED, or the module is its grandmaster. Conventions:
log 53. -/
def State.hasTime (s : State) (d : Nat) : Bool := decide (s.domState d ≠ 0) || s.gmSelf d

/-- The role of a port (R238): 0 any, 1 master only, 2 slave only; under profile 3 it is its externalPortConfiguration. -/
def PortTime.ptpRole (x : PortTime) : Nat := x.flags / 64 % 4

/-- The port sends one-step messages (R228, R238): not under profile 3. Conventions: log 53. -/
def PortTime.oneStep (x : PortTime) : Bool := x.flags.testBit 2 && decide (x.profile ≠ 3)

/-- Under profile 3 a port takes part while it is asCapable (R228). -/
def PortTime.takes (x : PortTime) : Bool := decide (x.profile ≠ 3) || x.capable

/-- The port follows a master. -/
def PtpState.follows (x : PtpState) : Bool := decide (x = .slave) || decide (x = .uncalibrated)

/-- A received Announce ranks ahead of what the module would announce for a domain (R229). Conventions: log 53. -/
def State.outranked (s : State) (p d : Nat) : Bool :=
  match (s.ptm p).announce with
  | none => false
  | some (m, _) =>
    decide (m.domain = s.fld (Reg.tsuDom d) 8 8) && lexLt (infoTuple m.info 0 0) (infoTuple (s.infoOf d) 0 0)

/-- The state of a port as the firmware decides it (R229): it follows where it is an upstream; it is a master where its role
allows it and the module has time to give, and passive where a better master speaks. Conventions: log 53. -/
def State.ptpTarget (s : State) (p : Nat) : PtpState :=
  let x := s.ptm p
  let up := [0, 1].filter fun d => s.ptpUp p d
  let own := [0, 1].filter fun d => s.ptpNames p d && s.hasTime d
  if x.profile = 0 ∨ 4 ≤ x.profile then .off
  else if !up.isEmpty then (if up.all fun d => decide (s.domState d = 0) then .uncalibrated else .slave)
  else if x.ptpRole = 2 ∨ own.isEmpty then .listening
  else if x.ptpRole = 0 ∧ own.all (s.outranked p) then .passive
  else .master

/-- The firmware's decision takes effect; a change raises source 140 (R237). -/
def State.ptpDecide (s : State) (p : Nat) : State :=
  if s.ptpTarget p = (s.ptm p).ptp then s else (s.onPtm p fun x => { x with ptp := s.ptpTarget p }).raiseAt 140 0 p

/-- The states of every port follow a change of upstream (R229). -/
def State.ptpDecideAll (s : State) : State := (List.range 28).foldl (fun t p => t.ptpDecide p) s

/-- An interval of 2^log s in ticks. -/
def logTicks (l : Int) : Nat := if 0 ≤ l then 2 ^ l.toNat * 1250000000 else 1250000000 / 2 ^ (-l).toNat

/-- The nominal interval of a PTP upstream, 2^logSync s, as a fraction (R212). -/
def ptpTs (l : Int) : Nat × Nat := if 0 ≤ l then (2 ^ l.toNat, 1) else (1, 2 ^ (-l).toNat)

/-- An interval has passed since the last sending of a kind for a domain (R229). -/
def intervalDue (last : List (Nat × Nat)) (d now l : Nat) : Bool :=
  match last.find? fun x => decide (x.1 = d) with
  | none => true
  | some x => decide (x.2 + l ≤ now)

/-- The last sending for a domain is noted. -/
def noteSent (last : List (Nat × Nat)) (d now : Nat) : List (Nat × Nat) := (d, now) :: last.filter fun x => decide (x.1 ≠ d)

/-! Messages as bytes. -/

/-- messageType. -/
def ptpCode : PtpKind → Nat
  | .sync => 0x0
  | .delayReq => 0x1
  | .pdelayReq => 0x2
  | .pdelayResp => 0x3
  | .followUp => 0x8
  | .delayResp => 0x9
  | .pdelayRespFollowUp => 0xA
  | .announce => 0xB
  | .other => 0xC
  | .management => 0xD

/-- controlField. -/
def ptpControl : PtpKind → Nat
  | .sync => 0
  | .delayReq => 1
  | .followUp => 2
  | .delayResp => 3
  | .management => 4
  | .pdelayReq | .pdelayResp | .pdelayRespFollowUp | .announce | .other => 5

/-- A peer delay message. -/
def ptpPeer : PtpKind → Bool
  | .pdelayReq | .pdelayResp | .pdelayRespFollowUp => true
  | .sync | .followUp | .delayReq | .delayResp | .announce | .management | .other => false

/-- What a message of the module's own says beside its source: domain number, sequence, twoStepFlag, the second octet of
flagField, correctionField in 2^-16 ns, logMessageInterval, and what follows the header. -/
structure PtpOut where
  kind  : PtpKind
  num   : Nat
  seq   : Nat
  two   : Bool := false
  flags : Nat := 0
  corr  : Int := 0
  log   : Int
  body  : List Byte
deriving DecidableEq, Repr

/-- The module's portIdentity on a port. -/
def State.portId (s : State) (p : Nat) : Nat := s.eui * 65536 + (p + 1)

/-- A message with its header. Conventions: log 53. -/
def State.ptpBytes (s : State) (p : Nat) (m : PtpOut) : List Byte :=
  let sdo := if (s.ptm p).profile = 3 then 0x10 else 0
  [BitVec.ofNat 8 (sdo + ptpCode m.kind), 0x12] ++ beBytes 2 (34 + m.body.length) ++ [BitVec.ofNat 8 m.num, 0]
    ++ [BitVec.ofNat 8 (b2n m.two * 2), BitVec.ofNat 8 m.flags] ++ corrBytes m.corr ++ beBytes 4 0 ++ beBytes 10 (s.portId p)
    ++ beBytes 2 m.seq ++ [BitVec.ofNat 8 (ptpControl m.kind), BitVec.ofInt 8 m.log] ++ m.body

/-- The one's complement of the one's-complement sum of 16-bit words. -/
def ipCheck (ws : List Nat) : Nat := 65535 - ws.foldl (fun a w => (a + w) % 65536 + (a + w) / 65536) 0

/-- A UDP datagram between the ports of a message; its checksum is 0, or over a pseudo-header where one is given. -/
def udpBytes (port : Nat) (pseudo : Option (List Byte)) (data : List Byte) : List Byte :=
  let n := 8 + data.length
  let head := beBytes 2 port ++ beBytes 2 port ++ beBytes 2 n
  match pseudo with
  | none => head ++ [0, 0] ++ data
  | some ps =>
    let c := ipCheck (words16 (ps ++ beBytes 4 n ++ beBytes 4 17 ++ head ++ [0, 0] ++ data ++ (if data.length % 2 = 1 then [0] else [])))
    head ++ beBytes 2 (if c = 0 then 65535 else c) ++ data

/-- The frame that carries a message over the port's transport (R228): over L2, IPv4 or IPv6, padded and with its FCS (R97).
Conventions: log 53. -/
def State.ptpWrap (s : State) (p : Nat) (kind : PtpKind) (m : List Byte) : List Byte :=
  let x := s.ptm p
  let src := beBytes 6 (Config.portMac p).toNat
  let port := if ptpCode kind < 4 then 319 else 320
  let b :=
    if x.profile = 3 ∨ x.flags / 16 % 4 = 0 then
      beBytes 6 (if ptpPeer kind ∨ x.profile = 3 then 0x0180C200000E else 0x011B19000000) ++ src ++ beBytes 2 0x88F7 ++ m
    else if x.flags / 16 % 4 = 1 then
      let u := udpBytes port none m
      let ip := fun (c : Nat) => [0x45, 0] ++ beBytes 2 (20 + u.length) ++ beBytes 4 0 ++ [1, 17] ++ beBytes 2 c
        ++ beBytes 4 (Config.portIp4 p).toNat ++ beBytes 4 (if ptpPeer kind then 0xE000006B else 0xE0000181)
      beBytes 6 (if ptpPeer kind then 0x01005E00006B else 0x01005E000181) ++ src ++ beBytes 2 0x0800
        ++ ip (ipCheck (words16 (ip 0))) ++ u
    else
      let adr := beBytes 16 (Config.portIp6 p).toNat
        ++ beBytes 16 (if ptpPeer kind then 0xFF02 * 2 ^ 112 + 0x6B else 0xFF0E * 2 ^ 112 + 0x181)
      let u := udpBytes port (some adr) (m ++ [0, 0])
      beBytes 6 (if ptpPeer kind then 0x33330000006B else 0x333300000181) ++ src ++ beBytes 2 0x86DD
        ++ beBytes 4 0x60000000 ++ beBytes 2 u.length ++ [17, 1] ++ adr ++ u
  withFcs (b ++ List.replicate (60 - b.length) 0)

/-- A message leaves MGMT for its port (R103, R116, R229). -/
def State.ptpSend (s : State) (p : Nat) (job : PtpJob) (m : PtpOut) : State :=
  (s.onPtm p fun x => { x with txCount := x.txCount + 1 }).mgtSend p none false job (s.ptpWrap p m.kind (s.ptpBytes p m))

/-- The next sequence of a kind and domain is taken. -/
def PortTime.nextSeq (x : PortTime) (kind : PtpKind) (d : Nat) : Nat := Tab.get (fun _ => 0) x.seqs (2 * ptpCode kind + d)
def State.takeSeq (s : State) (p : Nat) (kind : PtpKind) (d : Nat) : State :=
  s.onPtm p fun x => { x with seqs := Tab.set (fun _ => 0) x.seqs (2 * ptpCode kind + d) ((x.nextSeq kind d + 1) % 65536) }

/-- The Follow_Up information TLV of profile 3, its rates and phase changes 0. -/
def followUpTlv : List Byte := beBytes 2 3 ++ beBytes 2 28 ++ [0x00, 0x80, 0xC2, 0, 0, 1] ++ List.replicate 22 0

/-- An Announce for a domain, under profile 3 with the path trace TLV (R228). -/
def State.announceOf (s : State) (p d : Nat) : PtpOut :=
  let x := s.ptm p
  let i := s.infoOf d
  let path := (if s.fld (Reg.tsuDom d) 21 3 = 2 then match (s.ptm (s.fld (Reg.tsuDom d) 16 5)).announce with
      | some (m, _) => m.path
      | none => []
    else []) ++ [s.eui]
  { kind := .announce, num := i.domNum, seq := x.nextSeq .announce d, log := x.logAnnounce,
    flags := b2n i.leap61 + b2n i.leap59 * 2 + b2n i.utcValid * 4 + b2n i.ptpTimescale * 8 + b2n i.traceable * 16 + b2n i.freqTraceable * 32,
    body := beBytes 10 0 ++ beBytes 2 (i.utcOffset % 65536).toNat ++ [0] ++ beBytes 1 i.prio1 ++ beBytes 1 i.cls ++ beBytes 1 i.accuracy
      ++ beBytes 2 0xFFFF ++ beBytes 1 i.prio2 ++ beBytes 8 i.gmId ++ beBytes 2 i.steps ++ [0xA0]
      ++ (if x.profile = 3 then beBytes 2 8 ++ beBytes 2 (8 * path.length) ++ path.flatMap (beBytes 8) else []) }

/-! Received messages. -/

/-- The delay of the direction in which a port receives (R254): an F port in an STD mode has α and δ as its delayAsymmetry. -/
def State.ptpDelay (s : State) (p : Nat) : Int := if p < 16 then s.dIn p (2 * (s.ptm p).mpd) else (s.ptm p).mpd

/-- A Sync's origin time `t1` for arrival `stamp` in 1/256 tick: the offset drives the servo of a domain whose upstream the port
is (R212, R229). -/
def State.ptpSync (s : State) (p d : Nat) (t1 : Int) (stamp : Nat) : State :=
  let x := s.ptm p
  let here := (s.dm d).at stamp
  let ts := ptpTs x.logSync
  let t := s.onPtm p fun y => { y with syncT := some (here - t1, stamp) }
  if s.ptpUp p d && !s.gmSelf d then t.measure d (here - t1 - s.ptpDelay p) (t1 + s.ptpDelay p) stamp ts.1 ts.2 else t

/-- An Announce (R229): it is the firmware's. The module's own, and under profile 3 one that came past the module, are
dropped; a domain whose upstream the port is follows at once (R235). -/
def State.ptpAnnounce (s : State) (p : Nat) (m : PtpMsg) : State :=
  let doms := s.ptpDoms p m.domain
  if !s.fwOn || doms.isEmpty || decide (m.parent / 65536 = s.eui) then s
  else if !(s.ptm p).takes || (decide ((s.ptm p).profile = 3) && m.path.contains s.eui) then s
  else
    doms.foldl (fun t d => if t.ptpUp p d && !t.gmSelf d then t.follow d { m.info with steps := m.info.steps + 1 } else t)
      (s.onPtm p fun y => { y with announce := some (m, s.now) })

/-- The answer to a Delay_Req (R229): the time it came, in a domain the port names. -/
def State.delayAnswer (s : State) (p d : Nat) (m : PtpMsg) : State :=
  let t := (s.dm d).at m.stamp
  s.ptpSend p .none
    { kind := .delayResp, num := m.domain, seq := m.seq, log := (s.ptm p).logDelay, corr := m.corr / 65536 - ptpFrac t,
      body := ptpStamp t ++ beBytes 10 m.parent }

/-- The answer to a Pdelay_Req (R229, R231): one-step it takes the turnaround as it leaves; two-step it carries the time the
request came, and its follow-up waits for its departure. -/
def State.pdelayAnswer (s : State) (p d : Nat) (m : PtpMsg) : State :=
  let x := s.ptm p
  let t := (s.dm d).at m.stamp
  s.ptpSend p (.pdResp m)
    { kind := .pdelayResp, num := m.domain, seq := m.seq, log := 0x7F, two := !x.oneStep,
      corr := if x.oneStep then m.corr / 65536 else if x.profile = 3 then ptpFrac t else -ptpFrac t,
      body := (if x.oneStep then beBytes 10 0 else ptpStamp t) ++ beBytes 10 m.parent }

/-- neighborRateRatio - 1 in 2^-40 from two peer delay exchanges (R228): `dn` of the neighbour's time in 2^-32 ns passed while
`dt` of 1/256 tick passed here. -/
def rateRatio (dn dt : Int) : Int :=
  let own := dt * 4 * 2 ^ 32 / (5 * 256)
  if own ≤ 0 then 0 else roundDiv ((dn - own) * 2 ^ 40) own

/-- A peer delay exchange is complete (R228, R229): `turn` is the neighbour's turnaround in 2^-32 ns, `t3` its departure where it
is known. asCapable follows the delay. Conventions: log 53. -/
def State.pdelayDone (s : State) (p : Nat) (t1 t4 : Nat) (turn : Int) (t3 : Option Int) : State :=
  s.onPtm p fun x =>
    let r := match t3, x.pdLast with
      | some t, some (t0, r0) => if x.profile = 3 then rateRatio (t - t0) ((t4 : Int) - r0) else 0
      | _, _ => x.nbrRate
    let trip : Int := ((t4 : Int) - t1) * 4 * 2 ^ 32 * (2 ^ 40 + r) / (5 * 256 * 2 ^ 40)
    let d := (trip - turn) / 2
    { x with mpd := d, delayTx := none, pdResp := none, nbrRate := r, pdLast := t3.map fun t => (t, t4), unans := 0,
             capable := decide (d ≤ 800 * 2 ^ 32) }

/-- A message that ends at the port (R228, R229); `m.stamp` is its instant at the reference plane. Conventions: log 53. -/
def State.ptpTake (s : State) (p : Nat) (m : PtpMsg) : State :=
  let x := s.ptm p
  let doms := s.ptpDoms p m.domain
  let peer : Bool := decide (x.profile = 2 ∨ x.profile = 3)
  let here : Bool := decide (m.to_ = s.portId p)
  match m.kind with
  | .management => s.count Reg.tsuPtpDiscard 143
  | .announce => s.ptpAnnounce p m
  | .sync =>
    if !x.ptp.follows || !x.takes then s
    else if m.twoStep then s.onPtm p fun y => { y with sync := some (m.seq, m.stamp, m.corr) }
    else doms.foldl (fun u d => u.ptpSync p d (m.time + m.corr) m.stamp) s
  | .followUp =>
    match x.sync with
    | some (q, st, c) =>
      if x.ptp.follows && x.takes && decide (q = m.seq) then
        (doms.foldl (fun u d => u.ptpSync p d (m.time + m.corr + c) st) s).onPtm p fun y => { y with sync := none }
      else s
    | none => s
  | .delayReq =>
    match doms with
    | d :: _ => if x.profile = 1 ∧ x.ptp = .master then s.delayAnswer p d m else s
    | [] => s
  | .pdelayReq => if peer then s.pdelayAnswer p ((doms ++ [0, 1].filter (s.ptpNames p)).headD 0) m else s
  | .delayResp =>
    match x.delayTx, x.syncT, doms with
    | some (q, st), some (ms, _), d :: _ =>
      if x.profile = 1 ∧ x.ptp.follows ∧ here ∧ q = m.seq then
        s.onPtm p fun y => { y with mpd := (ms + (m.time - m.corr - (s.dm d).at st)) / 2, delayTx := none }
      else s
    | _, _, _ => s
  | .pdelayResp =>
    match x.delayTx with
    | some (q, st) =>
      if peer && here && decide (q = m.seq) then
        (if m.twoStep then s.onPtm p fun y => { y with pdResp := some (q, m.stamp, if x.profile = 3 then m.time + m.corr else m.time - m.corr) }
         else s.pdelayDone p st m.stamp m.corr none)
      else s
    | none => s
  | .pdelayRespFollowUp =>
    match x.delayTx, x.pdResp with
    | some (_, st), some (q, t4, t2) =>
      if peer && here && decide (q = m.seq) then s.pdelayDone p st t4 (m.time + m.corr - t2) (some (m.time + m.corr)) else s
    | _, _ => s
  | .other => s

/-! Messages sent at their intervals (R229). -/

/-- Sync of a master for a domain: one-step, its times are written as it leaves (R231). -/
def State.sendSync (s : State) (p d : Nat) : State :=
  let x := s.ptm p
  if x.ptp = .master ∧ s.hasTime d ∧ x.takes ∧ intervalDue x.syncAt d s.now (logTicks x.logSync) then
    let q := x.nextSeq .sync d
    ((s.takeSeq p .sync d).onPtm p fun y => { y with syncAt := noteSent y.syncAt d s.now }).ptpSend p (.sync d q)
      { kind := .sync, num := s.fld (Reg.tsuDom d) 8 8, seq := q, two := !x.oneStep, log := x.logSync, body := beBytes 10 0 }
  else s

/-- The Follow_Up of a Sync that has left. -/
def State.sendFollowUp (s : State) (p d : Nat) : State :=
  let x := s.ptm p
  match x.fuSync.find? fun w => decide (w.1 = d) with
  | none => s
  | some w =>
    let t := (s.dm d).at w.2.2
    (s.onPtm p fun y => { y with fuSync := y.fuSync.erase w }).ptpSend p .none
      { kind := .followUp, num := s.fld (Reg.tsuDom d) 8 8, seq := w.2.1, corr := ptpFrac t, log := x.logSync,
        body := ptpStamp t ++ (if x.profile = 3 then followUpTlv else []) }

/-- Delay_Req of a port that follows, under profile 1. -/
def State.sendDelayReq (s : State) (p d : Nat) : State :=
  let x := s.ptm p
  let due : Bool := match x.reqTxAt with
    | none => true
    | some r => decide (r + logTicks x.logDelay ≤ s.now)
  if x.profile = 1 ∧ x.ptp.follows ∧ s.ptpUp p d ∧ due then
    let q := x.nextSeq .delayReq d
    ((s.takeSeq p .delayReq d).onPtm p fun y => { y with reqTxAt := some s.now, delayTx := none }).ptpSend p (.request q)
      { kind := .delayReq, num := s.fld (Reg.tsuDom d) 8 8, seq := q, log := 0x7F, body := beBytes 10 0 }
  else s

/-- Pdelay_Req under profiles 2 and 3; after nine requests in a row without an answer the port is asCapable no more. -/
def State.sendPdelayReq (s : State) (p d : Nat) : State :=
  let x := s.ptm p
  let due : Bool := match x.reqTxAt with
    | none => true
    | some r => decide (r + logTicks x.logDelay ≤ s.now)
  if (x.profile = 2 ∨ x.profile = 3) ∧ due then
    let q := x.nextSeq .pdelayReq 0
    ((s.takeSeq p .pdelayReq 0).onPtm p fun y =>
      { y with reqTxAt := some s.now, delayTx := none, pdResp := none, unans := y.unans + 1, capable := y.capable && decide (y.unans < 9) }).ptpSend
      p (.request q)
      { kind := .pdelayReq, num := if x.profile = 3 then 0 else s.fld (Reg.tsuDom d) 8 8, seq := q, log := x.logDelay, body := beBytes 20 0 }
  else s

/-- The follow-up of a two-step Pdelay_Resp that has left. -/
def State.sendPdelayFollowUp (s : State) (p d : Nat) : State :=
  match (s.ptm p).fuPd with
  | [] => s
  | (m, ts) :: rest =>
    let t := (s.dm d).at ts
    (s.onPtm p fun y => { y with fuPd := rest }).ptpSend p .none
      { kind := .pdelayRespFollowUp, num := m.domain, seq := m.seq, corr := m.corr / 65536 + ptpFrac t, log := 0x7F,
        body := ptpStamp t ++ beBytes 10 m.parent }

end Sys2Proof.Machine
end

