-- ==== Sys2Proof/Machine/Time.lean ====
section
/-! DEFINITION. The time commands (R238, R264), the events of the time scale (R216 to R227, R235), of time
transfer (R241 to R249, R257 to R260, R266) and of PTP (R228, R229, R237). -/

namespace Sys2Proof.Machine

open Host

/-! Commands of group 0x04. -/

/-- TIME_GET (R238). -/
def execTimeGet (h : CmdHdr) (s : State) : Outcome State Fault Refusal :=
  s.cmd h 0x0401 (fun _ => { role := .any }) fun t =>
    .done ([t.now, t.netTime.1, t.netTime.2.1, t.netTime.2.2, t.snapFlags]
      ++ [(t.rd (Reg.tsuDom 0)).toNat, (t.rd (Reg.tsuDom 1)).toNat, (t.rd (Reg.tsuOffset 0)).toNat, (t.rd (Reg.tsuOffset 1)).toNat,
          t.epoch, t.uptime, t.bridgeWord]) t

/-- The domain returns to UNLOCKED and loses its grandmaster attributes; a switch armed towards it is
cancelled (R221). -/
def State.domReset (s : State) (d : Nat) : State :=
  let t := (s.setDomState d 0).onDm d fun x => { x with stepAt := s.now, hist := [] }
  let t := (t.setGmId d 0).wr (Reg.tsuGmQ d) 0xFEFF
  let t := (t.setTrace d false false false).wr (Reg.tsuUtc d) 0
  match t.tim.armed with
  | none => t
  | some a => if a.dom = d then t.cancelSwitch 4 else t

/-- TIME_DOM_SET (R238). -/
def execTimeDomSet (h : CmdHdr) (dom number profile : Nat) (s : State) : Outcome State Fault Refusal :=
  s.cmd h 0x0402
    (fun _ => { gone := firstBad [(0, decide (dom < 2))], reins := [13],
                bad := firstBad [(1, decide (number < 256)), (2, decide (profile < 3))] })
    fun t =>
      let renum : Bool := decide (t.fld (Reg.tsuDom dom) 8 8 ≠ number)
      if renum && decide (dom = t.tim.active) then .refuse St.state []
      else
        let bw := if profile = 0 then 2 else if profile = 1 then 0 else 5
        let u := t.setFld (Reg.tsuServo dom) 0 4 bw
        .done [] (if renum then (u.domReset dom).setFld (Reg.tsuDom dom) 8 8 number else u)

/-- TIME_CONVERT (R215): for each raw time T_A, T_B and the output time, each with its flag. -/
def execTimeConvert (h : CmdHdr) (raws : List Raw) (s : State) : Outcome State Fault Refusal :=
  s.cmd h 0x0403 (fun _ => { role := .any, bad := firstBad [(0, decide (1 ≤ raws.length ∧ raws.length ≤ 16))] }) fun t =>
    .done (raws.flatMap fun r =>
      let a := t.domAt 0 r.toNat
      let b := t.domAt 1 r.toNat
      let o := t.outputAt r.toNat
      ptpFields a.1 ++ [a.2] ++ ptpFields b.1 ++ [b.2] ++ ptpFields o.1 ++ [o.2]) t

/-- A signed value in a range. -/
def inRange (lo hi v : Int) : Bool := decide (lo ≤ v) && decide (v ≤ hi)

/-- TIME_PORT_SET (R228, R238). -/
def execTimePortSet (h : CmdHdr) (port profile flags : Nat) (logSync logAnnounce logDelay : Int) (announceTmo : Nat) (s : State) :
    Outcome State Fault Refusal :=
  s.cmd h 0x0404
    (fun t => { gone := firstBad [(0, decide (port < 28) && t.exists port)], owned := [(0, port)], reins := [13, portRein port],
                bad := firstBad
                  [(1, decide (profile < 5) && !(decide (24 ≤ port) && decide (profile = 2 ∨ profile = 3))
                    && !(decide (profile = 4) && decide (4 ≤ (t.owner 0 port).getD 0))),
                   (2, decide (flags < 256) && !(decide (24 ≤ port) && (flags.testBit 2 || flags.testBit 3)) && decide (flags / 16 % 4 < 3)
                    && decide (flags / 64 < 3) && !(decide (1 ≤ profile ∧ profile ≤ 3) && decide (flags % 4 = 0))),
                   (3, inRange (if 24 ≤ port then -3 else -7) 1 logSync), (4, inRange (-3) 4 logAnnounce), (5, inRange (-4) 5 logDelay),
                   (6, decide (2 ≤ announceTmo ∧ announceTmo ≤ 10))] })
    fun t =>
      let st : PtpState := if 1 ≤ profile ∧ profile ≤ 3 then .listening else .off
      if 1 ≤ profile ∧ t.native port then .refuse St.state []
      else .done [] ((t.onPtm port fun x =>
        { x with profile := profile, flags := flags, logSync := logSync, logAnnounce := logAnnounce, logDelay := logDelay,
                 announceTmo := announceTmo, ptp := st, announce := none, capable := false, fuSync := [], fuPd := [] }).raiseIf
          (decide ((t.ptm port).ptp ≠ st)) 140)

/-- A PTP port state as a number: portState of IEEE 1588 (PRESUMED, log 53). -/
def PtpState.num : PtpState → Nat
  | .off => 3
  | .listening => 4
  | .master => 6
  | .passive => 7
  | .uncalibrated => 8
  | .slave => 9

/-- TIME_PORT_GET (R238). -/
def execTimePortGet (h : CmdHdr) (port : Nat) (s : State) : Outcome State Fault Refusal :=
  s.cmd h 0x0405
    (fun t => { role := .any, gone := firstBad [(0, decide (port < 28) && t.exists port)], owned := [(0, port)] })
    fun t =>
      let x := t.ptm port
      .done [x.ptp.num, (x.announce.map fun a => a.1.parent).getD 0, (BitVec.ofInt 64 x.mpd).toNat, x.rxCount, x.txCount] t

/-- A switch armed for a whole second of O, or for the next tick (R225). -/
def State.armSwitch (s : State) (sec : Option Nat) (force : Bool) : CmdEnd :=
  let unlocked : Bool := decide (s.domState s.tim.active = 0)
  if s.tim.armed.isSome || (unlocked && sec.isSome) then .refuse St.state []
  else
    .accepted 0 [] { s with tim := { s.tim with armed := some { dom := 1 - s.tim.active, sec := sec.getD 0, force := force } } }

/-- The start second lies at least 10 ms and at most 400 s ahead (R225). -/
def State.switchSecOk (s : State) (sec : Option Nat) : Bool :=
  match sec with
  | none => true
  | some v =>
    if s.domState s.tim.active = 0 then true
    else
      let o := s.outAt (s.now * 256)
      let t : Int := v * 1000000000 * 2 ^ 32
      decide (o + 10000000 * 2 ^ 32 ≤ t) && decide (t ≤ o + 400000000000 * 2 ^ 32)

/-- TIME_SWITCH (R224, R225). -/
def execTimeSwitch (h : CmdHdr) (atSec : Option Nat) (s : State) : Outcome State Fault Refusal :=
  s.cmd h 0x0410 (fun t => { reins := [13], bad := firstBad [(0, t.switchSecOk atSec)] }) fun t => t.armSwitch atSec false

/-- TIME_SWITCH_FORCE (R224). -/
def execTimeSwitchForce (h : CmdHdr) (atSec : Option Nat) (s : State) : Outcome State Fault Refusal :=
  s.cmd h 0x0490 (fun t => { reins := [13], bad := firstBad [(0, t.switchSecOk atSec)] }) fun t => t.armSwitch atSec true

/-- TIME_SWITCH_CANCEL (R225). -/
def execTimeSwitchCancel (h : CmdHdr) (s : State) : Outcome State Fault Refusal :=
  s.cmd h 0x0411 (fun _ => { reins := [13] }) fun t =>
    if t.tim.armed.isSome then .done [] (t.cancelSwitch 2) else .refuse St.state []

/-- TIME_DOM_RESET (R221). -/
def execTimeDomReset (h : CmdHdr) (dom : Nat) (s : State) : Outcome State Fault Refusal :=
  s.cmd h 0x0412 (fun _ => { gone := firstBad [(0, decide (dom < 2))], reins := [13] }) fun t =>
    if dom = t.tim.active then .refuse St.state [] else .done [] (t.domReset dom)

/-- TIME_EXPERT_SET (R238): the registers it names take the values. -/
def execTimeExpertSet (h : CmdHdr) (slew limit servoA servoB lockA lockB : Word) (traceHold : Nat) (s : State) :
    Outcome State Fault Refusal :=
  s.cmd h 0x0481
    (fun _ => { reins := [13],
                bad := firstBad [(0, decide (1 ≤ slew.toNat ∧ slew.toNat ≤ 100000)), (2, decide (getFld servoA 0 4 ≤ 10)),
                                 (3, decide (getFld servoB 0 4 ≤ 10)), (6, decide (traceHold < 65536))] })
    fun t =>
      .done [] (((((((t.setFld Reg.tsuSlewMax 0 17 slew.toNat).wr Reg.tsuSwitchLimit limit).wr (Reg.tsuServo 0) servoA).wr
        (Reg.tsuServo 1) servoB).wr (Reg.tsuLockcfg 0) lockA).wr (Reg.tsuLockcfg 1) lockB).setFld Reg.tsuCtrl 0 16 traceHold)

/-- TIME_EPOCH_RESET (R219). -/
def execTimeEpochReset (h : CmdHdr) (s : State) : Outcome State Fault Refusal :=
  s.cmd h 0x0491 (fun _ => { role := .prin, reins := [13] }) fun t => .done [] t.epochReset

/-- The checks of the time-transfer commands that name a port (R264). -/
def State.linkNeed (s : State) (port : Nat) (reins : List Nat) (bad : Option Nat) : Need :=
  { gone := firstBad [(0, decide (port < 24) && s.exists port)], owned := [(0, port)], reins := reins, bad := bad }

/-- TIME_LINK_SET (R264). -/
def execTimeLinkSet (h : CmdHdr) (port profile : Nat) (fast noUpstream : Bool) (s : State) : Outcome State Fault Refusal :=
  s.cmd h 0x0420 (fun t => t.linkNeed port [13] (firstBad [(1, decide (profile < 2))])) fun t =>
    if !t.native port then .refuse St.state []
    else
      let a : Word := if port < 16 ∧ profile = 0 then 0x001A36E3 else 0
      let u := ((t.wr (Reg.ttAlpha port) a).wr (Reg.ttAsym port) 0).clearHist port
      .done [] ((u.setFld (Reg.ttCtrl port) 1 1 (b2n fast)).setFld (Reg.ttCtrl port) 2 1 (b2n noUpstream))

/-- TIME_LINK_GET (R264): the port's PORT_TT registers and the fit slope. -/
def execTimeLinkGet (h : CmdHdr) (port : Nat) (s : State) : Outcome State Fault Refusal :=
  s.cmd h 0x0421 (fun t => { t.linkNeed port [] none with role := .any }) fun t =>
    if !t.native port then .refuse St.state []
    else .done ([Reg.ttCtrl port, Reg.ttStat port, Reg.ttAlpha port, Reg.ttAsym port, Reg.ttRtd port, Reg.ttDin port, Reg.ttTheta port 0,
        Reg.ttTheta port 1, Reg.ttTavg port 0, Reg.ttTavg port 1, Reg.ttNrr port, Reg.ttPhase port, Reg.ttTxdly port, Reg.ttRxdly port,
        Reg.ttReqTx port, Reg.ttRespOk port, Reg.ttLost port, Reg.ttReject port].map (fun a => (if a = Reg.ttStat port then t.ttWord port else t.rd a).toNat)
        ++ [(BitVec.ofInt 32 (Config.measured t.freeCtr)).toNat]) t.drawn

/-- TIME_GM_SET (R260, R264): a candidacy withdrawn by the grandmaster leaves the domain to R258. Conventions: log 17. -/
def execTimeGmSet (h : CmdHdr) (dom flags prio1 prio2 cls accuracy : Nat) (utcOffset : Int) (initSec initNs : Nat) (initGiven : Bool)
    (s : State) : Outcome State Fault Refusal :=
  s.cmd h 0x0422
    (fun _ => { gone := firstBad [(0, decide (dom < 2))], reins := [13],
                bad := firstBad [(1, decide (flags < 256)), (2, decide (prio1 < 256)), (3, decide (prio2 < 256)), (4, decide (cls < 256)),
                                 (5, decide (accuracy < 256)), (6, inRange (-32768) 32767 utcOffset),
                                 (7, !initGiven || decide (initSec < 2 ^ 48)), (8, !initGiven || decide (initNs < 1000000000))] })
    fun t =>
      let g : GmSet := { flags := flags, prio1 := prio1, prio2 := prio2, cls := cls, accuracy := accuracy, utc := utcOffset,
                         init := if initGiven then some (initSec, initNs) else none }
      let u := t.onDm dom fun x => { x with gm := g }
      .done [] (if u.gmSelf dom then
          if flags % 2 = 1 then u.beGm dom
          else match best (u.candidates dom) with
            | some w => (u.setFld (Reg.tsuDom dom) 6 1 0).choose dom w.1
            | none => (u.setFld (Reg.tsuDom dom) 6 1 0).loseUpstream dom
        else u)

/-- TIME_LINK_EXPERT_SET (R264): STD ports are accepted. -/
def execTimeLinkExpertSet (h : CmdHdr) (port : Nat) (alpha delta : Int) (en : Bool) (s : State) : Outcome State Fault Refusal :=
  s.cmd h 0x0482
    (fun t => t.linkNeed port [13] (firstBad
      [(1, inRange (-4294967) 4294967 alpha && (decide (port < 16) || decide (alpha = 0))), (2, inRange (-16000000) 16000000 delta)]))
    fun t =>
      .done [] ((((t.wr (Reg.ttAlpha port) (BitVec.ofInt 32 alpha)).wr (Reg.ttAsym port) (BitVec.ofInt 32 delta)).clearHist port).setFld
        (Reg.ttCtrl port) 0 1 (b2n en))

/-! The domains. -/

/-- FIRST_LOCK_TIMEOUT (R216): 120 s without LOCKED. -/
def execFirstLockTimeout (dom : Nat) (s : State) : Outcome State Fault Refusal :=
  onUnit 2 dom (s.event fun t =>
    if t.domState dom = 1 ∧ (t.dm dom).lockAt + 150000000000 ≤ t.now then t.setDomState dom 0 else t)

/-- TRACE_HOLD_EXPIRY (R235): traceability clears after trace_hold seconds of holdover. -/
def execTraceHoldExpiry (dom : Nat) (s : State) : Outcome State Fault Refusal :=
  onUnit 2 dom (s.event fun t =>
    if t.bitAt (Reg.tsuDom dom) 2 && decide ((t.dm dom).holdAt + t.fld Reg.tsuCtrl 0 16 * 1000000000 ≤ t.uptime) then
      t.setTrace dom false false (t.bitAt (Reg.tsuDom dom) 5)
    else t)

/-- TIME_SWITCH_START (R224, R225): the armed switch starts when O reaches its second, or at once. -/
def execTimeSwitchStart (s : State) : Outcome State Fault Refusal :=
  .next (s.event fun t => match t.tim.armed with
    | none => t
    | some a =>
      if a.sec ≤ t.netTime.1 ∨ t.domState t.tim.active = 0 then
        match t.switchTo a.dom a.force with
        | some u => u.completeSwitch St.ok []
        | none => ((({ t with tim := { t.tim with armed := none } } : State).stick Reg.tsuState 8).raise 130).completeSwitch St.state [1]
      else t)

/-- SLEW_END (R224): the bridge stands at 0. The bridge falls as ticks pass (`State.slewTick`), and by no more.
Conventions: log 16. -/
def execSlewEnd (s : State) : Outcome State Fault Refusal :=
  .next (s.event fun t => if t.tim.slewing && decide (t.tim.bridge = 0) then t.slewDone else t)

/-- PPS_ALIGN_MEASURE (R260): the offset of T_x at a PPS_IN edge (raw time in 1/256 tick) from the nearest
whole second. At the single step the next edge falls on a whole second. -/
def execPpsAlignMeasure (dom : Nat) (edge : Nat) (s : State) : Outcome State Fault Refusal :=
  onUnit 2 dom (s.event fun t =>
    if t.gmSelf dom && (t.dm dom).gm.flags.testBit 4 && t.bitAt (Reg.clkRefStat 5) 1 then
      let sec : Int := 1000000000 * 2 ^ 32
      let v := (t.dm dom).at edge
      let theta := v - roundDiv v sec * sec
      if t.domState dom = 0 then t.beGm dom
      else t.measure dom theta (roundDiv v sec * sec) edge 1 1
    else t)

/-! The exchange (R241 to R249). -/

/-- A received TIME message of a kind (R243, R247): one that fails R51, or is of the kind 0b11, is counted in
PORT_HALTER_DISCARD; another acts while the port takes part (R241). -/
def State.timeMsg (s : State) (p kind : Nat) (ws : List Nat) (f : State → State) : State :=
  if !(s.native p && (s.pt p).up) then s
  else if timeOk kind ws then (if s.takesPart p then f s else s)
  else if msgOk ws && decide (ws.getD 0 0 / 8192 % 4 ≠ kind) && decide (ws.getD 0 0 / 8192 % 4 < 3) then s
  else s.countP (Reg.portHalterDiscard p) p

/-- TIME_REQ_SEND (R241, R242, R245): when the interval has passed and R45 allows it; t1 is the timing point at the reference
plane. A REQ whose RESP never came counts. -/
def execTimeReqSend (port at_ : Nat) (s : State) : Outcome State Fault Refusal :=
  onUnit 24 port (s.event fun t =>
    let x := t.ptm port
    let due : Bool := match x.reqAt with
      | none => true
      | some r => decide (r + t.reqEvery port ≤ t.now)
    if t.takesPart port && due && t.mayMessage port 14 then
      let u := if x.waiting then t.count (Reg.ttLost port) (64 + port) else t
      let t1 := stampFine (t.txPlane port at_)
      let u := u.onPtm port fun y => { y with reqSeq := (y.reqSeq + 1) % 256, t1 := t1, waiting := true, reqAt := some t.now }
      (u.count (Reg.ttReqTx port) (64 + port)).sendMsg port 0x08
        (withMsgCrc (reqWords ((x.reqSeq + 1) % 256) (t.fineOn port) t1))
    else t)

/-- The RESP to a REQ (R243, R244), from its times in 2^-16 tick. -/
def State.respTo (s : State) (p echo : Nat) (t2 t3 : Int) : RespMsg :=
  let dom := fun d => respDom (s.carries p d && (decide (s.domState d = 2) || s.gmSelf d)) ((s.dm d).atFine t3)
  { echo := echo, fine := s.fineOn p, t2 := BitVec.ofNat 64 (t2.toNat / 65536), t2f := t2.toNat % 65536,
    t3 := BitVec.ofNat 64 (t3.toNat / 65536), t3f := t3.toNat % 65536, a := dom 0, b := dom 1 }

/-- TIME_REQ_RECEIVE (R242 to R244): a REQ is answered with a RESP whose timing point lies at most 20 us after; one that
would lie later, or that R45 holds back, is withdrawn. -/
def execTimeReqReceive (port : Nat) (words : List Nat) (t2 : RxStamp) (t3 : Nat) (s : State) : Outcome State Fault Refusal :=
  onUnit 24 port (s.event fun t => t.timeMsg port 0 words fun t =>
    let a2 := stampFine (t.rxPlane port t2)
    let a3 := stampFine (t.txPlane port t3)
    if 0 ≤ a3 - a2 ∧ a3 - a2 ≤ 25000 * 65536 ∧ t.mayMessageIn port 24 (t3 / 256 - t.now) then
      let m := t.respTo port (words.getD 1 0 % 256) a2 a3
      ((t.notePhase port t2).onPtm port fun x => { x with resp := some m }).sendMsg port 0x08 (withMsgCrc (respWords m))
    else t.notePhase port t2)

/-- TIME_RESP_RECEIVE (R245): accepted when its echo is the last REQ's and t4 - t1 is at most 300 us. -/
def execTimeRespReceive (port : Nat) (words : List Nat) (t4 : RxStamp) (s : State) : Outcome State Fault Refusal :=
  onUnit 24 port (s.event fun t => t.timeMsg port 1 words fun t =>
    let x := t.ptm port
    let at4 := stampFine (t.rxPlane port t4)
    let m := respOf words
    if x.waiting && decide (m.echo = x.reqSeq) && decide (at4 - x.t1 ≤ 375000 * 65536) then (t.notePhase port t4).exchange port m at4
    else t.notePhase port t4)

/-- EXCHANGE_LOST (R266): no accepted exchange for 1 s at 16 a second, or 3 s at 1 a second. -/
def execExchangeLost (port : Nat) (s : State) : Outcome State Fault Refusal :=
  onUnit 24 port (s.event fun t =>
    let limit := if t.fastReq port then 1250000000 else 3750000000
    match (t.ptm port).exchAt with
    | none => t
    | some r =>
      if t.takesPart port && decide (r + limit ≤ t.now) then
        let u := (t.stick (Reg.ttStat port) 8).onPtm port fun x => { x with exchAt := none }
        (u.raiseAt (64 + port) (u.rd (Reg.ttStat port)) port).dropUpstream port
      else t)

/-- The INFO last sent for a domain. -/
def PortTime.sentInfo (x : PortTime) (d : Nat) : Option (InfoMsg × Nat) := if d = 0 then x.sentA else x.sentB

/-- INFO_SEND (R247): once a second and after a change; nothing is sent for a domain that is UNLOCKED and not the module's
own. -/
def execInfoSend (port dom : Nat) (s : State) : Outcome State Fault Refusal :=
  onUnit 24 port (onUnitS 2 dom (s.event fun t =>
    let m := t.infoOf dom
    let due : Bool := match (t.ptm port).sentInfo dom with
      | none => true
      | some (o, r) => decide (o ≠ m) || decide (r + 1250000000 ≤ t.now)
    if t.carries port dom && (decide (t.domState dom ≠ 0) || t.gmSelf dom) && due && t.mayMessage port 14 then
      (t.onPtm port fun x => if dom = 0 then { x with sentA := some (m, t.now) } else { x with sentB := some (m, t.now) }).sendMsg
        port 0x08 (withMsgCrc (infoWords m))
    else t) s)

/-- INFO_RECEIVE (R247): the partner's INFO of a domain is held; that of the upstream is followed. -/
def execInfoReceive (port : Nat) (words : List Nat) (s : State) : Outcome State Fault Refusal :=
  onUnit 24 port (s.event fun t => t.timeMsg port 2 words fun t =>
    let msg := infoMsgOf words
    let d := msg.which % 2
    if t.carries port d then
      let u := t.onPtm port fun x => if d = 0 then { x with infoA := some (msg, t.now) } else { x with infoB := some (msg, t.now) }
      if u.isUp port d then
        let v := u.follow d { msg with steps := msg.steps + 1 }
        if msg.locked && !msg.holdover then v else v.loseUpstream d
      else u
    else t)

/-- INFO_VOID (R247): not renewed within 3 s. -/
def execInfoVoid (port dom : Nat) (s : State) : Outcome State Fault Refusal :=
  onUnit 24 port (onUnitS 2 dom (s.event fun t => match (t.ptm port).info dom with
    | none => t
    | some (_, r) =>
      if r + 3750000000 ≤ t.now then
        let u := t.onPtm port fun x => if dom = 0 then { x with infoA := none } else { x with infoB := none }
        if u.isUp port dom then u.loseUpstream dom else u
      else t) s)

/-- The choice among the candidates (R258, R259): with no upstream, or with the same grandmaster, the winner takes its place;
a different grandmaster first has to stand for 3 s. A module that is the domain's grandmaster steps an UNLOCKED domain again
(R217, R219, R260). -/
def State.selectUpstream (s : State) (dom : Nat) : State :=
  match best (s.candidates dom) with
  | none => if (s.following dom).isSome then s.loseUpstream dom else s
  | some w =>
    let gm := w.2.getD 4 0
    let still : Bool := match s.following dom with
      | none => false
      | some p => (s.candidates dom).any fun c => c.1 == p
    if s.following dom = some w.1 then
      let t := s.onDm dom fun x => { x with rival := none }
      if w.1 = 31 ∧ t.domState dom = 0 then t.beGm dom else t
    else if !still || decide (s.fld (Reg.tsuGmIdLo dom) 0 32 + s.fld (Reg.tsuGmIdHi dom) 0 32 * 2 ^ 32 = gm) then s.choose dom w.1
    else match (s.dm dom).rival with
      | some (g, _) => if g = gm then s else s.onDm dom fun x => { x with rival := some (gm, s.now) }
      | none => s.onDm dom fun x => { x with rival := some (gm, s.now) }

/-- UPSTREAM_SELECT (R258, R259): the firmware compares the candidates, and the states of the PTP ports follow (R229). -/
def execUpstreamSelect (dom : Nat) (s : State) : Outcome State Fault Refusal :=
  onUnit 2 dom (if !s.fwOn then s else (s.selectUpstream dom).ptpDecideAll)

/-- UPSTREAM_CHANGE (R259): the rival grandmaster has stood for 3 s and still wins. -/
def execUpstreamChange (dom : Nat) (s : State) : Outcome State Fault Refusal :=
  onUnit 2 dom (if !s.fwOn then s else
    match (s.dm dom).rival, best (s.candidates dom) with
    | some (g, r), some w => if g = w.2.getD 4 0 ∧ r + 3750000000 ≤ s.now then (s.choose dom w.1).ptpDecideAll else s
    | _, _ => s)

/-- VERNIER_FIT_LOSS (R249, R266). -/
def execVernierFitLoss (port : Nat) (s : State) : Outcome State Fault Refusal :=
  onUnit 24 port (s.event fun t =>
    if t.native port && t.bitAt (Reg.ttStat port) 0 then
      let u := (t.setFld (Reg.ttStat port) 0 1 0).stick (Reg.ttStat port) 11
      u.raiseAt (64 + port) (u.rd (Reg.ttStat port)) port
    else t)

/-- FINE_VALID_RETURN (R249): a full window lies within the limit. -/
def execFineValidReturn (port : Nat) (s : State) : Outcome State Fault Refusal :=
  onUnit 24 port (s.event fun t => if t.native port && (t.pt port).up then t.setFld (Reg.ttStat port) 0 1 1 else t)

/-! PTP on STD and M ports (R228, R229). -/

/-- PTP_MESSAGE_RECEIVE (R228 to R230): its instant is converted to the reference plane. Under profiles 0 and 4 the port
terminates no PTP. Conventions: log 53. -/
def execPtpMessageReceive (port : Nat) (msg : PtpMsg) (s : State) : Outcome State Fault Refusal :=
  onUnit 28 port (s.event fun t =>
    if t.ptpOn port then
      (t.onPtm port fun y => { y with rxCount := y.rxCount + 1 }).ptpTake port
        { msg with stamp := stamp256 (t.rxPlane port { at_ := msg.stamp }) }
    else t)

/-- PTP_INTERVAL_SEND (R229): Sync and Follow_Up of a master, Delay_Req of a port that follows, and the Pdelay messages, at
their intervals, in hardware, for a domain the port names. Conventions: log 53. -/
def execPtpIntervalSend (port : Nat) (kind : PtpKind) (dom : Nat) (s : State) : Outcome State Fault Refusal :=
  onUnit 28 port (onUnitS 2 dom (s.event fun t =>
    if t.ptpOn port && t.ptpNames port dom then
      match kind with
      | .sync => t.sendSync port dom
      | .followUp => t.sendFollowUp port dom
      | .delayReq => t.sendDelayReq port dom
      | .pdelayReq => t.sendPdelayReq port dom
      | .pdelayRespFollowUp => t.sendPdelayFollowUp port dom
      | .delayResp | .pdelayResp | .announce | .management | .other => t
    else t) s)

/-- PTP_ANNOUNCE_SEND (R229): the firmware decides the port's state, and a master sends Announce at its interval. -/
def execPtpAnnounceSend (port dom : Nat) (s : State) : Outcome State Fault Refusal :=
  onUnit 28 port (onUnitS 2 dom (if !s.fwOn || !s.ptpOn port then s else
    let t := s.ptpDecide port
    let x := t.ptm port
    if x.ptp = .master ∧ t.ptpNames port dom ∧ t.hasTime dom ∧ x.takes ∧ intervalDue x.annAt dom t.now (logTicks x.logAnnounce) then
      ((t.takeSeq port .announce dom).onPtm port fun y => { y with annAt := noteSent y.annAt dom t.now }).ptpSend port .none
        (t.announceOf port dom)
    else t) s)

/-- ANNOUNCE_RECEIPT_TIMEOUT (R229, R237, R240): the firmware watches the Announces. -/
def execAnnounceReceiptTimeout (port : Nat) (s : State) : Outcome State Fault Refusal :=
  onUnit 28 port (if !s.fwOn then s else
    let x := s.ptm port
    match x.announce with
    | none => s
    | some (_, r) =>
      if r + x.announceTmo * logTicks x.logAnnounce ≤ s.now then
        (((s.onPtm port fun y => { y with announce := none }).raiseAt 142 0 port).dropUpstream port).ptpDecide port
      else s)

end Sys2Proof.Machine
end

