-- ==== Sys2Proof/Machine/Tio.lean ====
section
/-! DEFINITION. Timing I/O commands and events (R295 to R319). -/

namespace Sys2Proof.Machine

open Host

/-! Pins. -/

/-- The resource a function's index names: a unit or a generator (R296). -/
def funcKind (func : Nat) : Nat := if func = 4 then 5 else 6

/-- TIO_CLAIM (R296, R297). Conventions: log 41. -/
def execTioClaim (h : CmdHdr) (pin func index : Nat) (pol term : Bool) (s : State) : Outcome State Fault Refusal :=
  s.cmd h 0x0601
    (fun _ => { gone := firstBad [(0, decide (pin < 16)), (2, decide (index < if func = 4 then 16 else 4))],
                owned := [(funcKind func, index)], reins := [15],
                bad := firstBad [(0, decide (2 < func) || decide (pin < 8)), (1, decide (1 ≤ func) && decide (func ≤ 4))] })
    fun t =>
      if t.bitAt (Reg.tioBridle pin) 19 || (t.pinOf func index).isSome then .refuse St.busy []
      else .done [] ((t.wr (Reg.tioBridle pin) (w32 (func + index * 16 + b2n pol * 256 + b2n term * 512))).setOwner 4 pin h.ctx)

/-- TIO_RELEASE (R297). -/
def execTioRelease (h : CmdHdr) (pin : Nat) (s : State) : Outcome State Fault Refusal :=
  s.cmd h 0x0602 (fun _ => { gone := firstBad [(0, decide (pin < 16))], owned := [(4, pin)], reins := [15] })
    fun t => .done [] (t.freePin pin)

/-- TIO_STATUS_GET (R317). -/
def execTioStatusGet (h : CmdHdr) (s : State) : Outcome State Fault Refusal :=
  s.cmd h 0x0603 (fun _ => { role := .any }) fun t =>
    .done (((List.range 16).map fun n => (t.rd (Reg.tioBridle n)).toNat) ++ [t.tioLevelWord.toNat]) t.drawn

/-! Interval units. -/

/-- The lowest free resource of a kind among `n` (R314). -/
def State.lowestFree (s : State) (kind n : Nat) : Option Nat := (List.range n).find? fun i => (s.owner kind i).isNone

/-- IU_ALLOC (R314). -/
def execIuAlloc (h : CmdHdr) (s : State) : Outcome State Fault Refusal :=
  s.cmd h 0x0610 (fun _ => { reins := [15] }) fun t =>
    match t.lowestFree 6 4 with
    | some u => .done [u] (t.setOwner 6 u h.ctx)
    | none => .refuse St.full []

/-- IU_FREE (R314). -/
def execIuFree (h : CmdHdr) (unit : Nat) (s : State) : Outcome State Fault Refusal :=
  s.cmd h 0x0611 (fun _ => { gone := firstBad [(0, decide (unit < 4))], owned := [(6, unit)], reins := [15] })
    fun t => .done [] (t.freeResource 6 unit)

/-- IU_SET (R317). -/
def execIuSet (h : CmdHdr) (unit : Nat) (cfg window : Word) (s : State) : Outcome State Fault Refusal :=
  s.cmd h 0x0612 (fun _ => { gone := firstBad [(0, decide (unit < 4))], owned := [(6, unit)], reins := [15] })
    fun t => if t.iuArmed unit then .refuse St.busy [] else .done [] ((t.wr (Reg.iuCfg unit) cfg).wr (Reg.iuWindow unit) window)

/-- IU_ARM (R299, R306). -/
def execIuArm (h : CmdHdr) (unit : Nat) (s : State) : Outcome State Fault Refusal :=
  s.cmd h 0x0613 (fun _ => { gone := firstBad [(0, decide (unit < 4))], owned := [(6, unit)] })
    fun t => if t.iuCal unit then .refuse St.busy [] else .done [] (t.iuArm unit)

/-- IU_READ (R307). -/
def execIuRead (h : CmdHdr) (unit max : Nat) (s : State) : Outcome State Fault Refusal :=
  s.cmd h 0x0614
    (fun _ => { role := .any, gone := firstBad [(0, decide (unit < 4))], owned := [(6, unit)], bad := firstBad [(1, decide (1 ≤ max) && decide (max ≤ 16))] })
    fun t =>
      .done (((t.unit unit).queue.take max).flatMap fun r => r.words.map fun w => w.toNat)
        (t.onUnitSt unit fun x => { x with queue := x.queue.drop max })

/-- IU_CALIBRATE (R306): units are calibrated one at a time; cal_run stands from the command on. Conventions: log 41. -/
def execIuCalibrate (h : CmdHdr) (unit : Nat) (s : State) : Outcome State Fault Refusal :=
  s.cmd h 0x0615 (fun _ => { gone := firstBad [(0, decide (unit < 4))], owned := [(6, unit)], reins := [15] })
    fun t => if t.iuArmed unit || t.iuCal unit then .refuse St.busy [] else .accepted unit [] ((t.setFld (Reg.iuStat unit) 2 1 1).onMgt fun m => { m with calQ := m.calQ ++ [unit] })

/-- IU_CALIBRATION_END (R305, R306): the unit whose turn it is loads its correction table; the residual INL of both interpolators in 0.01 ps, the die temperature in
1/256 °C. Conventions: log 41. -/
def execIuCalibrationEnd (unit inlStart inlStop temp : Nat) (s : State) : Outcome State Fault Refusal :=
  onUnit 4 unit (if !s.fwOn || decide (s.mgt.calQ.head? ≠ some unit) then s else
    let bad : Bool := decide (150 < inlStart) || decide (150 < inlStop)
    let t := ((s.setFld (Reg.iuStat unit) 2 4 4).setFld (Reg.iuStat unit) 5 1 (b2n bad))
    let t := (t.wr (Reg.iuCalStat unit) (w32 (min 65535 inlStart + min 65535 inlStop * 65536))).setFld (Reg.iuCalTemp unit) 0 16 temp
    let t := (t.onUnitSt unit fun x => { x with table := some s.freeCtr }).drawn.onMgt fun m => { m with calQ := m.calQ.tail }
    (t.raiseAt 186 0 unit).complete 0x0615 unit St.ok [])

/-- IU_START_EDGE (R299, R300). Conventions: log 41. -/
def execIuStartEdge (unit : Nat) (edge : Raw) (k : Nat) (s : State) : Outcome State Fault Refusal :=
  onUnit 4 unit (s.event fun t =>
    let x := t.unit unit
    if t.iuArmed unit && x.start.isNone && (t.pinOf 1 unit).isSome && decide (x.armAt < edge.toNat) then
      (t.setFld (Reg.iuStat unit) 1 1 1).onUnitSt unit fun y => { y with start := some (edge.toNat, k, t.epoch) }
    else t)

/-- IU_STOP_EDGE (R300): at least 1 ns after START; the unit disarms and converts. -/
def execIuStopEdge (unit : Nat) (edge : Raw) (k : Nat) (s : State) : Outcome State Fault Refusal :=
  onUnit 4 unit (s.event fun t =>
    match (t.unit unit).start with
    | none => t
    | some (e, j, _) =>
      if t.iuArmed unit && (t.pinOf 2 unit).isSome && decide (edgeTime e j + 640 ≤ edgeTime edge.toNat k) then
        (t.setFld (Reg.iuStat unit) 0 2 0).onUnitSt unit fun y => { y with stop := some (edge.toNat, k) }
      else t)

/-- IU_CONVERSION_DONE (R302, R307): the result is queued and the dead time begins. -/
def execIuConversionDone (unit : Nat) (s : State) : Outcome State Fault Refusal :=
  onUnit 4 unit (s.event fun t =>
    match (t.unit unit).start, (t.unit unit).stop with
    | some a, some b => (t.iuQueue unit false false a (some b)).onUnitSt unit fun y => { y with start := none, stop := none, dead := some (t.now + 250) }
    | _, _ => t)

/-- The GATE pin arms by level (R299). Conventions: log 41. -/
def State.levelGate (s : State) (u : Nat) : Bool :=
  (s.pinOf 3 u).isSome && decide (s.fld (Reg.iuCfg u) 0 2 = 1) && s.bitAt (Reg.iuCfg u) 6

/-- IU_DEAD_TIME_END (R299, R302), 200 ns after the result is queued: a held arming takes effect, and so does a level that still stands.
Conventions: log 41. -/
def execIuDeadTimeEnd (unit : Nat) (s : State) : Outcome State Fault Refusal :=
  onUnit 4 unit (s.event fun t =>
    let x := t.unit unit
    if (x.dead.all fun e => decide (t.now < e)) then t
    else
      let u := t.onUnitSt unit fun y => { y with dead := none, hold := false }
      if x.hold || (t.levelGate unit && x.gate) then u.iuArm unit else u)

/-- IU_GATE_EDGE (R299): the GATE pin reaches or leaves its active level. -/
def execIuGateEdge (unit : Nat) (active : Bool) (s : State) : Outcome State Fault Refusal :=
  onUnit 4 unit (s.event fun t =>
    if (t.pinOf 3 unit).isNone then t
    else
      let u := t.onUnitSt unit fun y => { y with gate := active }
      if u.fld (Reg.iuCfg unit) 0 2 ≠ 1 then u
      else if active then u.iuArm unit
      else if u.bitAt (Reg.iuCfg unit) 6 then
        if u.iuArmed unit && (u.unit unit).start.isNone then u.iuDisarm unit
        else u.onUnitSt unit fun y => { y with hold := false }
      else u)

/-- IU_WINDOW_EXPIRY (R301): the window's ticks since the arming have passed. Conventions: log 41. -/
def execIuWindowExpiry (unit : Nat) (s : State) : Outcome State Fault Refusal :=
  onUnit 4 unit (s.event fun t =>
    let w := (t.rd (Reg.iuWindow unit)).toNat
    if !t.iuArmed unit || decide (w = 0) || decide (t.now < (t.unit unit).armAt + w) then t
    else
      let u := match (t.unit unit).start with
        | some a => t.iuQueue unit false true a none
        | none => t.count (Reg.iuWinExp unit) 191
      (((u.iuDisarm unit).stick (Reg.iuStat unit) 18)).raiseAt 185 0 unit)

/-- IU_STOP_OVERFLOW (R301): 2^39 - 1 ticks after START, without a window. -/
def execIuStopOverflow (unit : Nat) (s : State) : Outcome State Fault Refusal :=
  onUnit 4 unit (s.event fun t =>
    match (t.unit unit).start with
    | none => t
    | some a =>
      if !t.iuArmed unit || decide (t.rd (Reg.iuWindow unit) ≠ 0) || decide (t.now + 1 < a.1 + (2 ^ 39 - 1)) then t
      else (((t.iuQueue unit true false a none).iuDisarm unit).stick (Reg.iuStat unit) 17).raiseAt 185 0 unit)

/-! Trigger generators. -/

/-- TG_ALLOC (R314). -/
def execTgAlloc (h : CmdHdr) (s : State) : Outcome State Fault Refusal :=
  s.cmd h 0x0620 (fun _ => { reins := [15] }) fun t =>
    match t.lowestFree 5 16 with
    | some g => .done [g] (t.setOwner 5 g h.ctx)
    | none => .refuse St.full []

/-- TG_FREE (R314). -/
def execTgFree (h : CmdHdr) (gen : Nat) (s : State) : Outcome State Fault Refusal :=
  s.cmd h 0x0621 (fun _ => { gone := firstBad [(0, decide (gen < 16))], owned := [(5, gen)], reins := [15] })
    fun t => .done [] (t.freeResource 5 gen)

/-- The values an arming gives are in their ranges (R310): the period, the count, the width and the destination. -/
def armRange (i period count width dest : Nat) : List (Nat × Bool) :=
  [(i, decide (period = 0) || (decide (8 ≤ period) && decide (period < 2 ^ 39))), (i + 1, decide (count < 2 ^ 32)),
   (i + 2, decide (1 ≤ width) && decide (width < 2 ^ 24)), (i + 3, decide (dest < 4))]

/-- A generator is armed anew by command (R313). -/
def State.armAnew (s : State) (g : Nat) (net : Bool) (dest target fine period count width : Nat) : CmdEnd :=
  let r := ((s.tgDisarm g true).tgLoad g net dest target fine period count width).tgStart g
  .done [r.2] r.1

/-- TG_ARM (R309, R310, R312, R313, R317): 0 armed, 1 fired late, 2 missed. -/
def execTgArm (h : CmdHdr) (gen sec ns frac period count width dest : Nat) (s : State) : Outcome State Fault Refusal :=
  let sub := (ns * 65536 + frac) * 5 * 64
  let n := sec * 1250000000 + sub / 65536 / 256
  let fine := sub / 65536 % 256
  s.cmd h 0x0622
    (fun _ => { gone := firstBad [(0, decide (gen < 16))], owned := [(5, gen)],
                bad := firstBad ([(1, decide (sec < 2 ^ 48)), (2, decide (ns < 1000000000)), (3, decide (frac < 65536))]
                  ++ armRange 4 period count width dest) })
    fun t =>
      if !t.locked then .refuse St.state []
      else if (2 ^ 39 - 1 : Int) < (t.rawOfTicks n + fine) / 256 - t.now then .refuse St.range [1]
      else t.armAnew gen true dest n fine period count width

/-- TG_EXPERT_SET (R310, R312, R317). -/
def execTgExpertSet (h : CmdHdr) (gen : Nat) (target : Raw) (fine period count width dest : Nat) (s : State) : Outcome State Fault Refusal :=
  s.cmd h 0x0681
    (fun t => { gone := firstBad [(0, decide (gen < 16))], owned := [(5, gen)], reins := [15],
                bad := firstBad ([(1, decide (target.toNat < t.now + 2 ^ 39)), (2, decide (fine < 256))] ++ armRange 3 period count width dest) })
    fun t => t.armAnew gen false dest target.toNat fine period count width

/-- TG_DISARM (R313). Conventions: log 40. -/
def execTgDisarm (h : CmdHdr) (gen : Nat) (s : State) : Outcome State Fault Refusal :=
  s.cmd h 0x0623 (fun _ => { gone := firstBad [(0, decide (gen < 16))], owned := [(5, gen)] })
    fun t => .done [] (t.tgDisarm gen true)

/-- TG_STATUS_GET (R317). Conventions: log 32. -/
def execTgStatusGet (h : CmdHdr) (gen : Nat) (s : State) : Outcome State Fault Refusal :=
  s.cmd h 0x0624 (fun _ => { role := .any, gone := firstBad [(0, decide (gen < 16))] }) fun t =>
    .done [(t.rd (Reg.tgStat gen)).toNat, t.rd64 (Reg.tgTgtLo gen) (Reg.tgTgtHi gen), t.rd64 (Reg.tgNtLo gen) (Reg.tgNtHi gen),
           (t.rd (Reg.tgLeft gen)).toNat, (t.rd (Reg.tgFired gen)).toNat] t

/-- TG_FIRE (R172, R227, R308, R310, R312). -/
def execTgFire (gen : Nat) (s : State) : Outcome State Fault Refusal := onUnit 16 gen (s.event fun t => t.fire gen)

/-- TG_PULSE_END (R310, R311): the pulse's second edge is reached. -/
def execTgPulseEnd (gen : Nat) (s : State) : Outcome State Fault Refusal :=
  onUnit 16 gen (s.event fun t =>
    match (t.gen gen).pulse with
    | some e => if t.now < e.2 / 256 then t else t.onGen gen fun x => { x with pulse := none }
    | none => t)

/-- TARGET_RECONVERT (R227, R309). -/
def execTargetReconvert (s : State) : Outcome State Fault Refusal := .next (s.event fun t => t.reconvert)

end Sys2Proof.Machine
end

