-- ==== Sys2Proof/Machine/Bus.lean ====
section
/-! DEFINITION. The register path (R342, R351 to R362): a context's reads and writes of BAR0 and BAR2. -/

namespace Sys2Proof.Machine

/-! Who may write (R342). -/

/-- The context owns resource `i` of a kind. -/
def State.ownsRes (s : State) (c kind i : Nat) : Bool := decide (s.owner kind i = some c)

/-- A write of register `i` of a row is let through (R342): the role, the owner and the rein. Conventions: log 44. -/
def State.mayWrite (s : State) (c : Nat) (r : Row) (i : Nat) (v : Word) : Bool :=
  match r.gate with
  | .free => true
  | .dg => decide (s.role c = .principal)
  | g => decide (s.role c ≠ .observer) && match g with
    | .sys => s.holds c 0
    | .own => decide (i = c)
    | .port => decide (i < 28) && s.ownsPort c i && s.holds c (portRein i)
    | .swc => s.holds c 8
    | .swcQueue => s.holds c 8 && s.ownsPort c (i / 8)
    | .swcPort => s.holds c 8 && s.ownsPort c i
    | .tbl => s.holds c 9
    | .tblPort => s.holds c 9 && s.ownsPort c i
    | .pvid => s.holds c 11 && s.ownsPort c i
    | .clk => s.holds c 12
    | .clkRef => s.holds c 12 && (!(decide (1 ≤ i) && decide (i ≤ 4) && decide (getFld v 8 5 < 24)) || s.ownsPort c (getFld v 8 5))
    | .tsu => s.holds c 13
    | .cyc => s.holds c 14
    | .pin => s.ownsRes c 4 i
    | .gen => s.ownsRes c 5 i
    | .iunit => s.ownsRes c 6 i
    | .mgt => s.holds c 16
    | .pmc => decide (i < 12) || decide (s.role c = .principal)
    | _ => true

/-- The register at an address as this module has it: pages of absent ports and the registers of absent synthesisers
have none (R2, R286). Conventions: log 44. -/
def State.regAt (s : State) (a : Nat) : Option (Row × Nat × Nat) :=
  match Reg.find a with
  | some (r, i, j) =>
    if (r.gate = .port ∧ s.absent i) ∨ (r.base / 256 = 0x4801 ∧ !s.synThere i) then none else some (r, i, j)
  | none => none

/-! Reads (R354, R355). -/

/-- A word of the context's read shadow. -/
def State.shade (s : State) (c a : Nat) : Word := Tab.get (fun _ => 0) (s.cx c).shadow a

/-- A pair: the low word is read, and the high word latched for address `a + 4`. Conventions: log 44. -/
def State.readPair (s : State) (c a v : Nat) : State × Word := (s.latch c [(a + 4, w32 (v / 2 ^ 32))], w32 v)

/-- Words latched at rising addresses from `a`. -/
def wordsAt (a : Nat) (l : List Word) : List (Nat × Word) := (List.range l.length).zipWith (fun k w => (a + 4 * k, w)) l

/-- HCX_R_STAT as read (R106): active, and held for a frame that waits. -/
def State.ringStatWord (s : State) (c k : Nat) : Word :=
  let held : Bool := if k < 2 then !(s.sw.ring (2 * c + k)).isEmpty else ((s.cx c).sop k).isSome
  putFld (s.rd (Reg.ringStat c k)) 0 2 (b2n (s.bitAt (Reg.ringCtrl c k) 0) + b2n held * 2)

/-- The chained counters from `m` up as one number, and how many words above PMC_CNTm_LO hold it (R375).
Conventions: log 44. -/
def State.chainWords (s : State) : Nat → Nat → List (Nat × Word)
  | 0, _ => []
  | fuel + 1, m =>
    let v := s.pmcAt m
    [(Reg.pmcCntLo m, w32 v), (Reg.pmcCntHi m, w32 (v / 2 ^ 32))] ++ (if s.chained (m + 1) then s.chainWords fuel (m + 1) else [])

/-- A fixed counter with its OVF in bit 63 (R373). -/
def State.fixWord (s : State) (n : Nat) : Nat := s.fixAt n + b2n (s.bitAt (Reg.pmuOvf (n / 32)) (n % 32)) * 2 ^ 63

/-- TBL_LRN_POP (R150): the oldest record of the queue's own context. -/
def State.popLearn (s : State) (c q : Nat) : State × Word :=
  if q ≠ c then (s, 0)
  else match (s.cx c).learn with
    | [] => (s.latch c (wordsAt (Reg.tblLrnPop q + 4) (List.replicate 5 0)), 0)
    | r :: rest =>
      let w := learnWords r
      ((s.onCx c fun x => { x with learn := rest }).latch c (wordsAt (Reg.tblLrnPop q + 4) (w.drop 1)), w.getD 0 0)

/-- IU_RES_POP (R307, R354): the oldest result of a unit the context owns. -/
def State.popResult (s : State) (c u : Nat) : State × Word :=
  if !s.ownsRes c 6 u then (s, 0)
  else match (s.unit u).queue with
    | [] => (s, 0)
    | r :: rest =>
      ((s.onUnitSt u fun x => { x with queue := rest }).latch c (wordsAt (Reg.iuResPop u + 4) (r.words.drop 1)), r.words.getD 0 0)

/-- What a read of a register returns, with its side effects (R354, R355). -/
def State.readRow (s : State) (c a : Nat) (r : Row) (i j : Nat) : State × Word :=
  match r.view with
  | .reg => (s, s.readBack a)
  | .zero => (s, 0)
  | .shadow => (s, s.shade c a)
  | .pairReg => (s.latch c [(a + 4, s.rd (a + 4))], s.rd a)
  | .halterRx =>
    if !s.native i then (s.latch c (if j = 0 then wordsAt (a + 4) (List.replicate 5 0) else []), 0)
    else if j = 0 then (s.latch c (wordsAt (a + 4) ((List.range 5).map fun k => s.rd (a + 4 + 4 * k))), s.rd a) else (s, s.shade c a)
  | .replayFloor => s.readPair c a (s.arFloor i)
  | .phyStat => (s, s.phyStat i)
  | .feat => (s, s.feat)
  | .uptime => s.readPair c a s.uptime
  | .role => (s, w32 (s.role i).num)
  | .level => (s, w32 (b2n (s.cx i).expert))
  | .ctxStat => (s, s.ctxStat i)
  | .evtPend => (s, w32 (b2n (s.evtPending i)))
  | .ringStat => (s, s.ringStatWord i j)
  | .pool => (s, s.poolWord)
  | .dram => (s, s.dramWord)
  | .queueDram => (s, w32 (s.segBlocks i))
  | .fdbStat => (s, putFld (s.rd a) 2 19 (s.tbl.fdb.filter fun x => !((x.2.map (·.bad)).getD true)).length)
  | .shadowCtrl => (s, if s.dramReady then s.readBack a else putFld (s.readBack a) 0 2 0)
  | .shadowStat =>
    let n := s.tbl.mmLog.length
    let w := putFld (putFld (s.rd a) 0 1 (b2n (decide (s.shadowMode ≠ 0)))) 16 8 n
    (s, if n = 256 then orBit w 8 else w)
  | .lrnStat => (s, w32 (s.cx i).learn.length)
  | .lrnPop => s.popLearn c i
  | .tsuState => (s, s.tsuStateWord)
  | .epoch => (s, w32 s.epoch)
  | .bridge => s.readPair c a s.bridgeWord
  | .rawSnap => (s.latch c (wordsAt (a + 4) s.snapWords), w32 s.now)
  | .genLatch => (s.latch c (wordsAt (a + 4) (s.genWords i)), s.rd a)
  | .buildout => s.readPair c a (BitVec.ofInt 64 s.clk.buildout).toNat
  | .tgCtrl => (s, s.tgCtrlWord i)
  | .iuPop => s.popResult c i
  | .iuStat => (s, s.iuStatWord i)
  | .ttStat => (s, s.ttWord i)
  | .cycStat => (s, s.cycStatWord)
  | .cycPhase => s.readPair c a (BitVec.ofInt 64 s.cyc.phase).toNat
  | .cycNow => s.readPair c a (BitVec.ofInt 64 s.cyc.now).toNat
  | .cycArmed => s.readPair c a ((s.cyc.armed.map (·.k)).getD 0)
  | .shareCrc => (s, s.shareCrc)
  | .pendShareCrc => (s, s.pendShareCrc)
  | .pmuFix => s.readPair c a (s.fixWord i)
  | .pmcCnt =>
    if 12 ≤ i then (s.latch c ((s.chainWords 4 i).drop 1), w32 (s.pmcAt i)) else s.readPair c a (s.pmcAt i)
  | .mgtStat => (s, putFld (s.rd a) 0 1 (b2n (s.fwOn && !s.bitAt a 1)))
  | .fwVer => (s, s.fwVer)
  | .feedStat => (s, s.feedStat)
  | .storeStat => (s, s.storeStat)
  | .logSeq => (s, w32 s.mgt.logSeq)
  | .storeErase => (s, match s.mgt.job with
      | some (.erase n) => w32 n
      | _ => 0)
  | .tioLevel => (s.drawn, s.tioLevelWord)

/-- A register read of context `c` at a BAR0 address (R351, R352, R354). Conventions: log 44. -/
def State.busRead (s : State) (c a : Nat) : State × Word :=
  match s.regAt a with
  | some (r, i, j) =>
    -- the counters chained below are read with the lowest one's latch (R375)
    if r.view = .pmcCnt ∧ 12 < i ∧ s.chained i then (s, s.shade c a) else s.readRow c a r i j
  | none => (s, 0)

/-- BAR2 addresses in the read shadow (R355). -/
def bar2At (off : Nat) : Nat := 2 ^ 24 + off

/-- The fast time page (R214). -/
def State.fastTime (s : State) (c off : Nat) : State × Word :=
  let at_ := bar2At 0x210000
  let dom := fun (d o : Nat) => wordsAt (at_ + o) (s.genWords d)
  if off = 0 then
    let w := s.snapWords
    let b := s.bridgeWord
    (s.latch c ((wordsAt (at_ + 4) ((w.take 4) ++ [w32 ((w.getD 4 0).toNat + getFld (w.getD 5 0) 0 16 * 65536), w32 s.epoch]))
      ++ wordsAt (at_ + 0x80) [w32 b, w32 (b / 2 ^ 32)]), w32 s.now)
  else if off = 0x1C then (s.latch c (dom 0 0x20 ++ dom 1 0x60), s.rd (Reg.tsuGen 0))
  else if off = 0x5C then (s.latch c (dom 1 0x60), s.rd (Reg.tsuGen 1))
  else (s, s.shade c (at_ + off))

/-- The user counter page (R377). -/
def State.userCounters (s : State) (c off : Nat) : State × Word :=
  let lo : Bool := decide (off % 8 = 0)
  if off < 0x1000 then
    if !s.bitAt (Reg.hcxPmuUserEn c) 0 then (s, 0)
    else if lo then s.readPair c (bar2At (0x200000 + off)) (s.fixWord (off / 8))
    else (s, s.shade c (bar2At (0x200000 + off)))
  else if off < 0x1060 then
    if !s.bitAt (Reg.hcxPmuUserEn c) 1 then (s, 0)
    else if lo then s.readPair c (bar2At (0x200000 + off)) (s.pmcAt ((off - 0x1000) / 8))
    else (s, s.shade c (bar2At (0x200000 + off)))
  else (s, 0)

/-- A BAR2 read of one dword by HC0 to HC3 (R178, R365). -/
def State.bar2Read (s : State) (c off : Nat) : State × Word :=
  if off % 4 ≠ 0 ∨ 4 ≤ c then (s, 0)
  else if off < 0x200000 then (s, w32 (leNat (s.imageBytes off 4)))
  else if off < 0x210000 then s.userCounters c (off - 0x200000)
  else if off < 0x210088 then s.fastTime c (off - 0x210000)
  else (s, 0)

/-- What a read returned stands in the context until its next read. -/
def State.took (c : Nat) (x : State × Word) : State := x.1.onCx c fun y => { y with busData := x.2 }

/-- A read at a BAR0 address, or at 2^24 plus a BAR2 offset. -/
def State.access (s : State) (c a : Nat) : State :=
  State.took c (if a < 2 ^ 24 then s.busRead c a else s.bar2Read c (a - 2 ^ 24))

/-! Writes (R342, R352, R356, R359 to R362). -/

/-- RW fields take the value and W1C bits clear, but for those set in this tick, `fresh`; other bits keep theirs (R8,
R352). Conventions: log 44. -/
def Row.merge (r : Row) (old v fresh : Word) : Word := ((old &&& ~~~r.rw) ||| (v &&& r.rw)) &&& ~~~(v &&& r.w1c &&& ~~~fresh)

/-- A power of two between two bounds (R106, R346). -/
def powerIn (lo hi n : Nat) : Bool := (List.range 13).any fun k => decide (2 ^ k = n) && decide (lo ≤ n) && decide (n ≤ hi)

/-- The words of a pair written in one tick (R356): the held low word, where there is one, then the high word. -/
def State.bothWords (s : State) (lo : Option Word) (a : Nat) (v : Word) (put : State → Nat → Word → State) : State :=
  match lo with
  | some w => put (put s (a - 4) w) a v
  | none => put s a v

/-- A write to an interval unit's control (R299, R315). -/
def State.writeIuCtrl (s : State) (u : Nat) (v : Word) : State :=
  let t := if bit v 0 then s.iuArm u else s
  let t := if bit v 1 then t.iuDisarm u else t
  if bit v 2 then t.onUnitSt u fun x => { x with queue := [] } else t

/-- A write of PORT_LINE_CTRL (R57): clearing doze_en wakes a dozing transmitter. Conventions: log 44. -/
def State.writeLineCtrl (s : State) (p : Nat) (v : Word) : State :=
  let t := s.wr (Reg.portLineCtrl p) v
  if bit v 1 then t else t.wakeTx p

/-- A write of PORT_CAP_ADV (R56): a halter follows. -/
def State.writeCapAdv (s : State) (p : Nat) (v : Word) : State :=
  (s.wr (Reg.portCapAdv p) v).onPt p fun x => { x with halterDue := true }

/-- A write of PMC_SELm (R374): the counter and its ovf clear. -/
def State.writePmcSel (s : State) (m : Nat) (v : Word) : State := (s.wr (Reg.pmcSel m) (putFld v 31 1 0)).setPmc m 0

/-- A write of PMC_CNTm (R356, R374). -/
def State.writePmcCnt (s : State) (m : Nat) (lo : Option Word) (v : Word) : State :=
  s.setPmc m ((match lo with
    | some w => w.toNat
    | none => s.pmcAt m % 2 ^ 32) + getFld v 0 16 * 2 ^ 32)

/-- A write of EVT_MASKj: a source unmasked may make the context pending (R369). Conventions: log 48. -/
def State.writeMask (s : State) (c j : Nat) (v : Word) : State := (s.wr (Reg.evtMask c j) v).deliver c (s.evtPending c)

/-- EVT_REARM (R369). -/
def State.rearm (s : State) (c : Nat) : State := if c < 4 ∧ s.evtPending c then s.postMsg c else s

/-- A write that passed R342, by the register's own rules: `lo` is the low word held for it. Conventions: log 44. -/
def State.writeRow (s : State) (c a : Nat) (r : Row) (i j : Nat) (lo : Option Word) (v : Word) : State :=
  let m := r.merge (s.rd a) v (s.freshBits a)
  match r.act with
  | .none => s
  | .guard => s
  | .plain => s.wr a m
  | .buffered => s.stage a v
  | .pairLo => s.onCx c fun x => { x with heldLo := some (a, v) }
  | .queueSize => if s.bitAt (Reg.hcxQCtrl i) 0 || !powerIn 4 64 (getFld v 0 7) then s else s.wr a m
  | .queueBase =>
    if s.bitAt (Reg.hcxQCtrl i) 0 then s else s.bothWords lo a v fun t b w => t.wr b (if b = a then w else w &&& 0xFFFFF000)
  | .cqHead => s.cqHead i v
  | .doorbell => s.doorbell i v
  | .ringBase =>
    if s.bitAt (Reg.ringCtrl i j) 0 then s else s.bothWords lo a v fun t b w => t.wr b (if b = a then w else w &&& 0xFFFFFFC0)
  | .ringSize =>
    if s.bitAt (Reg.ringCtrl i j) 0 then s
    else s.wr a (if powerIn 16 4096 (getFld v 0 13) then v else putFld v 0 13 (s.fld a 0 13))
  | .ringCtrl => s.ringCtl i j v
  | .ringTail => s.ringTail i j v []
  | .evtStat => s.wr a m
  | .evtMask => s.writeMask i j v
  | .evtRearm => s.rearm i
  | .maxfrm => if i < 24 ∧ 1518 ≤ getFld v 0 14 ∧ getFld v 0 14 ≤ 9216 then s.writeF i a v else s
  | .pcpMap => s.writeF i a v
  | .capAdv => s.writeCapAdv i v
  | .phyCtrl => s.writePhyCtrl i v
  | .lineCtrl => s.writeLineCtrl i v
  | .eq => if 16 ≤ i then s.stage a v else s
  | .portCommit => s.portCommit i
  | .alpha => if 16 ≤ i ∧ a = Reg.ttAlpha i then s else (s.wr a v).clearHist i
  | .swcCommit => s.swcCommit
  | .poolLow => s.writePoolLow m
  | .sample => s.writeSample i v
  | .qcfg => s.stage a (if spillPort (i / 8) then v else v &&& ~~~(1#32 <<< 28))
  | .arbCommit => s.arbCommit
  | .tblRdSel => s.latch c (wordsAt (Reg.tblRdW 0) (s.rdEntry v))
  | .shadowCtrl => s.writeShadow v
  | .clkSel => s.writeClkSel v
  | .synCfg => if i < 6 then (s.wr a v).synRestart i (getFld v 0 2) else s
  | .refCfg => if 1 ≤ i ∧ i ≤ 4 then (s.bindSlot i (getFld v 8 5)).wr a v else s.wr a v
  | .bridle => s.writeBridle i v
  | .genField => s.bothWords lo a v fun t b w => t.writeGen i b w
  | .tgCtrl => s.writeTgCtrl i v
  | .iuCtrl => s.writeIuCtrl i v
  | .cycCtrl => (s.wr a m).setEn (bit v 0)
  | .cycRdSel => s.latch c (wordsAt (Reg.cycRdW 0) (s.cycRdWords v))
  | .pmcSel => s.writePmcSel i v
  | .pmcCnt => s.writePmcCnt i lo v
  | .smpStat => if bit v 8 && !bit (s.freshBits a) 8 then s.wr a (putFld (putFld (s.rd a) 8 1 0) 16 16 0) else s

/-- The double-write-guard registers (R361). Conventions: log 43. -/
def guardRegs : List Nat :=
  [Reg.sysReset, Reg.sysFreezeEn, Reg.sysTapUnlock, Reg.tsuEpochReset, Reg.mgtFeedForce, Reg.mgtLaserOvr, Reg.memStoreErase]

/-- The second write of a pair, which came at `at_`: the exact complement, at most 1 ms after the first (R9).
Conventions: logs 43, 44. -/
def State.complement (s : State) (g : Option GuardPair) (x : Nat) (v : Word) (at_ : Raw) : State :=
  match g with
  | some p => if p.addr = x ∧ v = ~~~p.value ∧ at_.toNat ≤ p.raw.toNat + 1250000 then s.guardEffect x p.value else s
  | none => s

/-- A register write of context `c` at a BAR0 address, which arrived at the module at `at_` (R9). Every write breaks a pending pair and drops a held low word, but
for the one that completes it (R356, R362). Conventions: log 44. -/
def State.busWriteAt (s : State) (c a : Nat) (v : Word) (at_ : Raw) : State :=
  let g := (s.cx c).guard
  let held := (s.cx c).heldLo
  let t := s.onCx c fun x => { x with guard := none, heldLo := none }
  if guardRegs.contains a then
    if t.role c = .principal then t.onCx c fun x => { x with guard := some { addr := a, value := v, raw := at_ } } else t
  else if 4 ≤ a ∧ guardRegs.contains (a - 4) then
    if t.role c = .principal then t.complement g (a - 4) v at_ else t
  else match t.regAt a with
    | some (r, i, j) =>
      let lo := match held with
        | some (b, w) => if b + 4 = a then some w else none
        | none => none
      if t.mayWrite c r i v then t.writeRow c a r i j lo v else t
    | none => t

/-- A register write that arrives now. Conventions: log 44. -/
def State.busWrite (s : State) (c a : Nat) (v : Word) : State := s.busWriteAt c a v s.raw

/-- Register writes of one packet, in order (R335): all arrived with it (R9). -/
def State.busWrites (s : State) (c : Nat) (l : List (Nat × Word)) : State :=
  l.foldl (fun t x => t.busWriteAt c x.1 x.2 (s.cx c).cmdAt) s

/-- Register reads in ascending address order (R335, R354). -/
def State.busReads (s : State) (c a : Nat) : Nat → State × List Nat
  | 0 => (s, [])
  | n + 1 =>
    let x := s.busRead c a
    let y := State.busReads x.1 c (a + 4) n
    (y.1, x.2.toNat :: y.2)

end Sys2Proof.Machine
end

