-- ==== Sys2Proof/Machine/Registers.lean ====
section
/-! DEFINITION. Register access, events and counters (R351 to R378): the register and event commands, the register rows and
the counters' wraps. -/

namespace Sys2Proof.Machine

open Host

/-! Commands (R335, R371). -/

/-- REG_READ (R335, R354). -/
def execRegRead (h : CmdHdr) (addr count : Nat) (s : State) : Outcome State Fault Refusal :=
  s.cmd h 0x0901 (fun _ => { role := .any, bad := firstBad [(1, decide (1 ≤ count ∧ count ≤ 1018))] }) fun t =>
    let x := t.busReads h.ctx addr count
    .done x.2 x.1

/-- REG_WRITE (R335): not an OBSERVER's (R336). -/
def execRegWrite (h : CmdHdr) (writes : List (Nat × Word)) (s : State) : Outcome State Fault Refusal :=
  s.cmd h 0x0902 (fun _ => { bad := firstBad [(0, decide (1 ≤ writes.length ∧ writes.length ≤ 509))] }) fun t =>
    .done [] (t.busWrites h.ctx writes)

/-- EVT_GET (R371). -/
def execEvtGet (h : CmdHdr) (s : State) : Outcome State Fault Refusal :=
  s.cmd h 0x0903 (fun _ => { role := .any }) fun t =>
    .done ((List.range 8).map (fun j => (t.rd (Reg.evtStat h.ctx j)).toNat) ++ (List.range 8).map (fun j => (t.rd (Reg.evtMask h.ctx j)).toNat)
      ++ [(t.rd (Reg.evtCfg h.ctx)).toNat]) t

/-- EVT_CLEAR (R367, R370, R371). Conventions: log 48. -/
def execEvtClear (h : CmdHdr) (bits : List Word) (s : State) : Outcome State Fault Refusal :=
  s.cmd h 0x0904 (fun _ => { role := .any, bad := firstBad [(0, decide (bits.length = 8))] }) fun t =>
    .done [] ((List.range 8).foldl (fun u j => u.wr (Reg.evtStat h.ctx j) (u.rd (Reg.evtStat h.ctx j) &&& ~~~(bits.getD j 0 &&& ~~~u.freshBits (Reg.evtStat h.ctx j)))) t)

/-- EVT_MASK_SET (R371). Conventions: log 48. -/
def execEvtMaskSet (h : CmdHdr) (masks : List Word) (cfg : Word) (s : State) : Outcome State Fault Refusal :=
  s.cmd h 0x0905 (fun _ => { role := .any, bad := firstBad [(0, decide (masks.length = 8))] }) fun t =>
    let u := (List.range 8).foldl (fun u j => u.wr (Reg.evtMask h.ctx j) (masks.getD j 0)) (t.wr (Reg.evtCfg h.ctx) cfg)
    .done [] (u.deliver h.ctx (t.evtPending h.ctx))

/-- EVT_ROUTE_SET (R367, R371): no status bit moves. Conventions: log 48. -/
def execEvtRouteSet (h : CmdHdr) (first : Nat) (routes : List Nat) (s : State) : Outcome State Fault Refusal :=
  s.cmd h 0x0906
    (fun _ => { reins := [0], bad := firstBad [(0, decide (first + routes.length ≤ 256)), (1, decide (1 ≤ routes.length) && routes.all (decide <| · < 256))] })
    fun t => .done [] ((List.range routes.length).foldl (fun u i => u.setFld (Reg.evtRoute (first + i)) 0 8 (routes.getD i 0)) t)

/-! The double-write guard (R9, R361, R362). Each row of a guarded register is the write of the complement; the pending
pair holds the value. -/

/-- A register access of a context while the module answers. Conventions: log 44. -/
def onBus (c : Nat) (s : State) (f : State → State) : Outcome State Fault Refusal := onUnit 8 c (s.event f)

/-- DG_FIRST_WRITE (R362): a write of X starts a pair. Conventions: log 43. -/
def execDgFirstWrite (c addr : Nat) (value : Word) (s : State) : Outcome State Fault Refusal :=
  onBus c s fun t => if guardRegs.contains addr then t.busWrite c addr value else t

/-- DG_PAIR_TIMEOUT (R9): more than 1 ms has passed. Conventions: log 43. -/
def execDgPairTimeout (c : Nat) (s : State) : Outcome State Fault Refusal :=
  onBus c s fun t => match (t.cx c).guard with
    | some g => if g.raw.toNat + 1250000 < t.now then t.onCx c fun x => { x with guard := none } else t
    | none => t

/-- SYS_RESET_MODULE_RESET (R386): the complement of a pair of value 1. -/
def execSysResetModuleReset (c : Nat) (complement : Word) (s : State) : Outcome State Fault Refusal :=
  onBus c s fun t => t.busWrite c (Reg.sysReset + 4) complement

/-- SYS_RESET_FIRMWARE_RESTART (R387): the complement of a pair of value 2. -/
def execSysResetFirmwareRestart (c : Nat) (complement : Word) (s : State) : Outcome State Fault Refusal :=
  onBus c s fun t => t.busWrite c (Reg.sysReset + 4) complement

/-- SYS_FREEZE_EN_WRITE (R403). -/
def execSysFreezeEnWrite (c : Nat) (complement : Word) (s : State) : Outcome State Fault Refusal :=
  onBus c s fun t => t.busWrite c (Reg.sysFreezeEn + 4) complement

/-- SYS_TAP_UNLOCK (R405): the complement of a pair of key 1. -/
def execSysTapUnlock (c : Nat) (complement : Word) (s : State) : Outcome State Fault Refusal :=
  onBus c s fun t => t.busWrite c (Reg.sysTapUnlock + 4) complement

/-- SYS_TAP_LOCK (R405): the complement of a pair of key 0. -/
def execSysTapLock (c : Nat) (complement : Word) (s : State) : Outcome State Fault Refusal :=
  onBus c s fun t => t.busWrite c (Reg.sysTapUnlock + 4) complement

/-- TSU_EPOCH_RESET (R219). -/
def execTsuEpochReset (c : Nat) (complement : Word) (s : State) : Outcome State Fault Refusal :=
  onBus c s fun t => t.busWrite c (Reg.tsuEpochReset + 4) complement

/-- MGT_FEED_FORCE (R385). -/
def execMgtFeedForce (c : Nat) (complement : Word) (s : State) : Outcome State Fault Refusal :=
  onBus c s fun t => t.busWrite c (Reg.mgtFeedForce + 4) complement

/-- MGT_LASER_OVR (R68). -/
def execMgtLaserOvr (c : Nat) (complement : Word) (s : State) : Outcome State Fault Refusal :=
  onBus c s fun t => t.busWrite c (Reg.mgtLaserOvr + 4) complement

/-- MEM_STORE_ERASE (R394). -/
def execMemStoreErase (c : Nat) (complement : Word) (s : State) : Outcome State Fault Refusal :=
  onBus c s fun t => t.busWrite c (Reg.memStoreErase + 4) complement

/-! Register writes (R342, R351, R352). -/

/-- REG_WRITE_GENERIC (R342): fewer than four byte enables are ignored, and break a pending pair all the same (R352,
R362). -/
def execRegWriteGeneric (c addr : Nat) (value : Word) (fullDword : Bool) (s : State) : Outcome State Fault Refusal :=
  onBus c s fun t =>
    if fullDword then t.busWrite c addr value else t.onCx c fun x => { x with guard := none, heldLo := none }

/-- PAIR_LO_WRITE (R356). -/
def execPairLoWrite (c addr : Nat) (value : Word) (s : State) : Outcome State Fault Refusal :=
  onBus c s fun t => t.busWrite c addr value

/-- PORT_COMMIT (R360). -/
def execPortCommit (c port : Nat) (s : State) : Outcome State Fault Refusal :=
  onBus c s fun t => onUnitS 24 port (t.busWrite c (Reg.portCommit port) 0) t

/-- SWC_COMMIT (R133). -/
def execSwcCommit (c : Nat) (s : State) : Outcome State Fault Refusal := onBus c s fun t => t.busWrite c Reg.swcCommit 0

/-- ARB_COMMIT (R137). -/
def execArbCommit (c : Nat) (s : State) : Outcome State Fault Refusal := onBus c s fun t => t.busWrite c Reg.arbCommit 0

/-- PORT_ENABLE_WRITE (R85). Conventions: log 52. -/
def execPortEnableWrite (c port : Nat) (value : Word) (s : State) : Outcome State Fault Refusal :=
  onBus c s fun t => onUnitS 28 port (t.busWrite c (Reg.portPhyCtrl port) value) t

/-- PORT_CAP_ADV_WRITE (R56). -/
def execPortCapAdvWrite (c port : Nat) (value : Word) (s : State) : Outcome State Fault Refusal :=
  onBus c s fun t => onUnitS 24 port (t.busWrite c (Reg.portCapAdv port) value) t

/-- CLK_SYN_CFG_WRITE (R288). -/
def execClkSynCfgWrite (c n : Nat) (value : Word) (s : State) : Outcome State Fault Refusal :=
  onBus c s fun t => onUnitS 8 n (t.busWrite c (Reg.clkSynCfg n) value) t

/-- SWC_SAMPLE_WRITE (R132). -/
def execSwcSampleWrite (c port : Nat) (value : Word) (s : State) : Outcome State Fault Refusal :=
  onBus c s fun t => onUnitS 28 port (t.busWrite c (Reg.swcSample port) value) t

/-- TBL_RD_SEL (R166). -/
def execTblRdSel (c : Nat) (value : Word) (s : State) : Outcome State Fault Refusal := onBus c s fun t => t.busWrite c Reg.tblRdSel value

/-- CYC_RD_SEL (R203). -/
def execCycRdSel (c : Nat) (value : Word) (s : State) : Outcome State Fault Refusal := onBus c s fun t => t.busWrite c Reg.cycRdSel value

/-- TG_CTRL_ARM_WRITE (R313). -/
def execTgCtrlArmWrite (c gen : Nat) (value : Word) (s : State) : Outcome State Fault Refusal :=
  onBus c s fun t => onUnitS 16 gen (t.busWrite c (Reg.tgCtrl gen) (putFld value 0 1 1)) t

/-- TG_CTRL_DISARM_WRITE (R313). -/
def execTgCtrlDisarmWrite (c gen : Nat) (value : Word) (s : State) : Outcome State Fault Refusal :=
  onBus c s fun t => onUnitS 16 gen (t.busWrite c (Reg.tgCtrl gen) (putFld value 0 1 0)) t

/-- IU_CTRL_ARM (R299, R315). -/
def execIuCtrlArm (c unit : Nat) (s : State) : Outcome State Fault Refusal :=
  onBus c s fun t => onUnitS 4 unit (t.busWrite c (Reg.iuCtrl unit) 1) t

/-- IU_CTRL_DISARM (R315). -/
def execIuCtrlDisarm (c unit : Nat) (s : State) : Outcome State Fault Refusal :=
  onBus c s fun t => onUnitS 4 unit (t.busWrite c (Reg.iuCtrl unit) 2) t

/-- IU_CTRL_FLUSH (R315). -/
def execIuCtrlFlush (c unit : Nat) (s : State) : Outcome State Fault Refusal :=
  onBus c s fun t => onUnitS 4 unit (t.busWrite c (Reg.iuCtrl unit) 4) t

/-- PMC_SEL_WRITE (R374). -/
def execPmcSelWrite (c m : Nat) (value : Word) (s : State) : Outcome State Fault Refusal :=
  onBus c s fun t => onUnitS 16 m (t.busWrite c (Reg.pmcSel m) value) t

/-- PI_PAYLOAD_WRITE (R180, R182): whole dwords of HC0 to HC3 at a 4-byte-aligned BAR2 offset. -/
def execPiPayloadWrite (c offset : Nat) (data : List Word) (s : State) : Outcome State Fault Refusal :=
  onBus c s fun t =>
    if offset % 4 ≠ 0 ∨ 4 ≤ c then t
    else (List.range data.length).foldl (fun u i => u.piStore c (offset + 4 * i) (data.getD i 0)) t

/-- PI_SEQ_WRITE (R182, R183). Conventions: log 38. -/
def execPiSeqWrite (c slot : Nat) (value : Word) (s : State) : Outcome State Fault Refusal :=
  onBus c s fun t => if 4 ≤ c then t else onUnitS 4096 slot (t.piStore c (ostBase + 16 * slot) value) t

/-! Register reads (R354, R355). -/

/-- PAIR_LO_READ (R355, R377): at a BAR0 address, or at 2^24 plus a BAR2 offset. -/
def execPairLoRead (c addr : Nat) (s : State) : Outcome State Fault Refusal := onBus c s fun t => t.access c addr

/-- TSU_RAW_LO_READ (R213). -/
def execTsuRawLoRead (c : Nat) (s : State) : Outcome State Fault Refusal := onBus c s fun t => t.access c Reg.tsuRawLo

/-- TSU_GEN_READ (R213). -/
def execTsuGenRead (c dom : Nat) (s : State) : Outcome State Fault Refusal :=
  onBus c s fun t => onUnitS 2 dom (t.access c (Reg.tsuGen dom)) t

/-- FT_RAW_LO_READ (R214). -/
def execFtRawLoRead (c : Nat) (s : State) : Outcome State Fault Refusal := onBus c s fun t => t.access c (bar2At 0x210000)

/-- FT_GEN_READ (R214). -/
def execFtGenRead (c dom : Nat) (s : State) : Outcome State Fault Refusal :=
  onBus c s fun t => t.access c (bar2At (if dom = 0 then 0x21001C else 0x21005C))

/-- PORT_HALTER_RX0_READ (R56). -/
def execPortHalterRx0Read (c port : Nat) (s : State) : Outcome State Fault Refusal :=
  onBus c s fun t => onUnitS 24 port (t.access c (Reg.portHalterRx port 0)) t

/-- PMC_CHAIN_READ (R375). -/
def execPmcChainRead (c m : Nat) (s : State) : Outcome State Fault Refusal :=
  onBus c s fun t => onUnitS 16 m (t.access c (Reg.pmcCntLo m)) t

/-- TBL_LRN_POP (R150). -/
def execTblLrnPop (c queue : Nat) (s : State) : Outcome State Fault Refusal :=
  onBus c s fun t => onUnitS 8 queue (t.access c (Reg.tblLrnPop queue)) t

/-- IU_RES_POP (R307). -/
def execIuResPop (c unit : Nat) (s : State) : Outcome State Fault Refusal :=
  onBus c s fun t => onUnitS 4 unit (t.access c (Reg.iuResPop unit)) t

/-! Event messages (R369). -/

/-- EVT_REARM_WRITE (R369). -/
def execEvtRearmWrite (c : Nat) (s : State) : Outcome State Fault Refusal := onBus c s fun t => t.busWrite c (Reg.evtRearm c) 0

/-- EVENT_HOLDOFF_EXPIRY (R369): the message that waited goes out where its context is still pending. -/
def execEventHoldoffExpiry (c : Nat) (s : State) : Outcome State Fault Refusal :=
  onUnit 4 c (s.event fun t =>
    let due : Bool := match (t.cx c).lastMsg with
      | none => true
      | some r => decide (r + t.fld (Reg.evtCfg c) 16 16 * 1250 ≤ t.now)
    if (t.cx c).msgWait && due then
      if t.evtPending c then t.postMsg c else t.onCx c fun x => { x with msgWait := false }
    else t)

/-! Counter wraps (R373 to R376). -/

/-- The event numbers that count (R372). -/
def perfNamed (n : Nat) : Bool :=
  decide (n < 0xC5) || (decide (0xE0 ≤ n) && decide (n ≤ 0xED)) || (decide (0x100 ≤ n) && decide (n ≤ 0x106))
    || (decide (0x120 ≤ n) && decide (n ≤ 0x13A)) || (decide (0x140 ≤ n) && decide (n ≤ 0x143)) || (decide (0x160 ≤ n) && decide (n ≤ 0x173))
    || (decide (0x180 ≤ n) && decide (n ≤ 0x185)) || (decide (0x1A0 ≤ n) && decide (n ≤ 0x1A3)) || (decide (0x1C0 ≤ n) && decide (n ≤ 0x1D7))
    || (decide (0x1E0 ≤ n) && decide (n ≤ 0x1E2))

/-- PMU_COUNTER_WRAP (R375, R376): the event that wraps a counter at 2^48 - 1 happens. Conventions: log 49. -/
def execPmuCounterWrap (m : Nat) (s : State) : Outcome State Fault Refusal :=
  onUnit 16 m (s.event fun t =>
    let n := t.fld (Reg.pmcSel m) 0 9
    if t.bitAt (Reg.pmcSel m) 9 && !t.chained m && decide (t.pmcAt m + 1 = 2 ^ 48) && perfNamed n then t.perf n else t)

/-- FIXED_COUNTER_WRAP (R373): the event that wraps a counter at 2^48 - 1 happens. Conventions: log 49. -/
def execFixedCounterWrap (n : Nat) (s : State) : Outcome State Fault Refusal :=
  onUnit 512 n (s.event fun t => if decide (t.fixAt n + 1 = 2 ^ 48) && perfNamed n then t.perf n else t)

end Sys2Proof.Machine
end

