-- ==== Sys2Proof/Machine/Dispatch.lean ====
section
/-! DEFINITION. The dispatch: one arm per command, each one direct call of its meaning. -/

namespace Sys2Proof.Machine

def exec (i : Instr) (s : State) : Host.Outcome State Fault Refusal :=
  match i with
  | .portSet h port mode flags => Sys2Proof.Machine.execPortSet h port mode flags s
  | .portHalterGet h port => Sys2Proof.Machine.execPortHalterGet h port s
  | .portQualityGet h port => Sys2Proof.Machine.execPortQualityGet h port s
  | .portFrameSet h port maxfrm ctEn => Sys2Proof.Machine.execPortFrameSet h port maxfrm ctEn s
  | .portLineExpertSet h port preemptEn dozeEn dozeIdle capMask => Sys2Proof.Machine.execPortLineExpertSet h port preemptEn dozeEn dozeIdle capMask s
  | .portEqExpertSet h port tx rx dig => Sys2Proof.Machine.execPortEqExpertSet h port tx rx dig s
  | .swcQueueSet h port profile => Sys2Proof.Machine.execSwcQueueSet h port profile s
  | .swcPcpSet h port classes defPcp => Sys2Proof.Machine.execSwcPcpSet h port classes defPcp s
  | .swcSampleSet h port n dest => Sys2Proof.Machine.execSwcSampleSet h port n dest s
  | .swcStatsGet h port => Sys2Proof.Machine.execSwcStatsGet h port s
  | .swcQueueExpertSet h port cls floor alpha spillThr spillEn dramMax quantum => Sys2Proof.Machine.execSwcQueueExpertSet h port cls floor alpha spillThr spillEn dramMax quantum s
  | .swcGlobalExpertSet h headroom ageSram ageDram ageC6 stage ret poolLow => Sys2Proof.Machine.execSwcGlobalExpertSet h headroom ageSram ageDram ageC6 stage ret poolLow s
  | .swcArbExpertSet h tickets seed => Sys2Proof.Machine.execSwcArbExpertSet h tickets seed s
  | .fdbInsert h op => Sys2Proof.Machine.execFdbInsert h op s
  | .fdbDelete h fid mac => Sys2Proof.Machine.execFdbDelete h fid mac s
  | .fdbLookup h fid mac => Sys2Proof.Machine.execFdbLookup h fid mac s
  | .fdbFlush h port static fid => Sys2Proof.Machine.execFdbFlush h port static fid s
  | .fdbBatch h ops => Sys2Proof.Machine.execFdbBatch h ops s
  | .learnSet h port en max => Sys2Proof.Machine.execLearnSet h port en max s
  | .fdbAgeSet h time => Sys2Proof.Machine.execFdbAgeSet h time s
  | .learnRead h max => Sys2Proof.Machine.execLearnRead h max s
  | .vlanSet h vid entry pvidPorts => Sys2Proof.Machine.execVlanSet h vid entry pvidPorts s
  | .streamSet h index entry => Sys2Proof.Machine.execStreamSet h index entry s
  | .streamDelete h index => Sys2Proof.Machine.execStreamDelete h index s
  | .streamGet h index pendingBank => Sys2Proof.Machine.execStreamGet h index pendingBank s
  | .protSet h pair primary alternate enable revertive wtr => Sys2Proof.Machine.execProtSet h pair primary alternate enable revertive wtr s
  | .protGet h pair => Sys2Proof.Machine.execProtGet h pair s
  | .protRevert h pair => Sys2Proof.Machine.execProtRevert h pair s
  | .shadowWrite h table first entries => Sys2Proof.Machine.execShadowWrite h table first entries s
  | .shadowCtrl h mode pace => Sys2Proof.Machine.execShadowCtrl h mode pace s
  | .shadowLogGet h max => Sys2Proof.Machine.execShadowLogGet h max s
  | .fdbRehash h seed => Sys2Proof.Machine.execFdbRehash h seed s
  | .rehashWalkEnd => Sys2Proof.Machine.execRehashWalkEnd s
  | .timeGet h => Sys2Proof.Machine.execTimeGet h s
  | .timeDomSet h dom number profile => Sys2Proof.Machine.execTimeDomSet h dom number profile s
  | .timeConvert h raws => Sys2Proof.Machine.execTimeConvert h raws s
  | .timePortSet h port profile flags logSync logAnnounce logDelay announceTmo => Sys2Proof.Machine.execTimePortSet h port profile flags logSync logAnnounce logDelay announceTmo s
  | .timePortGet h port => Sys2Proof.Machine.execTimePortGet h port s
  | .timeSwitch h atSec => Sys2Proof.Machine.execTimeSwitch h atSec s
  | .timeSwitchCancel h => Sys2Proof.Machine.execTimeSwitchCancel h s
  | .timeDomReset h dom => Sys2Proof.Machine.execTimeDomReset h dom s
  | .timeExpertSet h slew limit servoA servoB lockA lockB traceHold => Sys2Proof.Machine.execTimeExpertSet h slew limit servoA servoB lockA lockB traceHold s
  | .timeSwitchForce h atSec => Sys2Proof.Machine.execTimeSwitchForce h atSec s
  | .timeEpochReset h => Sys2Proof.Machine.execTimeEpochReset h s
  | .timeLinkSet h port profile fast noUpstream => Sys2Proof.Machine.execTimeLinkSet h port profile fast noUpstream s
  | .timeLinkGet h port => Sys2Proof.Machine.execTimeLinkGet h port s
  | .timeGmSet h dom flags prio1 prio2 cls accuracy utcOffset initSec initNs initGiven => Sys2Proof.Machine.execTimeGmSet h dom flags prio1 prio2 cls accuracy utcOffset initSec initNs initGiven s
  | .timeLinkExpertSet h port alpha delta en => Sys2Proof.Machine.execTimeLinkExpertSet h port alpha delta en s
  | .clkRefSet h index rank freq port => Sys2Proof.Machine.execClkRefSet h index rank freq port s
  | .clkSelect h mode index => Sys2Proof.Machine.execClkSelect h mode index s
  | .clkStatusGet h => Sys2Proof.Machine.execClkStatusGet h s
  | .clkSwitchSet h phaseMode wtr disagree => Sys2Proof.Machine.execClkSwitchSet h phaseMode wtr disagree s
  | .clkDpllExpertSet h bw fastAcq => Sys2Proof.Machine.execClkDpllExpertSet h bw fastAcq s
  | .clkSynExpertSet h syn action force => Sys2Proof.Machine.execClkSynExpertSet h syn action force s
  | .tioClaim h pin func index pol term => Sys2Proof.Machine.execTioClaim h pin func index pol term s
  | .tioRelease h pin => Sys2Proof.Machine.execTioRelease h pin s
  | .tioStatusGet h => Sys2Proof.Machine.execTioStatusGet h s
  | .iuAlloc h => Sys2Proof.Machine.execIuAlloc h s
  | .iuFree h unit => Sys2Proof.Machine.execIuFree h unit s
  | .iuSet h unit cfg window => Sys2Proof.Machine.execIuSet h unit cfg window s
  | .iuArm h unit => Sys2Proof.Machine.execIuArm h unit s
  | .iuRead h unit max => Sys2Proof.Machine.execIuRead h unit max s
  | .iuCalibrate h unit => Sys2Proof.Machine.execIuCalibrate h unit s
  | .iuCalibrationEnd unit inlStart inlStop temp => Sys2Proof.Machine.execIuCalibrationEnd unit inlStart inlStop temp s
  | .tgAlloc h => Sys2Proof.Machine.execTgAlloc h s
  | .tgFree h gen => Sys2Proof.Machine.execTgFree h gen s
  | .tgArm h gen sec ns frac period count width dest => Sys2Proof.Machine.execTgArm h gen sec ns frac period count width dest s
  | .tgDisarm h gen => Sys2Proof.Machine.execTgDisarm h gen s
  | .tgStatusGet h gen => Sys2Proof.Machine.execTgStatusGet h gen s
  | .tgExpertSet h gen target fine period count width dest => Sys2Proof.Machine.execTgExpertSet h gen target fine period count width dest s
  | .cycStartSet h gen timing => Sys2Proof.Machine.execCycStartSet h gen timing s
  | .cycTableSet h port entries => Sys2Proof.Machine.execCycTableSet h port entries s
  | .cycOslotSet h slot cfg template => Sys2Proof.Machine.execCycOslotSet h slot cfg template s
  | .cycIslotSet h slot cfg => Sys2Proof.Machine.execCycIslotSet h slot cfg s
  | .cycStageGet h => Sys2Proof.Machine.execCycStageGet h s
  | .cycStatusGet h => Sys2Proof.Machine.execCycStatusGet h s
  | .cycPeriodStage h period => Sys2Proof.Machine.execCycPeriodStage h period s
  | .cycPiWrite h slot offset data seq => Sys2Proof.Machine.execCycPiWrite h slot offset data seq s
  | .cycPiRead h inbound slot offset len => Sys2Proof.Machine.execCycPiRead h inbound slot offset len s
  | .cycleCommit h k share hash immediate => Sys2Proof.Machine.execCycleCommit h k share hash immediate s
  | .cycleCancel h => Sys2Proof.Machine.execCycleCancel h s
  | .cycDiscard h streams => Sys2Proof.Machine.execCycDiscard h streams s
  | .cycleCommitForce h k hash immediate => Sys2Proof.Machine.execCycleCommitForce h k hash immediate s
  | .commitMismatchCheck => Sys2Proof.Machine.execCommitMismatchCheck s
  | .sysGet h => Sys2Proof.Machine.execSysGet h s
  | .sensorGet h => Sys2Proof.Machine.execSensorGet h s
  | .updateBegin h length => Sys2Proof.Machine.execUpdateBegin h length s
  | .updateEraseDone => Sys2Proof.Machine.execUpdateEraseDone s
  | .updateData h offset data => Sys2Proof.Machine.execUpdateData h offset data s
  | .updateCommit h restart => Sys2Proof.Machine.execUpdateCommit h restart s
  | .updateVerifyDone sigOk => Sys2Proof.Machine.execUpdateVerifyDone sigOk s
  | .updateAbort h => Sys2Proof.Machine.execUpdateAbort h s
  | .updateStatusGet h => Sys2Proof.Machine.execUpdateStatusGet h s
  | .cfgSave h => Sys2Proof.Machine.execCfgSave h s
  | .cfgBoardSet h entry => Sys2Proof.Machine.execCfgBoardSet h entry s
  | .cfgFactory h => Sys2Proof.Machine.execCfgFactory h s
  | .storeStatusGet h => Sys2Proof.Machine.execStoreStatusGet h s
  | .logRead h first max => Sys2Proof.Machine.execLogRead h first max s
  | .logSet h mask => Sys2Proof.Machine.execLogSet h mask s
  | .feedForce h sel => Sys2Proof.Machine.execFeedForce h sel s
  | .storeWriteDone => Sys2Proof.Machine.execStoreWriteDone s
  | .regRead h addr count => Sys2Proof.Machine.execRegRead h addr count s
  | .regWrite h writes => Sys2Proof.Machine.execRegWrite h writes s
  | .evtGet h => Sys2Proof.Machine.execEvtGet h s
  | .evtClear h bits => Sys2Proof.Machine.execEvtClear h bits s
  | .evtMaskSet h masks cfg => Sys2Proof.Machine.execEvtMaskSet h masks cfg s
  | .evtRouteSet h first routes => Sys2Proof.Machine.execEvtRouteSet h first routes s
  | .freeze h => Sys2Proof.Machine.execFreeze h s
  | .ctxNop h => Sys2Proof.Machine.execCtxNop h s
  | .levelSet h level complement => Sys2Proof.Machine.execLevelSet h level complement s
  | .roleSet h target role => Sys2Proof.Machine.execRoleSet h target role s
  | .ctxGet h target => Sys2Proof.Machine.execCtxGet h target s
  | .ctxBind h target port vid mac unbind => Sys2Proof.Machine.execCtxBind h target port vid mac unbind s
  | .ctxKeySet h target key => Sys2Proof.Machine.execCtxKeySet h target key s
  | .ctxReset h target => Sys2Proof.Machine.execCtxReset h target s
  | .reinTake h lease reins => Sys2Proof.Machine.execReinTake h lease reins s
  | .reinDrop h reins => Sys2Proof.Machine.execReinDrop h reins s
  | .reinGet h => Sys2Proof.Machine.execReinGet h s
  | .ownSet h kind first count owner => Sys2Proof.Machine.execOwnSet h kind first count owner s
  | .ownGet h kind first count => Sys2Proof.Machine.execOwnGet h kind first count s
  | .reinBreak h reins => Sys2Proof.Machine.execReinBreak h reins s
  | .leaseExpiry => Sys2Proof.Machine.execLeaseExpiry s
  | .hcxDoorbell c value => Sys2Proof.Machine.execHcxDoorbell c value s
  | .sqEntryRead c slot => Sys2Proof.Machine.execSqEntryRead c slot s
  | .cqSlotFreed c head => Sys2Proof.Machine.execCqSlotFreed c head s
  | .queueDmaError c onReply => Sys2Proof.Machine.execQueueDmaError c onReply s
  | .spiWrite c bytes => Sys2Proof.Machine.execSpiWrite c bytes s
  | .spiRead c clocked => Sys2Proof.Machine.execSpiRead c clocked s
  | .spiStatus c => Sys2Proof.Machine.execSpiStatus c s
  | .spiReset c second => Sys2Proof.Machine.execSpiReset c second s
  | .spiVoidTransaction c => Sys2Proof.Machine.execSpiVoidTransaction c s
  | .inBandCommandFrame port frame => Sys2Proof.Machine.execInBandCommandFrame port frame s
  | .eventFrameRepeat c => Sys2Proof.Machine.execEventFrameRepeat c s
  | .pcieFlr c => Sys2Proof.Machine.execPcieFlr c s
  | .pcieLinkLoss => Sys2Proof.Machine.execPcieLinkLoss s
  | .perstNAssert => Sys2Proof.Machine.execPerstNAssert s
  | .rstNAssert ns => Sys2Proof.Machine.execRstNAssert ns s
  | .sysResetModuleReset c complement => Sys2Proof.Machine.execSysResetModuleReset c complement s
  | .sysResetFirmwareRestart c complement => Sys2Proof.Machine.execSysResetFirmwareRestart c complement s
  | .watchdogRestart => Sys2Proof.Machine.execWatchdogRestart s
  | .powerUp mvA mvB => Sys2Proof.Machine.execPowerUp mvA mvB s
  | .lossOfPower => Sys2Proof.Machine.execLossOfPower s
  | .resetHoldEnd straps => Sys2Proof.Machine.execResetHoldEnd straps s
  | .boot sigOk0 sigOk1 => Sys2Proof.Machine.execBoot sigOk0 sigOk1 s
  | .firmwareReady => Sys2Proof.Machine.execFirmwareReady s
  | .bootConfirm => Sys2Proof.Machine.execBootConfirm s
  | .frzNAssert ns => Sys2Proof.Machine.execFrzNAssert ns s
  | .freezeEnter => Sys2Proof.Machine.execFreezeEnter s
  | .thermalStop sensor => Sys2Proof.Machine.execThermalStop sensor s
  | .dgFirstWrite c addr value => Sys2Proof.Machine.execDgFirstWrite c addr value s
  | .dgPairTimeout c => Sys2Proof.Machine.execDgPairTimeout c s
  | .sysFreezeEnWrite c complement => Sys2Proof.Machine.execSysFreezeEnWrite c complement s
  | .sysTapUnlock c complement => Sys2Proof.Machine.execSysTapUnlock c complement s
  | .sysTapLock c complement => Sys2Proof.Machine.execSysTapLock c complement s
  | .tsuEpochReset c complement => Sys2Proof.Machine.execTsuEpochReset c complement s
  | .mgtFeedForce c complement => Sys2Proof.Machine.execMgtFeedForce c complement s
  | .mgtLaserOvr c complement => Sys2Proof.Machine.execMgtLaserOvr c complement s
  | .memStoreErase c complement => Sys2Proof.Machine.execMemStoreErase c complement s
  | .regWriteGeneric c addr value fullDword => Sys2Proof.Machine.execRegWriteGeneric c addr value fullDword s
  | .pairLoRead c addr => Sys2Proof.Machine.execPairLoRead c addr s
  | .pairLoWrite c addr value => Sys2Proof.Machine.execPairLoWrite c addr value s
  | .tsuRawLoRead c => Sys2Proof.Machine.execTsuRawLoRead c s
  | .tsuGenRead c dom => Sys2Proof.Machine.execTsuGenRead c dom s
  | .ftRawLoRead c => Sys2Proof.Machine.execFtRawLoRead c s
  | .ftGenRead c dom => Sys2Proof.Machine.execFtGenRead c dom s
  | .portHalterRx0Read c port => Sys2Proof.Machine.execPortHalterRx0Read c port s
  | .pmcChainRead c m => Sys2Proof.Machine.execPmcChainRead c m s
  | .tblLrnPop c queue => Sys2Proof.Machine.execTblLrnPop c queue s
  | .iuResPop c unit => Sys2Proof.Machine.execIuResPop c unit s
  | .tblRdSel c value => Sys2Proof.Machine.execTblRdSel c value s
  | .cycRdSel c value => Sys2Proof.Machine.execCycRdSel c value s
  | .portCommit c port => Sys2Proof.Machine.execPortCommit c port s
  | .swcCommit c => Sys2Proof.Machine.execSwcCommit c s
  | .arbCommit c => Sys2Proof.Machine.execArbCommit c s
  | .arbCommitApply => Sys2Proof.Machine.execArbCommitApply s
  | .portEnableWrite c port value => Sys2Proof.Machine.execPortEnableWrite c port value s
  | .portCapAdvWrite c port value => Sys2Proof.Machine.execPortCapAdvWrite c port value s
  | .clkSynCfgWrite c n value => Sys2Proof.Machine.execClkSynCfgWrite c n value s
  | .swcSampleWrite c port value => Sys2Proof.Machine.execSwcSampleWrite c port value s
  | .hcxRingTailWrite c ring value posted => Sys2Proof.Machine.execHcxRingTailWrite c ring value posted s
  | .txRingTimeout c ring => Sys2Proof.Machine.execTxRingTimeout c ring s
  | .ringDmaError c ring => Sys2Proof.Machine.execRingDmaError c ring s
  | .txTimestampWriteback c ring => Sys2Proof.Machine.execTxTimestampWriteback c ring s
  | .evtRearmWrite c => Sys2Proof.Machine.execEvtRearmWrite c s
  | .eventHoldoffExpiry c => Sys2Proof.Machine.execEventHoldoffExpiry c s
  | .logSuppressReport => Sys2Proof.Machine.execLogSuppressReport s
  | .savedStateHourlyWrite => Sys2Proof.Machine.execSavedStateHourlyWrite s
  | .tgCtrlArmWrite c gen value => Sys2Proof.Machine.execTgCtrlArmWrite c gen value s
  | .tgCtrlDisarmWrite c gen value => Sys2Proof.Machine.execTgCtrlDisarmWrite c gen value s
  | .iuCtrlArm c unit => Sys2Proof.Machine.execIuCtrlArm c unit s
  | .iuCtrlDisarm c unit => Sys2Proof.Machine.execIuCtrlDisarm c unit s
  | .iuCtrlFlush c unit => Sys2Proof.Machine.execIuCtrlFlush c unit s
  | .pmcSelWrite c m value => Sys2Proof.Machine.execPmcSelWrite c m value s
  | .piPayloadWrite c offset data => Sys2Proof.Machine.execPiPayloadWrite c offset data s
  | .piSeqWrite c slot value => Sys2Proof.Machine.execPiSeqWrite c slot value s
  | .tapExtest => Sys2Proof.Machine.execTapExtest s
  | .tapIdcode => Sys2Proof.Machine.execTapIdcode s
  | .tapSamplePreload => Sys2Proof.Machine.execTapSamplePreload s
  | .tapWaferRead bits => Sys2Proof.Machine.execTapWaferRead bits s
  | .tapMemAddr addr => Sys2Proof.Machine.execTapMemAddr addr s
  | .tapMemRead words => Sys2Proof.Machine.execTapMemRead words s
  | .tapFrzStatus => Sys2Proof.Machine.execTapFrzStatus s
  | .tapBypass => Sys2Proof.Machine.execTapBypass s
  | .feedFailover regulates => Sys2Proof.Machine.execFeedFailover regulates s
  | .feedHandoverComplete regulates => Sys2Proof.Machine.execFeedHandoverComplete regulates s
  | .feedPresenceChange feed mv => Sys2Proof.Machine.execFeedPresenceChange feed mv s
  | .feedLockout feed => Sys2Proof.Machine.execFeedLockout feed s
  | .sensorRead r => Sys2Proof.Machine.execSensorRead r s
  | .ovenReady => Sys2Proof.Machine.execOvenReady s
  | .ovenOor oor => Sys2Proof.Machine.execOvenOor oor s
  | .ovenWarmFail => Sys2Proof.Machine.execOvenWarmFail s
  | .lossOfSignal port => Sys2Proof.Machine.execLossOfSignal port s
  | .signalDetect port => Sys2Proof.Machine.execSignalDetect port s
  | .receiverSettled port => Sys2Proof.Machine.execReceiverSettled port s
  | .receiverSettleTimeout port => Sys2Proof.Machine.execReceiverSettleTimeout port s
  | .markReceive port seq gap => Sys2Proof.Machine.execMarkReceive port seq gap s
  | .missedMark port => Sys2Proof.Machine.execMissedMark port s
  | .markSend port => Sys2Proof.Machine.execMarkSend port s
  | .crumbDue port => Sys2Proof.Machine.execCrumbDue port s
  | .crumbForced port => Sys2Proof.Machine.execCrumbForced port s
  | .crumbDelete port fill => Sys2Proof.Machine.execCrumbDelete port fill s
  | .crumbInsert port fill => Sys2Proof.Machine.execCrumbInsert port fill s
  | .elasticOverrun port fill => Sys2Proof.Machine.execElasticOverrun port fill s
  | .controlBeatDiscard port line place => Sys2Proof.Machine.execControlBeatDiscard port line place s
  | .frameReceive port frame => Sys2Proof.Machine.execFrameReceive port frame s
  | .fillCrumbAbort port => Sys2Proof.Machine.execFillCrumbAbort port s
  | .preemptReceive port open_ => Sys2Proof.Machine.execPreemptReceive port open_ s
  | .resumeReceive port => Sys2Proof.Machine.execResumeReceive port s
  | .inboundFile => Sys2Proof.Machine.execInboundFile s
  | .cellSlot => Sys2Proof.Machine.execCellSlot s
  | .headSweep => Sys2Proof.Machine.execHeadSweep s
  | .dramReturn queue hdr => Sys2Proof.Machine.execDramReturn queue hdr s
  | .overflowRecordWrite => Sys2Proof.Machine.execOverflowRecordWrite s
  | .dramSlotDraw active => Sys2Proof.Machine.execDramSlotDraw active s
  | .dramReadyChange ready => Sys2Proof.Machine.execDramReadyChange ready s
  | .bufferEccError what => Sys2Proof.Machine.execBufferEccError what s
  | .reservedConnectionSetup port index => Sys2Proof.Machine.execReservedConnectionSetup port index s
  | .gateEntryStart port index => Sys2Proof.Machine.execGateEntryStart port index s
  | .gateEntryEnd port => Sys2Proof.Machine.execGateEntryEnd port s
  | .frameTransmit port preempting ts sub => Sys2Proof.Machine.execFrameTransmit port preempting ts sub s
  | .mPortTxAttempt port carrier => Sys2Proof.Machine.execMPortTxAttempt port carrier s
  | .mPortCollision port bitTimes => Sys2Proof.Machine.execMPortCollision port bitTimes s
  | .mPortBackoffExpiry port => Sys2Proof.Machine.execMPortBackoffExpiry port s
  | .segmentFault port => Sys2Proof.Machine.execSegmentFault port s
  | .segmentRetry port intact => Sys2Proof.Machine.execSegmentRetry port intact s
  | .sgmiiInbandWord port linkUp speed => Sys2Proof.Machine.execSgmiiInbandWord port linkUp speed s
  | .stdBlockLockChange port locked => Sys2Proof.Machine.execStdBlockLockChange port locked s
  | .laserFault port => Sys2Proof.Machine.execLaserFault port s
  | .qualityUpdate port q => Sys2Proof.Machine.execQualityUpdate port q s
  | .halterSend port => Sys2Proof.Machine.execHalterSend port s
  | .halterPeriodic port => Sys2Proof.Machine.execHalterPeriodic port s
  | .halterReceive port words => Sys2Proof.Machine.execHalterReceive port words s
  | .halterTimeout port => Sys2Proof.Machine.execHalterTimeout port s
  | .messageDiscard port beats => Sys2Proof.Machine.execMessageDiscard port beats s
  | .dozeEntry port => Sys2Proof.Machine.execDozeEntry port s
  | .dozeReceive port => Sys2Proof.Machine.execDozeReceive port s
  | .dozeWake port => Sys2Proof.Machine.execDozeWake port s
  | .trainAlignment port aligned => Sys2Proof.Machine.execTrainAlignment port aligned s
  | .timeReqSend port at_ => Sys2Proof.Machine.execTimeReqSend port at_ s
  | .timeReqReceive port words t2 t3 => Sys2Proof.Machine.execTimeReqReceive port words t2 t3 s
  | .timeRespReceive port words t4 => Sys2Proof.Machine.execTimeRespReceive port words t4 s
  | .exchangeLost port => Sys2Proof.Machine.execExchangeLost port s
  | .infoSend port dom => Sys2Proof.Machine.execInfoSend port dom s
  | .infoReceive port words => Sys2Proof.Machine.execInfoReceive port words s
  | .infoVoid port dom => Sys2Proof.Machine.execInfoVoid port dom s
  | .upstreamSelect dom => Sys2Proof.Machine.execUpstreamSelect dom s
  | .upstreamChange dom => Sys2Proof.Machine.execUpstreamChange dom s
  | .firstLockTimeout dom => Sys2Proof.Machine.execFirstLockTimeout dom s
  | .traceHoldExpiry dom => Sys2Proof.Machine.execTraceHoldExpiry dom s
  | .vernierFitLoss port => Sys2Proof.Machine.execVernierFitLoss port s
  | .ppsAlignMeasure dom edge => Sys2Proof.Machine.execPpsAlignMeasure dom edge s
  | .timeSwitchStart => Sys2Proof.Machine.execTimeSwitchStart s
  | .slewEnd => Sys2Proof.Machine.execSlewEnd s
  | .targetReconvert => Sys2Proof.Machine.execTargetReconvert s
  | .ptpMessageReceive port msg => Sys2Proof.Machine.execPtpMessageReceive port msg s
  | .ptpIntervalSend port kind dom => Sys2Proof.Machine.execPtpIntervalSend port kind dom s
  | .ptpAnnounceSend port dom => Sys2Proof.Machine.execPtpAnnounceSend port dom s
  | .announceReceiptTimeout port => Sys2Proof.Machine.execAnnounceReceiptTimeout port s
  | .dpllComparison errPs freqOk => Sys2Proof.Machine.execDpllComparison errPs freqOk s
  | .referenceQualification meas => Sys2Proof.Machine.execReferenceQualification meas s
  | .referenceLost index => Sys2Proof.Machine.execReferenceLost index s
  | .autoDecision => Sys2Proof.Machine.execAutoDecision s
  | .rselChange pins => Sys2Proof.Machine.execRselChange pins s
  | .referenceSwitchDone mean => Sys2Proof.Machine.execReferenceSwitchDone mean s
  | .synthLock n band phase => Sys2Proof.Machine.execSynthLock n band phase s
  | .synthLockRetry n => Sys2Proof.Machine.execSynthLockRetry n s
  | .lineSynthUnlock n => Sys2Proof.Machine.execLineSynthUnlock n s
  | .coreSynthUnlock => Sys2Proof.Machine.execCoreSynthUnlock s
  | .dramSynthUnlock => Sys2Proof.Machine.execDramSynthUnlock s
  | .protSwitch pair => Sys2Proof.Machine.execProtSwitch pair s
  | .protWtrReturn pair => Sys2Proof.Machine.execProtWtrReturn pair s
  | .ageScanVisit index => Sys2Proof.Machine.execAgeScanVisit index s
  | .learnFilterExpiry => Sys2Proof.Machine.execLearnFilterExpiry s
  | .shadowCompareUnit => Sys2Proof.Machine.execShadowCompareUnit s
  | .tableEccError what => Sys2Proof.Machine.execTableEccError what s
  | .tgFire gen => Sys2Proof.Machine.execTgFire gen s
  | .tgPulseEnd gen => Sys2Proof.Machine.execTgPulseEnd gen s
  | .cycGenAutoArm => Sys2Proof.Machine.execCycGenAutoArm s
  | .cycleStart => Sys2Proof.Machine.execCycleStart s
  | .launchCapture slot => Sys2Proof.Machine.execLaunchCapture slot s
  | .launch slot lines => Sys2Proof.Machine.execLaunch slot lines s
  | .iuStartEdge unit edge k => Sys2Proof.Machine.execIuStartEdge unit edge k s
  | .iuStopEdge unit edge k => Sys2Proof.Machine.execIuStopEdge unit edge k s
  | .iuGateEdge unit active => Sys2Proof.Machine.execIuGateEdge unit active s
  | .iuConversionDone unit => Sys2Proof.Machine.execIuConversionDone unit s
  | .iuDeadTimeEnd unit => Sys2Proof.Machine.execIuDeadTimeEnd unit s
  | .iuWindowExpiry unit => Sys2Proof.Machine.execIuWindowExpiry unit s
  | .iuStopOverflow unit => Sys2Proof.Machine.execIuStopOverflow unit s
  | .pmuCounterWrap m => Sys2Proof.Machine.execPmuCounterWrap m s
  | .fixedCounterWrap n => Sys2Proof.Machine.execFixedCounterWrap n s
  | .firmwareStop => Sys2Proof.Machine.execFirmwareStop s
  | .mPortEntersUp port => Sys2Proof.Machine.execMPortEntersUp port s
  | .feedLockoutEnd feed => Sys2Proof.Machine.execFeedLockoutEnd feed s
  | .fineValidReturn port => Sys2Proof.Machine.execFineValidReturn port s

end Sys2Proof.Machine
end

