-- ==== Sys2Proof/Machine/Tick.lean ====
section
/-! DEFINITION. What passes by itself in one tick of CCLK, 0.8 ns: the raw count, uptime, a slew and the performance
events that come with time (R206, R208, R224, R372), and the frames MGMT sends. The table of commands has no row for a tick: `step` makes one on an
empty queue (DESIGN CHOICE, log 1). -/

namespace Sys2Proof.Machine

/-- Performance event `n` happens `k` times. -/
def State.perfN (s : State) (n : Nat) : Nat → State
  | 0 => s
  | k + 1 => (s.perfN n k).perf n

/-- The events of R372 that no row of the table causes: the management processor's, the PCIe links' and the DRAM slots lost
to refresh or turnaround. How often each happens in a tick is free (DESIGN CHOICE, log 1). -/
def idleEvents : List Nat := [0x180, 0x182, 0x183, 0x185, 0x1A0, 0x1A1, 0x1A2, 0x1A3, 0xE7]

/-- Uptime runs on MCLK, 2 ns at each of its cycles, in every powered life (R208) (DESIGN CHOICE, log 1). -/
def State.mclkTick (s : State) : State :=
  if s.life = .unpowered then s else { s with uptime := s.uptime + 2 * Config.mclkEdges s.freeCtr }

/-- The performance events of one tick (R372). Conventions: log 1. -/
def State.perfTick (s : State) : State :=
  let k := Config.mclkEdges s.freeCtr
  let t := ((s.perf 0x1E0).perfN 0x1E1 k).perfN 0x181 (if s.mgt.fw = .down ∨ s.mgt.fw = .stopped then 0 else k)
  let t := if t.poolFree < t.fld Reg.swcPoolLow 0 18 then t.perf 0xC4 else t
  idleEvents.foldl (fun u n => u.perfN n (Config.activity n s.freeCtr)) t

/-- The raw count runs from the core synthesiser's first lock after power-up (R206). -/
def State.counting (s : State) : Bool := s.bitAt (Reg.clkSynStat 6) 0

/-- One tick of CCLK. Raw time stops in a freeze (R404) and without power, and runs on in a reset (R206). -/
def State.tick (s : State) : State :=
  let t := s.mclkTick
  match s.life with
  | .unpowered => t
  | .frozen => t.drawn
  | .held => if s.counting then { t.drawn with raw := s.raw + 1 } else t.drawn
  | .up => (({ t with raw := s.raw + 1 } : State).slewTick.perfTick.mgtTick).drawn

end Sys2Proof.Machine
end

