-- ==== Sys2Proof/Machine/Step.lean ====
section
/-! DEFINITION. One step of the block: the command at the front of the queue runs; on an empty queue a tick of CCLK passes. -/

namespace Sys2Proof.Machine

open Host

/-- The command at the front is taken off the queue and executed; an empty queue lets one tick pass (DESIGN CHOICE, log 1). -/
def step (s : State) : Outcome State Fault Refusal :=
  match s.pending with
  | [] => .next s.tick
  | c :: rest => exec c { s with pending := rest }

/-- The command a word spells, put at the front of the queue. No row of the table gives bits, so no word spells a command
and the state is unchanged (`Sys2Proof.decodeTableWord`). -/
def State.withFetchWord (s : State) (nbits w : Nat) : State :=
  match decodeTableWord nbits w with
  | some c => { s with pending := c :: s.pending }
  | none => s

end Sys2Proof.Machine
end

