-- ==== Sys2Proof/WellFormed.lean ====
section
/-! DEFINITION. What a well-formed command is: it comes from a context that exists, and the units it names are units of the
block. Operands of a host command that are out of range are the block's to answer (R333) and are well formed here. -/

namespace Sys2Proof

/-- A command header: one of the eight contexts (R15), a 16-bit tag (R331). -/
def CmdHdr.wf (h : CmdHdr) : Bool := decide (h.ctx < 8) && decide (h.tag < 65536)

/-- The checks of every constructor. -/
def Instr.wellFormed : Instr → Bool
  | .portSet h _ _ _ => h.wf
  | .portHalterGet h _ => h.wf
  | .portQualityGet h _ => h.wf
  | .portFrameSet h _ _ _ => h.wf
  | .portLineExpertSet h _ _ _ _ _ => h.wf
  | .portEqExpertSet h _ _ _ _ => h.wf
  | .swcQueueSet h _ _ => h.wf
  | .swcPcpSet h _ _ _ => h.wf
  | .swcSampleSet h _ _ _ => h.wf
  | .swcStatsGet h _ => h.wf
  | .swcQueueExpertSet h _ _ _ _ _ _ _ _ => h.wf
  | .swcGlobalExpertSet h _ _ _ _ _ _ _ => h.wf
  | .swcArbExpertSet h _ _ => h.wf
  | .fdbInsert h _ => h.wf
  | .fdbDelete h _ _ => h.wf
  | .fdbLookup h _ _ => h.wf
  | .fdbFlush h _ _ _ => h.wf
  | .fdbBatch h _ => h.wf
  | .learnSet h _ _ _ => h.wf
  | .fdbAgeSet h _ => h.wf
  | .learnRead h _ => h.wf
  | .vlanSet h _ _ _ => h.wf
  | .streamSet h _ _ => h.wf
  | .streamDelete h _ => h.wf
  | .streamGet h _ _ => h.wf
  | .protSet h _ _ _ _ _ _ => h.wf
  | .protGet h _ => h.wf
  | .protRevert h _ => h.wf
  | .shadowWrite h _ _ _ => h.wf
  | .shadowCtrl h _ _ => h.wf
  | .shadowLogGet h _ => h.wf
  | .fdbRehash h _ => h.wf
  | .rehashWalkEnd => true
  | .timeGet h => h.wf
  | .timeDomSet h _ _ _ => h.wf
  | .timeConvert h _ => h.wf
  | .timePortSet h _ _ _ _ _ _ _ => h.wf
  | .timePortGet h _ => h.wf
  | .timeSwitch h _ => h.wf
  | .timeSwitchCancel h => h.wf
  | .timeDomReset h _ => h.wf
  | .timeExpertSet h _ _ _ _ _ _ _ => h.wf
  | .timeSwitchForce h _ => h.wf
  | .timeEpochReset h => h.wf
  | .timeLinkSet h _ _ _ _ => h.wf
  | .timeLinkGet h _ => h.wf
  | .timeGmSet h _ _ _ _ _ _ _ _ _ _ => h.wf
  | .timeLinkExpertSet h _ _ _ _ => h.wf
  | .clkRefSet h _ _ _ _ => h.wf
  | .clkSelect h _ _ => h.wf
  | .clkStatusGet h => h.wf
  | .clkSwitchSet h _ _ _ => h.wf
  | .clkDpllExpertSet h _ _ => h.wf
  | .clkSynExpertSet h _ _ _ => h.wf
  | .tioClaim h _ _ _ _ _ => h.wf
  | .tioRelease h _ => h.wf
  | .tioStatusGet h => h.wf
  | .iuAlloc h => h.wf
  | .iuFree h _ => h.wf
  | .iuSet h _ _ _ => h.wf
  | .iuArm h _ => h.wf
  | .iuRead h _ _ => h.wf
  | .iuCalibrate h _ => h.wf
  | .iuCalibrationEnd unit _ _ _ => decide (unit < 4)
  | .tgAlloc h => h.wf
  | .tgFree h _ => h.wf
  | .tgArm h _ _ _ _ _ _ _ _ => h.wf
  | .tgDisarm h _ => h.wf
  | .tgStatusGet h _ => h.wf
  | .tgExpertSet h _ _ _ _ _ _ _ => h.wf
  | .cycStartSet h _ _ => h.wf
  | .cycTableSet h _ _ => h.wf
  | .cycOslotSet h _ _ _ => h.wf
  | .cycIslotSet h _ _ => h.wf
  | .cycStageGet h => h.wf
  | .cycStatusGet h => h.wf
  | .cycPeriodStage h _ => h.wf
  | .cycPiWrite h _ _ _ _ => h.wf
  | .cycPiRead h _ _ _ _ => h.wf
  | .cycleCommit h _ _ _ _ => h.wf
  | .cycleCancel h => h.wf
  | .cycDiscard h _ => h.wf
  | .cycleCommitForce h _ _ _ => h.wf
  | .commitMismatchCheck => true
  | .sysGet h => h.wf
  | .sensorGet h => h.wf
  | .updateBegin h _ => h.wf
  | .updateEraseDone => true
  | .updateData h _ _ => h.wf
  | .updateCommit h _ => h.wf
  | .updateVerifyDone _ => true
  | .updateAbort h => h.wf
  | .updateStatusGet h => h.wf
  | .cfgSave h => h.wf
  | .cfgBoardSet h _ => h.wf
  | .cfgFactory h => h.wf
  | .storeStatusGet h => h.wf
  | .logRead h _ _ => h.wf
  | .logSet h _ => h.wf
  | .feedForce h _ => h.wf
  | .storeWriteDone => true
  | .regRead h _ _ => h.wf
  | .regWrite h _ => h.wf
  | .evtGet h => h.wf
  | .evtClear h _ => h.wf
  | .evtMaskSet h _ _ => h.wf
  | .evtRouteSet h _ _ => h.wf
  | .freeze h => h.wf
  | .ctxNop h => h.wf
  | .levelSet h _ _ => h.wf
  | .roleSet h _ _ => h.wf
  | .ctxGet h _ => h.wf
  | .ctxBind h _ _ _ _ _ => h.wf
  | .ctxKeySet h _ _ => h.wf
  | .ctxReset h _ => h.wf
  | .reinTake h _ _ => h.wf
  | .reinDrop h _ => h.wf
  | .reinGet h => h.wf
  | .ownSet h _ _ _ _ => h.wf
  | .ownGet h _ _ _ => h.wf
  | .reinBreak h _ => h.wf
  | .leaseExpiry => true
  | .hcxDoorbell c _ => decide (c < 4)
  | .sqEntryRead c _ => decide (c < 4)
  | .cqSlotFreed c _ => decide (c < 4)
  | .queueDmaError c _ => decide (c < 4)
  | .spiWrite c _ => decide (4 ≤ c) && decide (c < 6)
  | .spiRead c _ => decide (4 ≤ c) && decide (c < 6)
  | .spiStatus c => decide (4 ≤ c) && decide (c < 6)
  | .spiReset c _ => decide (4 ≤ c) && decide (c < 6)
  | .spiVoidTransaction c => decide (4 ≤ c) && decide (c < 6)
  | .inBandCommandFrame port _ => decide (port < 28)
  | .eventFrameRepeat c => decide (c < 8)
  | .pcieFlr c => decide (c < 4)
  | .pcieLinkLoss => true
  | .perstNAssert => true
  | .rstNAssert _ => true
  | .sysResetModuleReset c _ => decide (c < 8)
  | .sysResetFirmwareRestart c _ => decide (c < 8)
  | .watchdogRestart => true
  | .powerUp _ _ => true
  | .lossOfPower => true
  | .resetHoldEnd _ => true
  | .boot _ _ => true
  | .firmwareReady => true
  | .bootConfirm => true
  | .frzNAssert _ => true
  | .freezeEnter => true
  | .thermalStop sensor => decide (sensor < 8)
  | .dgFirstWrite c _ _ => decide (c < 8)
  | .dgPairTimeout c => decide (c < 8)
  | .sysFreezeEnWrite c _ => decide (c < 8)
  | .sysTapUnlock c _ => decide (c < 8)
  | .sysTapLock c _ => decide (c < 8)
  | .tsuEpochReset c _ => decide (c < 8)
  | .mgtFeedForce c _ => decide (c < 8)
  | .mgtLaserOvr c _ => decide (c < 8)
  | .memStoreErase c _ => decide (c < 8)
  | .regWriteGeneric c _ _ _ => decide (c < 8)
  | .pairLoRead c _ => decide (c < 8)
  | .pairLoWrite c _ _ => decide (c < 8)
  | .tsuRawLoRead c => decide (c < 8)
  | .tsuGenRead c dom => decide (c < 8) && decide (dom < 2)
  | .ftRawLoRead c => decide (c < 8)
  | .ftGenRead c dom => decide (c < 8) && decide (dom < 2)
  | .portHalterRx0Read c port => decide (c < 8) && decide (port < 24)
  | .pmcChainRead c m => decide (c < 8) && decide (m < 16)
  | .tblLrnPop c queue => decide (c < 8) && decide (queue < 8)
  | .iuResPop c unit => decide (c < 8) && decide (unit < 4)
  | .tblRdSel c _ => decide (c < 8)
  | .cycRdSel c _ => decide (c < 8)
  | .portCommit c port => decide (c < 8) && decide (port < 24)
  | .swcCommit c => decide (c < 8)
  | .arbCommit c => decide (c < 8)
  | .arbCommitApply => true
  | .portEnableWrite c port _ => decide (c < 8) && decide (port < 28)
  | .portCapAdvWrite c port _ => decide (c < 8) && decide (port < 24)
  | .clkSynCfgWrite c n _ => decide (c < 8) && decide (n < 8)
  | .swcSampleWrite c port _ => decide (c < 8) && decide (port < 28)
  | .hcxRingTailWrite c ring _ _ => decide (c < 4) && decide (ring < 4)
  | .txRingTimeout c ring => decide (c < 4) && decide (2 ≤ ring) && decide (ring < 4)
  | .ringDmaError c ring => decide (c < 4) && decide (ring < 4)
  | .txTimestampWriteback c ring => decide (c < 4) && decide (2 ≤ ring) && decide (ring < 4)
  | .evtRearmWrite c => decide (c < 8)
  | .eventHoldoffExpiry c => decide (c < 4)
  | .logSuppressReport => true
  | .savedStateHourlyWrite => true
  | .tgCtrlArmWrite c gen _ => decide (c < 8) && decide (gen < 16)
  | .tgCtrlDisarmWrite c gen _ => decide (c < 8) && decide (gen < 16)
  | .iuCtrlArm c unit => decide (c < 8) && decide (unit < 4)
  | .iuCtrlDisarm c unit => decide (c < 8) && decide (unit < 4)
  | .iuCtrlFlush c unit => decide (c < 8) && decide (unit < 4)
  | .pmcSelWrite c m _ => decide (c < 8) && decide (m < 16)
  | .piPayloadWrite c _ _ => decide (c < 4)
  | .piSeqWrite c slot _ => decide (c < 4) && decide (slot < 4096)
  | .tapExtest => true
  | .tapIdcode => true
  | .tapSamplePreload => true
  | .tapWaferRead _ => true
  | .tapMemAddr _ => true
  | .tapMemRead _ => true
  | .tapFrzStatus => true
  | .tapBypass => true
  | .feedFailover _ => true
  | .feedHandoverComplete _ => true
  | .feedPresenceChange feed _ => decide (feed < 2)
  | .feedLockout feed => decide (feed < 2)
  | .sensorRead _ => true
  | .ovenReady => true
  | .ovenOor _ => true
  | .ovenWarmFail => true
  | .lossOfSignal port => decide (port < 24)
  | .signalDetect port => decide (port < 24)
  | .receiverSettled port => decide (port < 24)
  | .receiverSettleTimeout port => decide (port < 24)
  | .markReceive port _ _ => decide (port < 24)
  | .missedMark port => decide (port < 24)
  | .markSend port => decide (port < 24)
  | .crumbDue port => decide (port < 24)
  | .crumbForced port => decide (port < 24)
  | .crumbDelete port _ => decide (port < 24)
  | .crumbInsert port _ => decide (port < 24)
  | .elasticOverrun port _ => decide (port < 24)
  | .controlBeatDiscard port _ _ => decide (port < 24)
  | .frameReceive port _ => decide (port < 28)
  | .fillCrumbAbort port => decide (port < 24)
  | .preemptReceive port _ => decide (port < 24)
  | .resumeReceive port => decide (port < 24)
  | .inboundFile => true
  | .cellSlot => true
  | .headSweep => true
  | .dramReturn queue _ => decide (queue < 256)
  | .overflowRecordWrite => true
  | .dramSlotDraw _ => true
  | .dramReadyChange _ => true
  | .bufferEccError _ => true
  | .reservedConnectionSetup port index => decide (port < 32) && decide (index < 1024)
  | .gateEntryStart port index => decide (port < 32) && decide (index < 1024)
  | .gateEntryEnd port => decide (port < 32)
  | .frameTransmit port _ _ _ => decide (port < 28)
  | .mPortTxAttempt port _ => decide (24 ≤ port) && decide (port < 28)
  | .mPortCollision port _ => decide (24 ≤ port) && decide (port < 28)
  | .mPortBackoffExpiry port => decide (24 ≤ port) && decide (port < 28)
  | .segmentFault port => decide (24 ≤ port) && decide (port < 28)
  | .segmentRetry port _ => decide (24 ≤ port) && decide (port < 28)
  | .sgmiiInbandWord port _ _ => decide (port < 24)
  | .stdBlockLockChange port _ => decide (port < 24)
  | .laserFault port => decide (port < 16)
  | .qualityUpdate port _ => decide (port < 24)
  | .halterSend port => decide (port < 24)
  | .halterPeriodic port => decide (port < 24)
  | .halterReceive port _ => decide (port < 24)
  | .halterTimeout port => decide (port < 24)
  | .messageDiscard port _ => decide (port < 24)
  | .dozeEntry port => decide (port < 24)
  | .dozeReceive port => decide (port < 24)
  | .dozeWake port => decide (port < 24)
  | .trainAlignment port _ => decide (port < 24)
  | .timeReqSend port _ => decide (port < 24)
  | .timeReqReceive port _ _ _ => decide (port < 24)
  | .timeRespReceive port _ _ => decide (port < 24)
  | .exchangeLost port => decide (port < 24)
  | .infoSend port dom => decide (port < 24) && decide (dom < 2)
  | .infoReceive port _ => decide (port < 24)
  | .infoVoid port dom => decide (port < 24) && decide (dom < 2)
  | .upstreamSelect dom => decide (dom < 2)
  | .upstreamChange dom => decide (dom < 2)
  | .firstLockTimeout dom => decide (dom < 2)
  | .traceHoldExpiry dom => decide (dom < 2)
  | .vernierFitLoss port => decide (port < 24)
  | .ppsAlignMeasure dom _ => decide (dom < 2)
  | .timeSwitchStart => true
  | .slewEnd => true
  | .targetReconvert => true
  | .ptpMessageReceive port _ => decide (port < 28)
  | .ptpIntervalSend port _ dom => decide (port < 28) && decide (dom < 2)
  | .ptpAnnounceSend port dom => decide (port < 28) && decide (dom < 2)
  | .announceReceiptTimeout port => decide (port < 28)
  | .dpllComparison _ _ => true
  | .referenceQualification _ => true
  | .referenceLost index => decide (index < 6)
  | .autoDecision => true
  | .rselChange _ => true
  | .referenceSwitchDone _ => true
  | .synthLock n _ _ => decide (n < 8)
  | .synthLockRetry n => decide (n < 8)
  | .lineSynthUnlock n => decide (n < 6)
  | .coreSynthUnlock => true
  | .dramSynthUnlock => true
  | .protSwitch pair => decide (pair < 16)
  | .protWtrReturn pair => decide (pair < 16)
  | .ageScanVisit index => decide (index < 262144)
  | .learnFilterExpiry => true
  | .shadowCompareUnit => true
  | .tableEccError _ => true
  | .tgFire gen => decide (gen < 16)
  | .tgPulseEnd gen => decide (gen < 16)
  | .cycGenAutoArm => true
  | .cycleStart => true
  | .launchCapture slot => decide (slot < 4096)
  | .launch slot _ => decide (slot < 4096)
  | .iuStartEdge unit _ _ => decide (unit < 4)
  | .iuStopEdge unit _ _ => decide (unit < 4)
  | .iuGateEdge unit _ => decide (unit < 4)
  | .iuConversionDone unit => decide (unit < 4)
  | .iuDeadTimeEnd unit => decide (unit < 4)
  | .iuWindowExpiry unit => decide (unit < 4)
  | .iuStopOverflow unit => decide (unit < 4)
  | .pmuCounterWrap m => decide (m < 16)
  | .fixedCounterWrap n => decide (n < 512)
  | .firmwareStop => true
  | .mPortEntersUp port => decide (24 ≤ port) && decide (port < 28)
  | .feedLockoutEnd feed => decide (feed < 2)
  | .fineValidReturn port => decide (port < 24)

end Sys2Proof
end

