-- ==== Sys2Proof/Safety.lean ====
section
/-! DEFINITION. What claims say of states and steps: an admitted command, the running block, the invariants. -/

namespace Sys2Proof

open Machine Host

/-- Exactly one of the eight contexts is PRINCIPAL (R15, R337). -/
def OnePrincipal (s : State) : Prop := ∃ c, c < 8 ∧ ∀ d, s.role d = .principal ↔ d = c

/-- The process image is in its canonical form: addresses rise strictly and no zero is listed (R178, R180). -/
def ImageWf (s : State) : Prop := Memory.wf s.cyc.image = true

/-- What every step keeps. -/
def Inv (s : State) : Prop := OnePrincipal s ∧ ImageWf s

/-- A command with header `h` and opcode `op` that needs `n` is executed and not turned away: its context exists and has
room for a reply (R323, R325), the firmware serves commands (R350), checks 5 to 11 of R333 pass at its reception, and
the module is not in recovery, or the command is one that recovery serves (R389). -/
def Admitted (s : State) (h : CmdHdr) (op : Nat) (n : Need) : Prop :=
  h.ctx < 8 ∧ s.fwOn = true ∧ s.hasRoom h.ctx = true ∧ (s.receive h op).check h op n = none ∧
    ((s.receive h op).bitAt Reg.mgtStat 1 = true → recoveryAdmits h.ctx op = true)

/-- The block stops at the command. -/
def Stops (i : Instr) (s : State) : Prop := ∀ t, exec i s ≠ .next t

end Sys2Proof
end

