-- ==== Sys2Proof/Certificates/Slice0/Obligations.lean ====
section
/-! DEFINITION. The statements for the provers: what the spec's rules say a command or the block does. -/

open Sys2Proof Sys2Proof.Machine Host

/-- R327, R335, R348: CTX_NOP, LEVEL_SET, CTX_GET, REIN_GET, OWN_GET, CTX_KEY_SET, CTX_RESET and CTX_BIND complete, each with
its own effect on the state at reception and its own reply (replies as lists of fields, log 4). -/
def Obligations.ContextCommandsComplete : Prop :=
  (∀ (s : State) (h : CmdHdr),
    (Admitted s h 0x0A00 { role := .any } →
      exec (.ctxNop h) s = .next ((s.receive h 0x0A00).answerOk h 0x0A00 [])) ∧
    (∀ level, level < 2 → Admitted s h 0x0A01 { role := .any } →
      exec (.levelSet h level (255 - level)) s
        = .next (((s.receive h 0x0A01).onCx h.ctx fun x => { x with expert := decide (level = 1) }).answerOk h 0x0A01 [])) ∧
    (∀ target, target < 8 → Admitted s h 0x0A03 { role := .any } →
      exec (.ctxGet h target) s = .next ((s.receive h 0x0A03).reply h.ctx 0x0A03 h.tag St.ok
        ([((s.receive h 0x0A03).role target).num, b2n ((s.receive h 0x0A03).cx target).expert, target,
            ((s.receive h 0x0A03).rd (Reg.hcxBind target)).toNat, ((s.receive h 0x0A03).cx target).mac]
          ++ ((List.range 64).filter ((s.receive h 0x0A03).holds target)).flatMap (fun r => [r, (s.receive h 0x0A03).leaseLeft r])
          ++ [((s.receive h 0x0A03).ctxStat target).toNat, ((s.receive h 0x0A03).rd (Reg.hcxSeqGaps target)).toNat,
              ((s.receive h 0x0A03).rd (Reg.hcxCmdCount target)).toNat, ((s.receive h 0x0A03).rd (Reg.hcxAuthFail target)).toNat]) false)) ∧
    (Admitted s h 0x0A12 { role := .any } →
      exec (.reinGet h) s = .next ((s.receive h 0x0A12).reply h.ctx 0x0A12 h.tag St.ok
        ((List.range 64).flatMap fun r => [(((s.receive h 0x0A12).rein r).map (·.holder)).getD 0xFF, (s.receive h 0x0A12).leaseLeft r])
        false)) ∧
    (∀ kind first count, kind < 7 → 0 < count →
      (∀ i, i < count → first + i < ownCount kind ∧ (kind = 0 → (s.receive h 0x0A21).exists (first + i))) →
      Admitted s h 0x0A21 { role := .any } →
      exec (.ownGet h kind first count) s = .next ((s.receive h 0x0A21).reply h.ctx 0x0A21 h.tag St.ok
        ((List.range count).map fun i => ((s.receive h 0x0A21).owner kind (first + i)).getD 0xFF) false)) ∧
    (∀ target key, target = 6 ∨ target = 7 → key.length = 32 → h.ctx < 6 → Admitted s h 0x0A05 { role := .prin, reins := [0] } →
      exec (.ctxKeySet h target key) s
        = .next (((s.receive h 0x0A05).onCx target fun x => { x with key := if key.all (· == 0) then [] else key }).answerOk h 0x0A05 [])) ∧
    (∀ target, target < 8 → target ≠ h.ctx → Admitted s h 0x0A06 { role := .prin } →
      exec (.ctxReset h target) s = .next (((s.receive h 0x0A06).ctxReset target true).answerOk h 0x0A06 []))) ∧
  (∀ (s : State) (h : CmdHdr) (target port vid mac : Nat),
    (target = 6 ∨ target = 7) → Admitted s h 0x0A04 { role := .prin, reins := [0, 9] } →
      exec (.ctxBind h target port vid mac true) s
        = .next ((((s.receive h 0x0A04).unbind target).ctxReset target true).answerOk h 0x0A04 []) ∧
      (port < 28 → (s.receive h 0x0A04).exists port = true → 1 ≤ vid → vid ≤ 4094 → mac < 2 ^ 48 → mac / 2 ^ 40 % 2 = 0 →
        (s.receive h 0x0A04).bitAt (Reg.hcxBind (13 - target)) 7 = false →
        ∀ u, (s.receive h 0x0A04).bind target port vid mac = .done [] u →
          exec (.ctxBind h target port vid mac false) s = .next (u.answerOk h 0x0A04 []) ∧
          u.rd (Reg.hcxBind target) = w32 (port + 128 + vid * 256) ∧ (u.cx target).mac = mac ∧ (u.cx target).vid = vid))

/-- R337: ROLE_SET gives the target its role; giving PRINCIPAL makes the caller OPERATOR in the same step; a new OBSERVER loses
its reins; source 240 is raised. Naming the caller returns STATE. Context resets keep the roles, and a module reset restores
R15. -/
def Obligations.RoleSetGivesRole : Prop := (∀ (s : State) (h : CmdHdr) (target role : Nat), target < 8 → role < 3 → target ≠ h.ctx → Admitted s h 0x0A02 { role := .prin } →
    ∃ t, exec (.roleSet h target role) s = .next t ∧ t.role target = roleOf role ∧
      t.role h.ctx = (if role = 2 then .operator else s.role h.ctx) ∧
      (∀ d, d ≠ target → d ≠ h.ctx → t.role d = s.role d) ∧
      (role = 0 → ∀ r, r < 64 → (s.rein r).map (·.holder) = some target → t.rein r = none) ∧
      (s.role target ≠ roleOf role → ∀ c, c < 8 → (s.receive h 0x0A02).bitAt (Reg.evtRoute 240) c = true →
        t.bitAt (Reg.evtStat c 7) 16 = true)) ∧
  (∀ (s : State) (h : CmdHdr) (role : Nat), role < 3 → Admitted s h 0x0A02 { role := .prin } →
    exec (.roleSet h h.ctx role) s = .next ((s.receive h 0x0A02).reply h.ctx 0x0A02 h.tag St.state [] false)) ∧
  (∀ (s : State) (c : Nat) (rings : Bool), (s.ctxReset c rings).roles = s.roles) ∧
  (∀ (s : State) (cause c : Nat), (s.moduleReset cause).role c = if c = 0 then .principal else .observer)

/-- R338: OWN_SET on ports, stream entries and slots changes the owner of exactly the named resources. -/
def Obligations.OwnSetTransfers : Prop := ∀ (s : State) (h : CmdHdr) (kind first count owner : Nat),
  kind < 4 → 0 < count → owner < 8 → (∀ i, i < count → (s.receive h 0x0A20).ownable kind (first + i) = true) →
  Admitted s h 0x0A20 { role := .prin, reins := [0] } →
    ∃ t, exec (.ownSet h kind first count owner) s = .next t ∧
      (∀ i, first ≤ i → i < first + count → t.owner kind i = some owner) ∧
      (∀ k i, k < 4 → i < 65536 → (k ≠ kind ∨ i < first ∨ first + count ≤ i) → t.owner k i = s.owner k i)

/-- R340, R343: REIN_TAKE gives every listed rein to the caller with the lease, and leaves every other holder. REIN_DROP frees
the named reins, and REIN_BREAK frees them of any holder. The lease test releases every rein whose lease has ended, and no
other. -/
def Obligations.ReinCommandsComplete : Prop :=
  (∀ (s : State) (h : CmdHdr) (reins : List Nat),
    (∀ lease, (lease = 0 ∨ (10 ≤ lease ∧ lease ≤ 60000)) → 1 ≤ reins.length → reins.length ≤ 64 →
      (∀ r ∈ reins, (s.receive h 0x0A10).reinGone r = false) → (s.receive h 0x0A10).orderBreak h.ctx reins = none →
      Admitted s h 0x0A10 { role := .oper, reins := reins } →
      ∃ t, exec (.reinTake h lease reins) s = .next t ∧ ∀ r,
        t.rein r = if r ∈ reins then
            some { holder := h.ctx, lease := if lease = 0 then 2000 else lease,
                   ends := s.uptime + (if lease = 0 then 2000 else lease) * 1000000 }
          else (s.receive h 0x0A10).rein r) ∧
    ((∀ r ∈ reins, (s.receive h 0x0A11).reinGone r = false ∧ (s.receive h 0x0A11).holds h.ctx r = true) →
      Admitted s h 0x0A11 { role := .oper } →
      ∃ t, exec (.reinDrop h reins) s = .next t ∧ ∀ r, t.rein r = if r ∈ reins then none else (s.receive h 0x0A11).rein r) ∧
    ((∀ r ∈ reins, (s.receive h 0x0A90).reinGone r = false) → Admitted s h 0x0A90 { role := .prin } →
      ∃ t, exec (.reinBreak h reins) s = .next t ∧ ∀ r, t.rein r = if r ∈ reins then none else (s.receive h 0x0A90).rein r)) ∧
  (∀ s : State, s.fwOn = true →
    ∃ t, exec .leaseExpiry s = .next t ∧ ∀ r, r < 64 →
      t.rein r = match s.rein r with
        | none => none
        | some x => if x.ends ≤ s.uptime then none else some x)

/-- R321 to R326: a doorbell moves the SQ tail; the firmware reads the slot at the SQ head and advances it; a write of
HCX_CQ_HEAD frees slots; an error on the queues stops them; the SPI transactions hand over packets, replies and status. -/
def Obligations.TransportsComplete : Prop := ∀ (s : State) (c : Nat), s.life = .up →
  (∀ v : Word, c < 4 → s.bitAt (Reg.hcxQCtrl c) 0 = true → v.toNat < s.fld (Reg.hcxSqSize c) 0 7 → v.toNat < 64 →
    exec (.hcxDoorbell c v) s = .next (s.onCx c fun x => { x with sqTail := v.toNat })) ∧
  (∀ slot, c < 4 → s.mgt.fw = .ready → s.bitAt (Reg.hcxQCtrl c) 0 = true → s.hasRoom c = true →
    (s.cx c).sqTail ≠ s.fld (Reg.hcxSqHead c) 0 6 →
    exec (.sqEntryRead c slot) s = .next
      ((s.wr (Reg.hcxSqHead c) (w32 ((s.fld (Reg.hcxSqHead c) 0 6 + 1) % s.fld (Reg.hcxSqSize c) 0 7))).deliverPacket c
        (slot.take (20 + leNat (slice slot 6 2))) false)) ∧
  (∀ v, c < 4 → exec (.cqSlotFreed c v) s = .next (s.cqHead c v)) ∧
  (c < 4 → ∃ t : State, exec (.queueDmaError c false) s = .next (t.raise (243 + c)) ∧ t.bitAt (Reg.hcxQCtrl c) 0 = false ∧
    t.bitAt (Reg.hcxStat c) 9 = true ∧ (t.cx c).held = (s.cx c).held.dropLast) ∧
  (∀ bs, c = 4 ∨ c = 5 → 16 ≤ bs.length → s.mgt.fw = .ready → (s.cx c).held.length < 2 →
    exec (.spiWrite c bs) s = .next (s.deliverPacket c bs true)) ∧
  (∀ r rest n, c = 4 ∨ c = 5 → (s.cx c).replies = r :: rest →
    (2 + (r.spi c).length ≤ n →
      exec (.spiRead c n) s = .next (s.onCx c fun x => { x with miso := misoBytes (r.spi c) n, replies := rest })) ∧
    (n < 2 + (r.spi c).length →
      exec (.spiRead c n) s = .next (s.onCx c fun x => { x with miso := misoBytes (r.spi c) n, replies := r :: rest }))) ∧
  (c = 4 ∨ c = 5 → exec (.spiStatus c) s
    = .next (s.onCx c fun x => { x with miso := [BitVec.ofNat 8 (s.spiStatusByte c)], dropped := false, framing := false })) ∧
  (c = 4 ∨ c = 5 → exec (.spiReset c 0xF0) s = .next (s.ctxReset c true)) ∧
  (c = 4 ∨ c = 5 → exec (.spiVoidTransaction c) s = .next (s.onCx c fun x => { x with framing := true }))

/-- R328, R339, R369: a command frame to a bound MAC is checked; a pending in-band context is sent its event frame again; a
function-level reset, a loss of the PCIe link and PERST_N reset their contexts. A command frame from a port other than the bound
one counts in HCX_AUTH_FAIL and has no other effect. -/
def Obligations.InBandAndPcieComplete : Prop :=
  (∀ (s : State), s.life = .up →
    (∀ port frame c, port < 28 → s.absent port = false → s.mgt.fw = .ready → (∀ o, o = (if beNat (slice frame 12 2) = 0x8100 then 16 else 12) →
        beNat (slice frame o 2) = 0x88B5 ∧ frame.getD (o + 2) 0 = 1 ∧ frame.getD (o + 3) 0 = 0) → (c = 6 ∨ c = 7) → s.bitAt (Reg.hcxBind c) 7 = true →
      (s.cx c).mac = beNat (slice frame 0 6) → (c = 7 → s.bitAt (Reg.hcxBind 6) 7 = true → (s.cx 6).mac ≠ (s.cx 7).mac) →
      exec (.inBandCommandFrame port frame) s = .next (s.inBand c port frame)) ∧
    (∀ c, 6 ≤ c → c < 8 → s.mgt.fw = .ready → s.evtPending c = true →
      ((s.cx c).lastMsg.all fun r => decide (r + 1250000000 ≤ s.now)) = true → exec (.eventFrameRepeat c) s = .next (s.eventFrame c)) ∧
    (∀ c, c < 4 → exec (.pcieFlr c) s = .next (s.ctxReset c true)) ∧
    exec .pcieLinkLoss s = .next ((((s.ctxReset 0 true).ctxReset 1 true).ctxReset 2 true).ctxReset 3 true) ∧
    exec .perstNAssert s = .next ((((s.ctxReset 0 true).ctxReset 1 true).ctxReset 2 true).ctxReset 3 true)) ∧
  (∀ (s : State) (c p : Nat) (f : List Byte), s.fld (Reg.hcxBind c) 0 5 ≠ p → s.inBand c p f = s.count (Reg.hcxAuthFail c) 242)

/-- R331, R333: a packet of a transport that passes the checks of length, CRC and opcode waits in its context, last in line. -/
def Obligations.PacketIsHeld : Prop := ∀ (s : State) (c : Nat) (bs : List Byte), c < 8 →
  16 ≤ bs.length → leNat (slice bs 6 2) ≤ 4072 → bs.length = 20 + leNat (slice bs 6 2) →
  crc32c (bs.take (16 + leNat (slice bs 6 2))) = BitVec.ofNat 32 (leNat (slice bs (16 + leNat (slice bs 6 2)) 4)) →
  leNat (slice bs 12 4) = 0 → bs.getD 0 0 &&& 0x0C = 0 → bs.getD 0 0 >>> 4 = 1 → leNat (slice bs 2 2) ∈ opcodes →
    ((s.deliverPacket c bs true).cx c).held
      = (s.cx c).held ++ [{ op := leNat (slice bs 2 2), tag := leNat (slice bs 4 2), flags := bs.getD 0 0 &&& 3, at_ := s.raw }] ∧
    ((s.deliverPacket c bs true).cx c).expSeq = some ((leNat (slice bs 8 4) + 1) % 2 ^ 32)

/-- R386, R404: while the block is not up no host command runs: it stays as it was. R333: a command that fails a check is
answered the status of the first check that fails, and has no other effect. R333: a command passes checks 5 to 11 exactly where
its level, its role, its resources, their owners, the order of reins, the reins and its fields all pass. -/
def Obligations.CommandsAreChecked : Prop :=
  (∀ (s : State) (h : CmdHdr) (op : Nat) (need : State → Need) (body : State → CmdEnd),
    h.ctx < 8 →
    (s.life ≠ .up → s.cmd h op need body = .next s) ∧
    (∀ st ps, s.fwOn = true → s.hasRoom h.ctx = true → (s.receive h op).check h op (need (s.receive h op)) = some (st, ps) →
      s.cmd h op need body = .next ((s.receive h op).reply h.ctx op h.tag st ps false))) ∧
  (∀ (s : State) (h : CmdHdr) (op : Nat) (n : Need),
    s.check h op n = none ↔
      (h.expert = decide (op / 128 % 2 = 1) ∧ (op / 128 % 2 = 1 → (s.cx h.ctx).expert = true)) ∧ (s.role h.ctx).may n.role = true ∧
      n.gone = none ∧ (∀ k ∈ n.owned, s.owner k.1 k.2 = some h.ctx) ∧ n.order = none ∧ (∀ r ∈ n.reins, s.freeFor h.ctx r = true) ∧ n.bad = none)

/-- R328, R331, R346, R367: receiving a command and answering it change no role, rein holder, owner, port, time, switch, table,
cycle, clock or unit state, and no register beside the context's command count, the CQ tail and the event status. -/
def Obligations.AnswersLeaveTheRest : Prop := ∀ (s : State) (h : CmdHdr) (op c tag st : Nat) (ps : List Nat) (d : Bool) (t : State), h.ctx < 8 → c < 8 →
  t = s.receive h op ∨ t = s.reply c op tag st ps d →
    t.roles = s.roles ∧ (∀ r, (t.rein r).map (·.holder) = (s.rein r).map (·.holder)) ∧ t.owners = s.owners ∧ t.port = s.port ∧ t.ptime = s.ptime ∧
    t.tim = s.tim ∧ t.sw = s.sw ∧ t.tbl = s.tbl ∧ t.cyc = s.cyc ∧ t.clk = s.clk ∧ t.iu = s.iu ∧ t.tg = s.tg ∧ t.deferred = s.deferred ∧
    t.raw = s.raw ∧ t.uptime = s.uptime ∧ t.epoch = s.epoch ∧ t.life = s.life ∧ t.mgt.fw = s.mgt.fw ∧ t.pendK = s.pendK ∧
    (∀ a, a ≠ Reg.hcxCmdCount h.ctx → a ≠ Reg.hcxCqTail c → (∀ e j, e < 8 → j < 8 → a ≠ Reg.evtStat e j) → (∀ m, m < 16 → a ≠ Reg.pmcSel m ∧ a ≠ Reg.pmuOvf m) →
      a ≠ Reg.pmuSmpStat → a ≠ Reg.pmuSmpRawLo → a ≠ Reg.pmuSmpRawHi → a ≠ Reg.pmuSmpPc → t.rd a = s.rd a)

/-- R60, R75, R77, R85, R87: PORT_SET, PORT_HALTER_GET, PORT_QUALITY_GET, PORT_LINE_EXPERT_SET, PORT_EQ_EXPERT_SET,
CFG_BOARD_SET and PORT_FRAME_SET complete. PORT_FRAME_SET takes effect at once on a port that receives no frame, and its values
read back. -/
def Obligations.PortCommandsComplete : Prop :=
  (∀ (s : State) (h : CmdHdr) (p : Nat),
    (∀ flags, flags < 2 → p < 28 → (s.receive h 0x0101).exists p = true → modeFits p 0 = true →
      Admitted s h 0x0101 { owned := [(0, p)], reins := [portRein p] } →
      exec (.portSet h p 0 flags) s = .next ((((s.receive h 0x0101).writePhyCtrl p
        (putFld ((s.receive h 0x0101).rd (Reg.portPhyCtrl p)) 0 1 0)).setFld (Reg.portPhyStat p) 4 1 0).answerOk h 0x0101 [])) ∧
    (∀ mode flags m, flags < 2 → p < 24 → (s.receive h 0x0101).exists p = true → modeFits p mode = true → modeOf mode = some m →
      (16 ≤ p → (s.receive h 0x0101).boardFault p m.family = none) →
      (m.family = (s.receive h 0x0101).synFamily (groupOf p) ∨ (s.receive h 0x0101).groupBusy p = false ∨ flags = 1) →
      Admitted s h 0x0101 { owned := [(0, p)], reins := [portRein p] } →
      exec (.portSet h p mode flags) s = .next (((s.receive h 0x0101).applyMode p m).answerOk h 0x0101 [])) ∧
    (∀ r, p < 24 → s.absent p = false → (s.receive h 0x0105).native p = true → ((s.receive h 0x0105).pt p).halterAt = some r →
      Admitted s h 0x0105 { role := .any } →
      exec (.portHalterGet h p) s = .next ((s.receive h 0x0105).reply h.ctx 0x0105 h.tag St.ok
        ((List.range 12).map ((s.receive h 0x0105).halterWord p) ++
          [((s.receive h 0x0105).now - r) / 1250000, ((s.receive h 0x0105).rd (Reg.portHalterStat p)).toNat]) false)) ∧
    (p < 24 → s.absent p = false → (s.receive h 0x0105).native p = true → ((s.receive h 0x0105).pt p).halterAt = none →
      Admitted s h 0x0105 { role := .any } →
      ∃ age, exec (.portHalterGet h p) s = .next ((s.receive h 0x0105).drawn.reply h.ctx 0x0105 h.tag St.ok
        ((List.range 12).map ((s.receive h 0x0105).halterWord p) ++ [age, ((s.receive h 0x0105).rd (Reg.portHalterStat p)).toNat]) false)) ∧
    (p < 28 → (s.receive h 0x0106).exists p = true → Admitted s h 0x0106 { role := .any } →
      exec (.portQualityGet h p) s = .next ((s.receive h 0x0106).reply h.ctx 0x0106 h.tag St.ok
        [((s.receive h 0x0106).phyStat p).toNat, ((s.receive h 0x0106).rd (Reg.portQual0 p)).toNat,
         (if p < 24 then ((s.receive h 0x0106).rd (Reg.portQual1 p)).toNat else 0), ((s.receive h 0x0106).rd (Reg.portOpt0 p)).toNat,
         (if p < 16 then ((s.receive h 0x0106).rd (Reg.portOpt1 p)).toNat else 0)] false)) ∧
    (∀ pe de idle mask, p < 24 → s.absent p = false → (s.receive h 0x0184).native p = true → idle < 65536 → mask < 256 →
      Admitted s h 0x0184 { owned := [(0, p)], reins := [portRein p] } →
      ∃ t u : State, exec (.portLineExpertSet h p pe de idle mask) s = .next (t.answerOk h 0x0184 []) ∧
        t = (u.setFld (Reg.portCapAdv p) 0 8 mask).onPt p (fun x => { x with halterDue := true }) ∧
        u.fld (Reg.portLineCtrl p) 0 1 = b2n pe ∧ u.fld (Reg.portLineCtrl p) 1 1 = b2n de ∧ u.fld (Reg.portLineCtrl p) 16 16 = idle) ∧
    (∀ tx rx dig, 16 ≤ p → p < 24 → (s.receive h 0x0185).exists p = true → Admitted s h 0x0185 { owned := [(0, p)], reins := [portRein p] } →
      exec (.portEqExpertSet h p tx rx dig) s = .next ((((((s.receive h 0x0185).stage (Reg.portEqTx p) tx).stage (Reg.portEqRx p) rx).stage
        (Reg.portEqDig p) dig).portCommit p).answerOk h 0x0185 [])) ∧
    (∀ entry : List Byte, entry.length = 32 → (entry.getD 0 0).toNat < 8 →
      Admitted s h 0x0811 { owned := [(0, 16 + (entry.getD 0 0).toNat)], reins := [portRein (16 + (entry.getD 0 0).toNat), 16] } →
      exec (.cfgBoardSet h entry) s = .next (({ s.receive h 0x0811 with
        boards := Tab.set (fun _ => []) (s.receive h 0x0811).boards (entry.getD 0 0).toNat entry } : State).answerOk h 0x0811 []))) ∧
  (∀ (s : State) (h : CmdHdr) (p m : Nat) (ct : Bool),
    (p < 24 ∧ 1518 ≤ m ∧ m ≤ 9216) ∨ (24 ≤ p ∧ p < 28 ∧ m = 1522) → (s.receive h 0x0107).exists p = true → (s.pt p).rxOpen = false →
    Admitted s h 0x0107 { owned := [(0, p)], reins := [portRein p] } →
      ∃ t, exec (.portFrameSet h p m ct) s = .next t ∧ t.fld (Reg.portMaxfrm p) 0 14 = m ∧ t.bitAt (Reg.portFrmCtrl p) 0 = ct)

/-- R36 to R38, R84: signal, settling and MARKs move a port through its line states. -/
def Obligations.LineStatesComplete : Prop := ∀ (s : State) (p : Nat), s.life = .up → p < 24 →
  (s.absent p = false → (p < 16 ∨ s.bitAt (Reg.portLineStat p) 4 = false) →
    exec (.lossOfSignal p) s = .next ((((s.setFld (Reg.portPhyStat p) 0 1 0).setFld (Reg.portLineStat p) 3 1 1).onPt p
      (fun x => { x with hardFault := true })).toLos p)) ∧
  (s.absent p = false → s.enabled p = true → s.synLocked p = true → s.bitAt (Reg.portPhyStat p) 4 = false →
    s.bitAt (Reg.portPhyStat p) 8 = false → (s.pt p).laserHeld = false → s.lineState p = 0 →
    ∃ t, exec (.signalDetect p) s = .next t ∧ t.lineState p = 1 ∧ t.bitAt (Reg.portPhyStat p) 0 = true ∧ (t.pt p).settleAt = s.now) ∧
  (s.lineState p = 1 → ∃ t, exec (.receiverSettled p) s = .next t ∧ t.lineState p = 2 ∧ (t.pt p).marks = 0 ∧
    ∀ a, a ≠ Reg.portLineStat p → t.rd a = s.rd a) ∧
  (s.lineState p = 1 → (s.pt p).settleAt + 625000 ≤ s.now →
    exec (.receiverSettleTimeout p) s = .next (s.onPt p fun x => { x with settleAt := s.now })) ∧
  (∀ q, s.native p = true → (s.pt p).up = false → s.lineState p = 2 → (s.pt p).marks = 3 →
    ∃ t, exec (.markReceive p q markGap) s = .next t ∧ (t.pt p).up = true ∧ (t.pt p).markSeq = q % 2 ^ 18) ∧
  (∀ q g, s.native p = true → (s.pt p).up = false → s.lineState p = 2 → ((s.pt p).marks = 0 ∨ g = markGap) → (s.pt p).marks < 3 →
    exec (.markReceive p q g) s = .next (s.onPt p fun x => { x with marks := x.marks + 1, markSeq := q % 2 ^ 18 })) ∧
  (∀ q g, s.native p = true → (s.pt p).up = false → s.lineState p = 2 → 0 < (s.pt p).marks → g ≠ markGap →
    exec (.markReceive p q g) s = .next (s.onPt p fun x => { x with marks := 1, markSeq := q % 2 ^ 18 })) ∧
  (∀ q g, s.native p = true → (s.pt p).up = true → g ≠ markGap →
    exec (.markReceive p q g) s = .next (s.lineErr (Reg.portLerrType p) p)) ∧
  (s.native p = true → s.aligned p = true → s.lineState p = 3 → (s.pt p).misses < 2 →
    exec (.missedMark p) s = .next (((s.countP (Reg.portMarkMiss p) p).setFld (Reg.portLineStat p) 3 1 1).onPt p
      fun x => { x with misses := (s.pt p).misses + 1 })) ∧
  (s.native p = true → s.aligned p = true → s.lineState p = 3 → (s.pt p).misses = 2 →
    ∃ t, exec (.missedMark p) s = .next t ∧ (t.pt p).up = false ∧ t.lineState p = 2) ∧
  (s.sends p = true → exec (.markSend p) s
    = .next ((s.putLine p (LineTx.idle ((1024 - (s.pt p).tx.pos) % 1024 + 1) (s.pt p).tx (s.pt p).txMark)).onPt p
        fun x => { x with markAt := s.now }))

/-- R28, R30, R42 to R44, R47: crumbs, beats discarded and preemptions as received. R48 to R50: doze is entered where every
condition holds, received, and left. -/
def Obligations.BeatsAndDozeComplete : Prop :=
  (∀ (s : State) (p : Nat), s.life = .up → p < 24 →
    (s.sends p = true → s.crumbBarred p = true →
      exec (.crumbDue p) s = .next (s.onPt p fun x => { x with crumbWait := true })) ∧
    (s.sends p = true → s.crumbBarred p = false → exec (.crumbDue p) s
      = .next (((if (s.sw.lineOf p).isSome then s
          else s.putLine p (LineTx.idle (2048 - (s.pt p).tx.since) (s.pt p).tx (s.pt p).txMark)).emit p none [crumbBeat]).onPt p
            fun x => { x with crumbWait := false })) ∧
    (s.sends p = true → (s.pt p).crumbWait = true → (s.pt p).txSusp = false → exec (.crumbForced p) s
      = .next ((s.emit p none [crumbBeat]).onPt p fun x => { x with crumbWait := false })) ∧
    (s.native p = true → (s.pt p).up = true → ∀ u, u = s.emit p none (List.replicate 64 crumbBeat) →
      exec (.fillCrumbAbort p) s = .next (if (s.sw.lineOf p).isSome then u.cutLine p 4
        else ((u.emit p none [abortBeat 4]).countP (Reg.txAbort p) p).onPt p fun x => { x with fillCut := true })) ∧
    (s.native p = true → (s.pt p).up = true → ∀ line place h, h = (s.pt p).rx.hear line → h.2.1 = 0 → 33 ≤ h.1.length →
      exec (.controlBeatDiscard p line place) s = .next ((s.onPt p fun x => { x with rx := h.2.2 }).judgeBeat p
        (beatOf (h.1.drop (h.1.length - 33))) place)) ∧
    (s.native p = true → (s.pt p).up = true → ∀ line place h, h = (s.pt p).rx.hear line → h.2.1 = 1 → h.1.length < 33 →
      exec (.controlBeatDiscard p line place) s = .next (((s.onPt p fun x => { x with rx := h.2.2 }).lineErr (Reg.portLerrStuff p) p).stick
        (Reg.portLineStat p) 10)) ∧
    (∀ b place, b.ctl = true →
      (beatCrcOk b = false → s.judgeBeat p b place = (s.lineErr (Reg.portLerrCrc8 p) p).stick (Reg.portLineStat p) 9) ∧
      (beatCrcOk b = true → (s.pt p).rx.drop = false →
        s.judgeBeat p b place = if badBeat (s.pt p).rxSusp b place then s.lineErr (Reg.portLerrType p) p else s)) ∧
    (s.native p = true → s.aligned p = true →
      (∀ n, 2 < n → exec (.crumbDelete p n) s = .next ((s.countP (Reg.rxCrumbDel p) p).setFill p 2)) ∧
      exec (.crumbInsert p 0) s = .next ((s.countP (Reg.rxCrumbIns p) p).setFill p 1) ∧
      (∀ n u, 2 < n → u = ((s.lineErr (Reg.portLerrType p) p).stick (Reg.portLineStat p) 12).setFill p 2 →
        exec (.elasticOverrun p n) s = .next ((if (u.pt p).rxSusp then u.suspendedLost p else u).onPt p
          fun x => { x with brokenAt := some s.now })) ∧
      (∀ cls n, (s.pt p).rxSusp = false → cls < 6 → exec (.preemptReceive p (some (cls, n))) s
        = .next ((s.onPt p fun x => { x with rxSusp := true, rxOpen := true, rx := { x.rx with bytes := n, c7 := false, drop := false } }).countP
            (Reg.portPreemptRx p) p)) ∧
      (∀ f, ((s.pt p).rxSusp = true ∨ f = none ∨ ∃ cls n, f = some (cls, n) ∧ 6 ≤ cls) →
        exec (.preemptReceive p f) s = .next (s.lineErr (Reg.portLerrType p) p)) ∧
      ((s.pt p).rxSusp = true → exec (.resumeReceive p) s
        = .next (s.onPt p fun x => { x with rxSusp := false, rx := { x.rx with drop := false } })) ∧
      ((s.pt p).rxSusp = false → exec (.resumeReceive p) s = .next (s.lineErr (Reg.portLerrType p) p)) ∧
      (∀ bs, msgWords bs = none → exec (.messageDiscard p bs) s = .next (s.countP (Reg.portHalterDiscard p) p)))) ∧
  (∀ (s : State) (p : Nat), s.life = .up → p < 24 →
    (s.native p = true → (s.pt p).up = true → s.bitAt (Reg.portLineStat p) 5 = false → s.mayDoze p = true →
      exec (.dozeEntry p) s = .next ((((s.emit p none (List.replicate 4 dozeBeat)).setFld (Reg.portLineStat p) 5 1 1).onPt p
        fun x => { x with dozeAt := s.now }).countP (Reg.portDozeEntry p) p)) ∧
    (s.native p = true → (s.pt p).up = true → exec (.dozeReceive p) s = .next (s.setFld (Reg.portLineStat p) 4 1 1)) ∧
    (s.native p = true → (s.wakeCause p = true → exec (.dozeWake p) s = .next (s.wakeTx p)) ∧
      (s.wakeCause p = false → exec (.dozeWake p) s = .next s)) ∧
    (s.native p = true → (s.pt p).up = true → s.bitAt (Reg.portLineStat p) 4 = true →
      exec (.trainAlignment p true) s = .next ((s.setFld (Reg.portLineStat p) 4 1 0).onPt p fun x => { x with misses := 0 }) ∧
      ∃ t, exec (.trainAlignment p false) s = .next t ∧ (t.pt p).up = false ∧ t.lineState p = 2))

/-- R51 to R54, R59: halters are sent, taken and missed. A halter whose hash and period agree leaves no mismatch, and the time
of its arrival is kept. -/
def Obligations.HaltersComplete : Prop :=
  (∀ (s : State) (p : Nat), s.life = .up → p < 24 → s.native p = true → (s.pt p).up = true →
    (s.mayMessage p 14 = true →
      (s.halterPending p = true → exec (.halterSend p) s = .next (s.sendHalter p (s.halterAsks p))) ∧
      (s.halterPending p = false → exec (.halterSend p) s = .next s) ∧
      ((∀ r, (s.pt p).halterSentAt = some r → r + 125000000 ≤ s.now) →
        exec (.halterPeriodic p) s = .next (s.sendHalter p (s.halterAsks p)))) ∧
    (∀ ws, s.aligned p = true → msgOk ws = true → exec (.halterReceive p ws) s = .next (s.takeHalter p ws)) ∧
    (∀ ws, s.aligned p = true → msgOk ws = false → exec (.halterReceive p ws) s = .next (s.countP (Reg.portHalterDiscard p) p)) ∧
    (∀ r, (s.pt p).halterAt = some r → s.bitAt (Reg.portHalterStat p) 0 = true → r + 437500000 ≤ s.now →
      ∃ t, exec (.halterTimeout p) s = .next t ∧ t.bitAt (Reg.portHalterStat p) 0 = false ∧ t.bitAt (Reg.portHalterStat p) 16 = true ∧
        (t.pt p).c7Ok = false)) ∧
  (∀ (s : State) (p : Nat) (ws : List Nat), p < 24 →
    ws.getD 7 0 + ws.getD 8 0 * 65536 = (s.rd Reg.cycNetHash).toNat → ws.getD 5 0 + ws.getD 6 0 * 65536 = (s.rd Reg.cycPeriod).toNat →
      ((s.takeHalter p ws).pt p).halterAt = some s.now ∧
      (s.takeHalter p ws).bitAt (Reg.portHalterStat p) 0 = true ∧
      (s.takeHalter p ws).bitAt (Reg.portHalterStat p) 1 = false ∧ (s.takeHalter p ws).bitAt (Reg.portHalterStat p) 2 = false)

/-- R38, R61, R67, R76, R83: lasers, quality figures, STD and SGMII lines, and multidrop segments. Entering UP raises source 32
+ p in every context its route names; leaving UP ends the port's claim to class 7. -/
def Obligations.LightAndSegmentsComplete : Prop :=
  (∀ (s : State) (p : Nat), s.life = .up →
    (p < 16 → s.txOn p = true → exec (.laserFault p) s
      = .next (((s.portErr p (Reg.portPhyStat p) 8).onPt p fun x => { x with laserHeld := true }).toLos p)) ∧
    (∀ q, p < 24 → (s.pt p).up = true → 16 ≤ q.eye → 10 ≤ q.margin →
      ∃ t, exec (.qualityUpdate p q) s = .next t ∧
        t.rd (Reg.portQual0 p) = w32 (min 64 q.eye + min 255 q.margin * 256 + min 65535 q.resid * 65536) ∧
        t.fld (Reg.portQual1 p) 16 16 = (s.fld (Reg.portQual1 p) 16 16 + 1) % 65536) ∧
    (p < 24 → s.native p = false → s.enabled p = true → s.lineState p ≠ 0 →
      ((s.pt p).mode ≠ .sgmii → exec (.stdBlockLockChange p true) s
        = .next ((s.onPt p fun x => { x with pcs := true }).enterUp p)) ∧
      exec (.stdBlockLockChange p false) s = .next (((s.onPt p fun x => { x with pcs := false }).leaveUp p).setLine p 2)) ∧
    (p < 24 → (s.pt p).mode = .sgmii → (s.pt p).pcs = true → (s.pt p).up = false → ∀ speed, speed < 3 →
      exec (.sgmiiInbandWord p true speed) s
        = .next (((s.setFld (Reg.portPhyStat p) 5 2 speed).onPt p fun x => { x with sgUp := true }).enterUp p)) ∧
    (24 ≤ p → p < 28 →
      (s.enabled p = true → (s.pt p).segHeld = false → exec (.mPortEntersUp p) s = .next (s.enterUp p)) ∧
      ((s.pt p).up = true → ∃ t, exec (.segmentFault p) s = .next t ∧ (t.pt p).up = false ∧ (t.pt p).segHeld = true) ∧
      (s.enabled p = true → (s.pt p).segHeld = true → (s.pt p).up = false → exec (.segmentRetry p true) s = .next (s.enterUp p)))) ∧
  (∀ (s : State) (p c : Nat), p < 28 → c < 8 → s.bitAt (Reg.evtRoute (32 + p)) c = true →
    ((s.pt p).up = false → ((s.enterUp p).pt p).up = true ∧ (s.enterUp p).bitAt (Reg.evtStat c ((32 + p) / 32)) ((32 + p) % 32) = true) ∧
    ((s.pt p).up = true → ((s.leaveUp p).pt p).up = false ∧ ((s.leaveUp p).pt p).c7Ok = false))

/-- R87, R88, R103, R108 to R111: frames and rings (the model's choices at the rings: log 28). A frame of fewer than 18 bytes on
an STD port counts as a runt and as a frame received, ends what the frame's end ends, and nothing else comes of it. -/
def Obligations.FramesComplete : Prop :=
  (∀ (s : State), s.life = .up →
    (∀ p x, p < 28 → s.absent p = false → (s.pt p).up = true →
      exec (.frameReceive p x) s = .next ((s.notePhase p { at_ := 0, phase := x.phase }).receiveFrame p (s.stampFrame p x))) ∧
    (∀ c r v ds, c < 4 → r < 4 → exec (.hcxRingTailWrite c r v ds) s = .next (s.ringTail c r v ds)) ∧
    (∀ c r a, c < 4 → 2 ≤ r → r < 4 → (s.cx c).sop r = some a → s.bitAt (Reg.ringCtrl c r) 0 = true →
      a + max 1 (s.fld (Reg.ringCtrl c r) 16 16) * 12500 ≤ s.now →
      exec (.txRingTimeout c r) s = .next ((((s.advance c r ((s.cx c).posted r).length).onCx c fun x => x.setSop r none).txWb c r
        { head := s.fld (Reg.ringHead c r) 0 12, count := ((s.cx c).posted r).length, status := some 1 }).stick (Reg.ringStat c r) 9)) ∧
    (∀ c r, c < 4 → 2 ≤ r → r < 4 → (s.cx c).posted r = [] →
      exec (.ringDmaError c r) s = .next (((s.stick (Reg.ringStat c r) 8).setFld (Reg.ringCtrl c r) 0 1 0).raise (243 + c))) ∧
    (∀ c r, c < 4 → r < 2 →
      exec (.ringDmaError c r) s = .next ((((s.stick (Reg.ringStat c r) 8).setFld (Reg.ringCtrl c r) 0 1 0).raise (243 + c)).serveAll c r)) ∧
    (∀ c r k, c < 4 → 2 ≤ r → r < 4 → (s.cx c).posted r ≠ [] →
      k = ((nextTx ((s.cx c).posted r) 0).map (·.1)).getD ((s.cx c).posted r).length →
      exec (.ringDmaError c r) s = .next (((((s.stick (Reg.ringStat c r) 8).setFld (Reg.ringCtrl c r) 0 1 0).raise (243 + c)).onCx c
        fun x => x.setSop r none).putTxBack c r (s.fld (Reg.ringHead c r) 0 12) k 7 none)) ∧
    (∀ c r w rest, c < 4 → 2 ≤ r → r < 4 → (s.cx c).wb r = w :: rest → w.status = none → w.left.isSome = true →
      exec (.txTimestampWriteback c r) s = .next ((s.txStatus (2 * c + (r - 2)) w.head (some 0) none).flushAll c r))) ∧
  (∀ (s u v : State) (p : Nat) (x : RxFrame), s.life = .up → p < 28 → s.absent p = false →
    (s.pt p).up = true → s.native p = false → (s.pt p).brokenAt = none → x.ending = .eof → x.bytes.length < 16 →
    u = s.countN (Reg.rxLineErr p) (64 + p) x.symErr → v = (u.countP (Reg.rxRunt p) p).perf p →
      exec (.frameReceive p x) s = .next ((if mPort p then v.carrierEnd p else v).rxDone p))

/-- R122, R131, R136, R137, R139, R140: the switch core's events. Each DRAM slot advances the LFSR once, and the winner's grant
counter counts. -/
def Obligations.SwitchEventsComplete : Prop :=
  (∀ (s : State), s.life = .up →
    exec .cellSlot s = .next s.cellSlot ∧
    (∀ t, t = (s.sw.voq.map (·.1)).foldl (fun u k =>
        sweepList (fun v x rest => (v.setVq k rest).agedOut (vqQueue k) x) (u.sw.vq k) u) s →
      exec .headSweep s = .next ((List.range 8).foldl (fun u j => (sweepList (fun v x rest =>
        (v.setRing j rest).agedOut (8 * hostPort (j / 2) + ((v.sw.frame x.id).map (·.cls)).getD 0) { x with sent := 0 })
        ((u.sw.ring j).map fun x => { x with sent := 0 }) u).serveAll (j / 2) (j % 2)) t)) ∧
    (∀ (d : State → Copy → List Copy → State) (x : Copy) (rest : List Copy),
      (x.sent = 0 → s.expired x = true → sweepList d (x :: rest) s = sweepList d rest (d s x rest)) ∧
      (x.sent ≠ 0 ∨ s.expired x = false → sweepList d (x :: rest) s = s)) ∧
    (∀ ready, s.dramReady ≠ ready → exec (.dramReadyChange ready) s = .next
      (if ready then (s.setFld Reg.swcDramStat 16 1 1).raise 99 else ((s.setFld Reg.swcDramStat 16 1 0).raise 99).flushDram.poolMark)) ∧
    exec (.bufferEccError .corrected) s = .next ((s.countQ Reg.swcEccCorr).raise 103) ∧
    exec (.bufferEccError .freeList) s = .next (((s.onSw fun x => { x with quar := x.quar + 1 }).raise 104).poolMark) ∧
    exec (.bufferEccError .blockTable) s = .next ((s.onSw fun x => { x with quarBlk := x.quarBlk + 1 }).raise 104) ∧
    (∀ q n, q < 256 → exec (.bufferEccError (.descriptor q n)) s = .next ((((((s.flushQueue q).flushSeg q).onSw
      fun x => { x with quar := x.quar + n }).countQ Reg.swcEccUncorr).raise 104).poolMark)) ∧
    (∀ l v, s.sw.arbDue = some l → l ≠ [] → v = l.foldl (fun v x => v.wr x.1 x.2) s →
      ∃ t, exec .arbCommitApply s = .next t ∧ t.sw.arbDue = none ∧
        (∀ i, i < 6 → t.rd (Reg.arbTicket i) = w32 (v.fld (Reg.arbTicketSh i) 0 8)) ∧
        t.rd Reg.arbLfsr = if v.rd Reg.arbLfsrSeed = 0 then 1 else v.rd Reg.arbLfsrSeed)) ∧
  (∀ (s : State) (active : BitVec 6), s.life = .up →
    ∃ t, exec (.dramSlotDraw active) s = .next t ∧ t.rd Reg.arbLfsr = lfsrNext (s.rd Reg.arbLfsr) ∧
      ∀ w, lottery (lfsrNext (s.rd Reg.arbLfsr)) ((List.range 6).map fun i => s.fld (Reg.arbTicket i) 0 8) active = some w →
        t.rd (Reg.arbGrant w) = s.rd (Reg.arbGrant w) + 1)

/-- R136: a requester that is not active never wins a draw, and with one active some requester wins. -/
def Obligations.LotteryIsFairToActive : Prop := ∀ (lfsr : Word) (tickets : List Nat) (active : BitVec 6),
  (∀ w, lottery lfsr tickets active = some w → active.getLsbD w = true) ∧
  (active ≠ 0 → ∃ w, lottery lfsr tickets active = some w)

/-- R129, R130: a staged record is written with its header; a written record comes back once its queue is short and the pool has
its cells. -/
def Obligations.OverflowCompletes : Prop := ∀ (s : State) (q : Nat), s.life = .up → s.dramReady = true →
  (∀ qs r, s.sw.stagedQ = q :: qs → (s.sw.seg q).find? (fun r => !r.written) = some r →
    exec .overflowRecordWrite s = .next (((s.setSeg q ((s.sw.seg q).set ((s.sw.seg q).findIdx fun x => !x.written)
      { r with written := true })).unstage q r true).countQ (Reg.swcQspilled q))) ∧
  (∀ r rest, q < 256 → s.sw.seg q = r :: rest → r.written = true → s.occ q < s.fld Reg.swcReturnThr 0 15 →
    (∀ hdr, headerOk hdr = false → exec (.dramReturn q hdr) s = .next ((s.flushSeg q).raise 102)) ∧
    (∀ hdr, headerOk hdr = true → s.ageLimit r.frm true < s.now - r.frm.ts.toNat →
      exec (.dramReturn q hdr) s = .next ((((s.popSeg q r rest).txGone r.frm).countQ (Reg.swcQaged q)).raise 98)) ∧
    (∀ hdr, headerOk hdr = true → s.now - r.frm.ts.toNat ≤ s.ageLimit r.frm true → cellsOf r.frm.bytes.length ≤ s.poolFree →
      ∃ t : State, exec (.dramReturn q hdr) s = .next (t.countQ (Reg.swcQreturned q)) ∧ t.sw.nextId = s.sw.nextId + 1))

/-- R100, R101, R126: frames leave their output stages; an M port attempts, collides and backs off. -/
def Obligations.TransmitCompletes : Prop := ∀ (s : State) (p : Nat), s.life = .up → (s.pt p).up = true →
  (∀ ts sub a, a = stamp256 (s.txPlane p (ts.toNat * 256 + sub.toNat)) →
    (p < 24 → s.sw.lineOf p = none → s.sendBuffered p a = none →
      exec (.frameTransmit p false ts sub) s = .next (s.startLine p a)) ∧
    (∀ pre t, p < 24 → (pre = true → (s.sw.lineOf p).isSome = true ∧ s.mayPreempt p = true) →
      (pre = false → s.sw.lineOf p = none) → s.sendBuffered p a = some t →
      exec (.frameTransmit p pre ts sub) s = .next t) ∧
    (∀ pre, 24 ≤ p → p < 28 → exec (.frameTransmit p pre ts sub) s = .next (s.mSent p a))) ∧
  (24 ≤ p → p < 28 →
    ((Tab.get (fun _ => {}) s.sw.mtx p).sending = false → (Tab.get (fun _ => {}) s.sw.mtx p).until_ = none →
      exec (.mPortTxAttempt p true) s = .next (s.carrierEnd p) ∧
      (s.txOn p = true → Tab.get (fun _ => 0) s.sw.gapEnd p ≤ s.now → (s.sw.lineOf p).isSome = true →
        exec (.mPortTxAttempt p false) s = .next (s.onMtx p fun y => { y with sending := true }))) ∧
    (∀ c b k, s.sw.lineOf p = some c → (Tab.get (fun _ => {}) s.sw.mtx p).sending = true → b ≤ 512 →
      (Tab.get (fun _ => {}) s.sw.mtx p).n + 1 < 16 → k = Tab.get (fun _ => 0) s.sw.draws p →
      exec (.mPortCollision p b) s = .next (((s.onMtx p (fun y =>
        { y with n := (Tab.get (fun _ => {}) s.sw.mtx p).n + 1, sending := false,
                 until_ := some (s.now + Config.backoff s.serial p k % 2 ^ min ((Tab.get (fun _ => {}) s.sw.mtx p).n + 1) 10 * 64000) })).onSw
          fun y => { y with draws := Tab.set (fun _ => 0) y.draws p (k + 1) }).carrierEnd p)) ∧
    (∀ c b t, s.sw.lineOf p = some c → (Tab.get (fun _ => {}) s.sw.mtx p).sending = true →
      t = (((s.setLineCopy p none).dropStaged c).onMtx p fun _ => {}) →
      (512 < b → exec (.mPortCollision p b) s = .next (t.countP (Reg.txColLate p) p)) ∧
      (b ≤ 512 → 15 ≤ (Tab.get (fun _ => {}) s.sw.mtx p).n → exec (.mPortCollision p b) s = .next (t.countP (Reg.txColExcess p) p))) ∧
    (∀ r, (Tab.get (fun _ => {}) s.sw.mtx p).until_ = some r → r ≤ s.now →
      exec (.mPortBackoffExpiry p) s = .next (s.onMtx p fun y => { y with until_ := none })))

/-- R135: the switch-core commands stage their fields and commit them; where the staged values leave too small a pool (R133) the
reply is RANGE, and nothing is committed. -/
def Obligations.SwitchCommandsComplete : Prop := ∀ (s : State) (h : CmdHdr) (p : Nat) (own : List (Nat × Nat)),
  p < 32 → own = (if p = 28 ∨ p = 31 then [] else [(0, p)]) →
  (∀ prof u, prof < 3 → (s.receive h 0x0201).exists p = true → Admitted s h 0x0201 { owned := own, reins := [8] } →
    u = (List.range 6).foldl (fun u c =>
      let a := Reg.swcQcfg (8 * p + c)
      let d := Reg.swcQdramCfg (8 * p + c)
      if prof = 0 then (((u.stageFld a 12 4 4).stageFld a 28 1 (b2n (mayStore p c))).stageFld a 16 12 64).stageFld d 0 16 1024
      else if prof = 1 then (u.stageFld a 12 4 2).stageFld a 28 1 0
      else (((u.stageFld a 12 4 5).stageFld a 28 1 (b2n (mayStore p c))).stageFld a 16 12 32).stageFld d 0 16 8192) (s.receive h 0x0201) →
    (u.swcOver = false → exec (.swcQueueSet h p prof) s = .next (u.swcCommit.answerOk h 0x0201 [])) ∧
    (u.swcOver = true → exec (.swcQueueSet h p prof) s
      = .next ((s.receive h 0x0201).reply h.ctx 0x0201 h.tag St.range [1] false))) ∧
  (∀ classes d, classes.length = 8 → (∀ c ∈ classes, c < 8) → d < 8 → (s.receive h 0x0202).exists p = true →
    Admitted s h 0x0202 { owned := own, reins := [8] } →
    ∃ w : Word, exec (.swcPcpSet h p classes d) s = .next (((s.receive h 0x0202).writeF p (Reg.swcPcpMap p) w).answerOk h 0x0202 []) ∧
      (∀ k, k < 8 → getFld w (3 * k) 3 = classes.getD k 0) ∧ getFld w 24 3 = d) ∧
  (∀ n d, p < 28 → n ≤ 2 ^ 24 → d < 16 → (s.receive h 0x0203).exists p = true → Admitted s h 0x0203 { owned := [(0, p)], reins := [8] } →
    exec (.swcSampleSet h p n d) s = .next (((s.receive h 0x0203).writeSample p
      (w32 ((n - 1) + b2n (decide (0 < n)) * 2 ^ 24 + d * 2 ^ 25))).answerOk h 0x0203 [])) ∧
  ((s.receive h 0x0204).exists p = true → Admitted s h 0x0204 { role := .any, owned := own } →
    exec (.swcStatsGet h p) s = .next ((s.receive h 0x0204).reply h.ctx 0x0204 h.tag St.ok
      ((List.range 8).flatMap (fun c => (s.receive h 0x0204).queueGroup (8 * p + c)) ++ [(s.receive h 0x0204).poolWord.toNat]) false)) ∧
  (∀ cls fl al th en dm qu v u, cls < 8 → fl < 4096 → al < 16 → th < 4096 → (en = true → mayStore p cls = true) → dm < 65536 → qu < 256 →
    (s.receive h 0x0281).exists p = true → Admitted s h 0x0281 { owned := own, reins := [8] } →
    v = (((((s.receive h 0x0281).stageFld (Reg.swcQcfg (8 * p + cls)) 0 12 fl).stageFld (Reg.swcQcfg (8 * p + cls)) 12 4 al).stageFld
      (Reg.swcQcfg (8 * p + cls)) 16 12 th).stageFld (Reg.swcQcfg (8 * p + cls)) 28 1 (b2n en)).stageFld (Reg.swcQdramCfg (8 * p + cls)) 0 16 dm →
    u = (if cls < 4 then v.stageFld (Reg.swcDrr0 p) (8 * cls) 8 qu
      else if cls < 6 then v.stageFld (Reg.swcDrr1 p) (8 * (cls - 4)) 8 qu else v) →
    (u.swcOver = false → exec (.swcQueueExpertSet h p cls fl al th en dm qu) s = .next (u.swcCommit.answerOk h 0x0281 [])) ∧
    (u.swcOver = true → exec (.swcQueueExpertSet h p cls fl al th en dm qu) s
      = .next ((s.receive h 0x0281).reply h.ctx 0x0281 h.tag St.range [2] false)) ∧
    getFld (u.readBack (Reg.swcQcfg (8 * p + cls))) 0 12 = fl ∧ getFld (u.readBack (Reg.swcQcfg (8 * p + cls))) 12 4 = al ∧
    getFld (u.readBack (Reg.swcQcfg (8 * p + cls))) 16 12 = th ∧ getFld (u.readBack (Reg.swcQdramCfg (8 * p + cls))) 0 16 = dm) ∧
  (∀ hr a b c st re lo v u, hr < 32768 → a ≤ 1000000 → b ≤ 1000000 → c ≤ 1000000 → 144 ≤ st → st ≤ 16384 → 16 ≤ re → re ≤ 16384 → lo < 262144 →
    Admitted s h 0x0282 { reins := [8] } →
    v = ((((((s.receive h 0x0282).stageFld Reg.swcHeadroom 0 15 hr).stageFld Reg.swcAgeSram 0 20 a).stageFld Reg.swcAgeDram 0 20 b).stageFld
      Reg.swcAgeC6 0 20 c).stageFld Reg.swcSpillStage 0 15 st).stageFld Reg.swcReturnThr 0 15 re →
    u = v.writePoolLow (putFld (v.rd Reg.swcPoolLow) 0 18 lo) →
    (u.swcOver = false → exec (.swcGlobalExpertSet h hr a b c st re lo) s = .next (u.swcCommit.answerOk h 0x0282 [])) ∧
    (u.swcOver = true → exec (.swcGlobalExpertSet h hr a b c st re lo) s
      = .next ((s.receive h 0x0282).reply h.ctx 0x0282 h.tag St.range [0] false)) ∧
    getFld (v.readBack Reg.swcHeadroom) 0 15 = hr ∧ getFld (v.readBack Reg.swcReturnThr) 0 15 = re) ∧
  (∀ tickets seed, tickets.length = 6 → (∀ x ∈ tickets, x < 256) → Admitted s h 0x0283 { reins := [8] } →
    ∃ u : State, exec (.swcArbExpertSet h tickets seed) s = .next (u.answerOk h 0x0283 []) ∧ u.sw.arbDue.isSome = true ∧
      u.readBack Reg.arbLfsrSeed = seed ∧ ∀ i, i < 6 → getFld (u.readBack (Reg.arbTicketSh i)) 0 8 = tickets.getD i 0)

/-- R150 to R154, R168: the FDB and learning commands. -/
def Obligations.FdbCommandsComplete : Prop := ∀ (s : State) (h : CmdHdr),
  (∀ op st ps u, (s.receive h 0x0301).fdbOpThere { op with delete := false } = true → fdbOpBad { op with delete := false } = none →
    Admitted s h 0x0301 { owned := ownedPorts ((s.receive h 0x0301).fdbOpPorts { op with delete := false }), reins := [9] } →
    (s.receive h 0x0301).fdbInsert { op with delete := false } = (st, ps, u) →
    (st = St.ok → exec (.fdbInsert h op) s = .next (u.nextEpoch.answerOk h 0x0301 ps)) ∧
    (st ≠ St.ok → exec (.fdbInsert h op) s = .next ((s.receive h 0x0301).reply h.ctx 0x0301 h.tag st ps false))) ∧
  (∀ fid mac i e old, fid < 4096 → (s.receive h 0x0302).fdbFind fid mac = some (i, e, old) →
    Admitted s h 0x0302 { owned := ownedPorts (destPorts e.mc e.dest), reins := [9] } →
    exec (.fdbDelete h fid mac) s = .next (((s.receive h 0x0302).removeWay i).nextEpoch.answerOk h 0x0302 [])) ∧
  (∀ fid mac i e old, fid < 4096 → (s.receive h 0x0303).fdbFind fid mac = some (i, e, old) → Admitted s h 0x0303 { role := .any } →
    exec (.fdbLookup h fid mac) s = .next ((s.receive h 0x0303).reply h.ctx 0x0303 h.tag St.ok
      [e.mac, e.ctl, e.dest.toNat, i / 8, i % 8, b2n old] false)) ∧
  (∀ p st fid ports, (p = 0xFF ∧ ports = (s.receive h 0x0304).portsOwned h.ctx ∨
      p < 31 ∧ (s.receive h 0x0304).exists p = true ∧ ports = portBit p) → (fid < 4096 ∨ fid = 0xFFFF) →
    Admitted s h 0x0304 { owned := if p = 0xFF then [] else ownedPorts [p], reins := [9] } →
    exec (.fdbFlush h p st fid) s = .next (((if ((s.receive h 0x0304).fdbFlush ports st fid).2
        then ((s.receive h 0x0304).fdbFlush ports st fid).1.nextEpoch
        else ((s.receive h 0x0304).fdbFlush ports st fid).1)).answerOk h 0x0304 [])) ∧
  (∀ ops : List FdbOp, ops.length ≤ 254 → (∀ o ∈ ops, (s.receive h 0x0305).fdbOpThere o = true ∧ fdbOpBad o = none) →
    Admitted s h 0x0305 { owned := ops.flatMap fun o => ownedPorts ((s.receive h 0x0305).fdbOpPorts o), reins := [9] } →
    exec (.fdbBatch h ops) s = .next (((s.receive h 0x0305).batch ops).1.nextEpoch.answerOk h 0x0305
      (((s.receive h 0x0305).batch ops).2 ++ [(((s.receive h 0x0305).batch ops).1.nextEpoch.rd Reg.tblCfgEpoch).toNat]))) ∧
  (∀ p en m, p < 32 → (s.receive h 0x0306).exists p = true → m < 4096 → Admitted s h 0x0306 { owned := ownedPorts [p], reins := [9] } →
    exec (.learnSet h p en m) s = .next ((((s.receive h 0x0306).setFld Reg.tblLearnEn p 1 (b2n en)).setFld (Reg.tblLearnRate p) 0 12 m).answerOk
      h 0x0306 [])) ∧
  (∀ time, time < 65536 → Admitted s h 0x0307 { reins := [9] } →
    exec (.fdbAgeSet h time) s = .next (((s.receive h 0x0307).setFld Reg.tblAge 0 16 time).answerOk h 0x0307 [])) ∧
  (∀ m, m ≤ 128 → Admitted s h 0x0308 { role := .any } →
    exec (.learnRead h m) s = .next ((((s.receive h 0x0308).onCx h.ctx fun x => { x with learn := x.learn.drop m })).reply h.ctx 0x0308 h.tag St.ok
      ((((s.receive h 0x0308).cx h.ctx).learn.take m).length ::
        (((s.receive h 0x0308).cx h.ctx).learn.take m).flatMap fun r => (learnWords r).map (·.toNat)) false))

/-- R151: an FDB entry that is inserted is found under its key, with what the command gave. -/
def Obligations.FdbInsertIsFound : Prop := ∀ (s : State) (o : FdbOp) (ps : List Nat) (t : State), o.delete = false → s.dual = false →
  s.fdbInsert o = (St.ok, ps, t) → ∃ i e, t.fdbFind o.fid o.mac = some (i, e, false) ∧ e.mac = o.mac ∧ e.fid = o.fid ∧ e.dest = o.dest ∧
    e.stat = o.flags.testBit 0

/-- R153, R156, R157, R159, R161, R163 to R168: VLAN, stream, protection, shadow and rehash commands. -/
def Obligations.TableCommandsComplete : Prop := ∀ (s : State) (h : CmdHdr),
  (∀ vid entry ports, 1 ≤ vid → vid ≤ 4094 → entry.fid < 4096 → (∀ p ∈ portsOf ports, (s.receive h 0x0310).exists p = true) →
    (∀ p ∈ portsOf entry.member, (s.receive h 0x0310).exists p = true) → (∀ p ∈ portsOf entry.untag, (s.receive h 0x0310).exists p = true) →
    Admitted s h 0x0310 { owned := ownedPorts (portsOf ports), reins := [11] } →
    ∃ u : State, exec (.vlanSet h vid entry ports) s = .next (u.answerOk h 0x0310 []) ∧ u.vlan vid = entry ∧
      ∀ p ∈ portsOf ports, u.fld (Reg.tblPvid p) 0 12 = vid) ∧
  (∀ n e, n < 16384 → e.inPort < 32 → (s.receive h 0x0320).exists e.inPort = true → (s.receive h 0x0320).streamThere e = true → e.vid < 4096 →
    e.window < 1024 → (e.valid = true → 1 ≤ e.deadline ∧ e.deadline < 2 ^ 32) → e.slot < 4096 →
    Admitted s h 0x0320 { owned := [(1, n)], reins := [10] } → (s.receive h 0x0320).cyc.armed = none →
    (s.receive h 0x0320).streamFits n e = none →
    exec (.streamSet h n e) s = .next (((s.receive h 0x0320).setStreamP n e).answerOk h 0x0320 [])) ∧
  (∀ n, n < 16384 → Admitted s h 0x0321 { owned := [(1, n)], reins := [10] } → (s.receive h 0x0321).cyc.armed = none →
    ((s.receive h 0x0321).streamP n).valid = true →
    exec (.streamDelete h n) s = .next (((s.receive h 0x0321).setStreamP n {}).answerOk h 0x0321 [])) ∧
  (∀ n pend, n < 16384 → Admitted s h 0x0322 { role := .any } →
    exec (.streamGet h n pend) s = .next ((s.receive h 0x0322).reply h.ctx 0x0322 h.tag St.ok ((dwords 8 (streamImage
      (if pend then (s.receive h 0x0322).streamP n else (s.receive h 0x0322).stream n))).map (·.toNat)) false)) ∧
  (∀ q a b en rev w, q < 16 → a < 24 → b < 24 → (s.receive h 0x0330).exists a = true → (s.receive h 0x0330).exists b = true →
    groupOf a ≠ groupOf b → 1 ≤ w → w ≤ 3600 →
    (∀ o, o < 16 → o ≠ q → (s.receive h 0x0330).protEn o = true → ∀ p, p = a ∨ p = b →
      (s.receive h 0x0330).protPrimary o ≠ p ∧ (s.receive h 0x0330).protAlternate o ≠ p) →
    Admitted s h 0x0330 { owned := [(0, a), (0, b)], reins := [8] } →
    ∃ u : State, exec (.protSet h q a b en rev w) s = .next (u.answerOk h 0x0330 []) ∧ u.protPrimary q = a ∧ u.protAlternate q = b ∧
      u.protEn q = en ∧ u.bitAt (Reg.tblProt q) 11 = rev ∧ u.onAlternate q = false ∧ u.fld (Reg.tblProt q) 12 2 = 0 ∧
      u.fld (Reg.tblProt q) 14 12 = w) ∧
  (∀ q, q < 16 → Admitted s h 0x0331 { role := .any } → exec (.protGet h q) s
    = .next ((s.receive h 0x0331).reply h.ctx 0x0331 h.tag St.ok [((s.receive h 0x0331).rd (Reg.tblProt q)).toNat] false)) ∧
  (∀ q, q < 16 → (s.receive h 0x0332).protPrimary q < 24 → (s.receive h 0x0332).protAlternate q < 24 →
    (s.receive h 0x0332).protEn q = true → (((s.receive h 0x0332).pt ((s.receive h 0x0332).protPrimary q)).up) = true →
    badAt (s.receive h 0x0332).tbl.badProt q = false →
    Admitted s h 0x0332 { owned := [(0, (s.receive h 0x0332).protPrimary q), (0, (s.receive h 0x0332).protAlternate q)], reins := [8] } →
    exec (.protRevert h q) s = .next ((if (s.receive h 0x0332).onAlternate q then (s.receive h 0x0332).protFlip q
      else s.receive h 0x0332).answerOk h 0x0332 [])) ∧
  (∀ k first entries, k < 3 → first + entries.length ≤ (if k = 0 then 262144 else if k = 1 then 4096 else 16384) →
    entries.length ≤ (if k = 2 then 127 else 254) → (∀ e ∈ entries, e < if k = 2 then 2 ^ 256 else 2 ^ 128) →
    Admitted s h 0x0340 { reins := [if k = 0 then 9 else if k = 1 then 11 else 10] } →
    ∃ u : State, exec (.shadowWrite h k first entries) s = .next (u.answerOk h 0x0340 []) ∧
      ∀ i, i < entries.length → Tab.get (fun _ => 0) (if k = 0 then u.tbl.shFdb else if k = 1 then u.tbl.shVlan else u.tbl.shStr) (first + i)
        = entries.getD i 0) ∧
  (∀ m pace, m < 3 → 1 ≤ pace → pace ≤ 1000 → Admitted s h 0x0341 { reins := [8] } →
    exec (.shadowCtrl h m pace) s = .next (((s.receive h 0x0341).writeShadow
      (putFld (putFld ((s.receive h 0x0341).rd Reg.tblShadowCtrl) 0 2 m) 2 10 pace)).answerOk h 0x0341 [])) ∧
  (∀ m, m ≤ 64 → Admitted s h 0x0342 { role := .any } →
    exec (.shadowLogGet h m) s = .next (((s.receive h 0x0342).onTbl fun x => { x with mmLog := x.mmLog.drop m }).reply
      h.ctx 0x0342 h.tag St.ok (((s.receive h 0x0342).tbl.mmLog.take m).length ::
        ((s.receive h 0x0342).tbl.mmLog.take m).flatMap fun r => (mmWords r).map (·.toNat)) false)) ∧
  (∀ seed, (s.receive h 0x0390).rehashing = false → (s.receive h 0x0390).rd Reg.tblFdbStranded = 0 →
    Admitted s h 0x0390 { reins := [9] } →
    ∃ u : State, exec (.fdbRehash h seed) s = .next (u.reply h.ctx 0x0390 h.tag St.accepted [] false) ∧ u.rd Reg.tblFdbSeed = seed ∧
      u.rd Reg.tblFdbSeedOld = (s.receive h 0x0390).rd Reg.tblFdbSeed ∧ u.rehashing = true ∧ u.dual = true ∧
      u.deferred = (s.receive h 0x0390).deferred ++ [{ ctx := h.ctx, op := 0x0390, tag := h.tag, idx := 0 }])

/-- R149, R153, R154, R160, R161, R164, R170: what the tables' own engines do. Where the port that carries an enabled pair's
traffic is faulty and the other is not, the pair changes over; where both are, it is BOTH_DOWN and its traffic stays. -/
def Obligations.TableEventsComplete : Prop :=
  (∀ (s : State), s.life = .up →
    (s.rehashing = true → s.fwOn = true → exec .rehashWalkEnd s = .next
      (((((s.rehashWalk).wr Reg.tblFdbStranded (w32 s.rehashWalk.leftOver)).setFld Reg.tblFdbStat 0 2
        (if s.rehashWalk.leftOver = 0 then 0 else 2)).raise 111).complete 0x0390 0 (if s.rehashWalk.leftOver = 0 then St.ok else St.full) [])) ∧
    (∀ q, q < 16 → exec (.protSwitch q) s = .next (s.protJudge q)) ∧
    (∀ q, q < 16 → s.protEn q = true → s.bitAt (Reg.tblProt q) 11 = true → s.onAlternate q = true → badAt s.tbl.badProt q = false →
      s.portFault (s.protPrimary q) = false →
      (s.pt (s.protPrimary q)).cleanAt + s.fld (Reg.tblProt q) 14 12 * 1000000000 ≤ s.uptime →
      exec (.protWtrReturn q) s = .next (s.protFlip q)) ∧
    (s.shadowMode ≠ 0 → exec .shadowCompareUnit s = .next s.compareUnit) ∧
    (∀ i e, i < 262144 → s.way i = some e → e.stat = false → e.bad = false → s.fld Reg.tblAge 0 16 ≠ 0 →
      (e.hit = true → i ∉ s.scanTick.tbl.hits → exec (.ageScanVisit i) s = .next (s.setWay i (some { e with hit := false }))) ∧
      (e.hit = false ∨ i ∈ s.scanTick.tbl.hits → exec (.ageScanVisit i) s = .next (((((s.scanTick.removeWay i).onTbl fun x =>
        { x with aged := Tab.set (fun _ => false) x.aged (i / 8) true, gone := e :: x.gone }).countT Reg.tblFdbAged).perf 0x106).agedRecords e))) ∧
    exec .learnFilterExpiry s = .next (s.onTbl fun x => { x with filter := x.filter.filter fun k => decide (s.now < k.2.2.2 + 1250000) }) ∧
    exec (.tableEccError .corrected) s = .next ((s.countT Reg.tblEccCorr).raise 116) ∧
    (∀ i e, s.way i = some e → exec (.tableEccError (.fdb i)) s = .next (((s.onTbl fun x =>
      { x with fdb := Tab.set (fun _ => none) x.fdb i (some { e with bad := true }) }).countT Reg.tblEccUncorr).raise 117)) ∧
    (∀ i, s.way i = none → exec (.tableEccError (.fdb i)) s = .next (((s.onTbl fun x =>
      { x with badWay := Tab.set (fun _ => false) x.badWay i true }).countT Reg.tblEccUncorr).raise 117)) ∧
    (∀ v, exec (.tableEccError (.vlan v)) s = .next (((s.onTbl fun x =>
      { x with badVlan := Tab.set (fun _ => false) x.badVlan v true }).countT Reg.tblEccUncorr).raise 117)) ∧
    (∀ n, exec (.tableEccError (.stream n)) s = .next (((s.onTbl fun x =>
      { x with badStr := Tab.set (fun _ => false) x.badStr n true }).countT Reg.tblEccUncorr).raise 117)) ∧
    (∀ q, exec (.tableEccError (.prot q)) s = .next (((s.onTbl fun x =>
      { x with badProt := Tab.set (fun _ => false) x.badProt q true }).countT Reg.tblEccUncorr).raise 117))) ∧
  (∀ (s : State) (q : Nat), q < 16 → s.protEn q = true → badAt s.tbl.badProt q = false →
    s.portFault (s.protActive q) = true →
    (s.portFault (s.protOther q) = false → (s.protJudge q).onAlternate q = !s.onAlternate q) ∧
    (s.portFault (s.protOther q) = true → (s.protJudge q).onAlternate q = s.onAlternate q ∧ (s.protJudge q).fld (Reg.tblProt q) 12 2 = 2))

/-- R215, R221, R225, R228, R238: the commands of the time scale. -/
def Obligations.TimeCommandsComplete : Prop := ∀ (s : State) (h : CmdHdr),
  (Admitted s h 0x0401 { role := .any } → exec (.timeGet h) s = .next ((s.receive h 0x0401).reply h.ctx 0x0401 h.tag St.ok
    [(s.receive h 0x0401).now, (s.receive h 0x0401).netTime.1, (s.receive h 0x0401).netTime.2.1, (s.receive h 0x0401).netTime.2.2,
      (s.receive h 0x0401).snapFlags, ((s.receive h 0x0401).rd (Reg.tsuDom 0)).toNat, ((s.receive h 0x0401).rd (Reg.tsuDom 1)).toNat,
      ((s.receive h 0x0401).rd (Reg.tsuOffset 0)).toNat, ((s.receive h 0x0401).rd (Reg.tsuOffset 1)).toNat, (s.receive h 0x0401).epoch,
      (s.receive h 0x0401).uptime, (s.receive h 0x0401).bridgeWord] false)) ∧
  (∀ d n prof, d < 2 → n < 256 → prof < 3 → (n ≠ (s.receive h 0x0402).fld (Reg.tsuDom d) 8 8 → d ≠ (s.receive h 0x0402).tim.active) →
    Admitted s h 0x0402 { reins := [13] } →
    ∃ u : State, exec (.timeDomSet h d n prof) s = .next (u.answerOk h 0x0402 []) ∧ u.fld (Reg.tsuDom d) 8 8 = n ∧
      u.fld (Reg.tsuServo d) 0 4 = [2, 0, 5].getD prof 0 ∧
      (n ≠ (s.receive h 0x0402).fld (Reg.tsuDom d) 8 8 → u.domState d = 0)) ∧
  (∀ raws : List Raw, 1 ≤ raws.length → raws.length ≤ 16 → Admitted s h 0x0403 { role := .any } →
    exec (.timeConvert h raws) s = .next ((s.receive h 0x0403).reply h.ctx 0x0403 h.tag St.ok (raws.flatMap fun r =>
      ptpFields ((s.receive h 0x0403).domAt 0 r.toNat).1 ++ [((s.receive h 0x0403).domAt 0 r.toNat).2]
        ++ ptpFields ((s.receive h 0x0403).domAt 1 r.toNat).1 ++ [((s.receive h 0x0403).domAt 1 r.toNat).2]
        ++ ptpFields ((s.receive h 0x0403).outputAt r.toNat).1 ++ [((s.receive h 0x0403).outputAt r.toNat).2]) false)) ∧
  (∀ p prof fl ls la ld tmo st, p < 28 → (s.receive h 0x0404).exists p = true → prof < 5 → (24 ≤ p → prof ≠ 2 ∧ prof ≠ 3) →
    (prof = 4 → ((s.receive h 0x0404).owner 0 p).getD 0 < 4) → fl < 256 → (24 ≤ p → fl.testBit 2 = false ∧ fl.testBit 3 = false) →
    fl / 16 % 4 < 3 → fl / 64 < 3 → (1 ≤ prof → prof ≤ 3 → fl % 4 ≠ 0) →
    (if 24 ≤ p then -3 else -7) ≤ ls → ls ≤ 1 → -3 ≤ la → la ≤ 4 → -4 ≤ ld → ld ≤ 5 → 2 ≤ tmo → tmo ≤ 10 →
    (1 ≤ prof → (s.receive h 0x0404).native p = false) → Admitted s h 0x0404 { owned := [(0, p)], reins := [13, portRein p] } →
    st = (if 1 ≤ prof ∧ prof ≤ 3 then PtpState.listening else .off) →
    exec (.timePortSet h p prof fl ls la ld tmo) s = .next ((((s.receive h 0x0404).onPtm p fun x =>
      { x with profile := prof, flags := fl, logSync := ls, logAnnounce := la, logDelay := ld, announceTmo := tmo, ptp := st,
               announce := none, capable := false, fuSync := [], fuPd := [] }).raiseIf
        (decide (((s.receive h 0x0404).ptm p).ptp ≠ st)) 140).answerOk h 0x0404 [])) ∧
  (∀ p, p < 28 → (s.receive h 0x0405).exists p = true → Admitted s h 0x0405 { role := .any, owned := [(0, p)] } →
    exec (.timePortGet h p) s = .next ((s.receive h 0x0405).reply h.ctx 0x0405 h.tag St.ok
      [((s.receive h 0x0405).ptm p).ptp.num, (((s.receive h 0x0405).ptm p).announce.map fun a => a.1.parent).getD 0,
       (BitVec.ofInt 64 ((s.receive h 0x0405).ptm p).mpd).toNat, ((s.receive h 0x0405).ptm p).rxCount,
       ((s.receive h 0x0405).ptm p).txCount] false)) ∧
  ((s.receive h 0x0411).tim.armed.isSome = true → Admitted s h 0x0411 { reins := [13] } →
    exec (.timeSwitchCancel h) s = .next (((s.receive h 0x0411).cancelSwitch 2).answerOk h 0x0411 [])) ∧
  (∀ d, d < 2 → d ≠ (s.receive h 0x0412).tim.active → Admitted s h 0x0412 { reins := [13] } →
    exec (.timeDomReset h d) s = .next (((s.receive h 0x0412).domReset d).answerOk h 0x0412 [])) ∧
  (∀ sl li sa sb la lb th, 1 ≤ sl.toNat → sl.toNat ≤ 100000 → getFld sa 0 4 ≤ 10 → getFld sb 0 4 ≤ 10 → th < 65536 →
    Admitted s h 0x0481 { reins := [13] } →
    ∃ u : State, exec (.timeExpertSet h sl li sa sb la lb th) s = .next (u.answerOk h 0x0481 []) ∧ u.fld Reg.tsuSlewMax 0 17 = sl.toNat ∧
      u.rd Reg.tsuSwitchLimit = li ∧ u.rd (Reg.tsuServo 0) = sa ∧ u.rd (Reg.tsuServo 1) = sb ∧ u.rd (Reg.tsuLockcfg 0) = la ∧
      u.rd (Reg.tsuLockcfg 1) = lb ∧ u.fld Reg.tsuCtrl 0 16 = th) ∧
  (Admitted s h 0x0491 { role := .prin, reins := [13] } →
    exec (.timeEpochReset h) s = .next ((s.receive h 0x0491).epochReset.answerOk h 0x0491 [])) ∧
  (∀ sec, (s.receive h 0x0410).switchSecOk sec = true → (s.receive h 0x0410).tim.armed = none →
    ((s.receive h 0x0410).domState (s.receive h 0x0410).tim.active ≠ 0 ∨ sec = none) → Admitted s h 0x0410 { reins := [13] } →
    ∃ u : State, exec (.timeSwitch h sec) s = .next (u.reply h.ctx 0x0410 h.tag St.accepted [] false) ∧
      u.tim.armed = some { dom := 1 - (s.receive h 0x0410).tim.active, sec := sec.getD 0, force := false } ∧
      ({ ctx := h.ctx, op := 0x0410, tag := h.tag, idx := 0 } : Deferred) ∈ u.deferred) ∧
  (∀ sec, (s.receive h 0x0490).switchSecOk sec = true → (s.receive h 0x0490).tim.armed = none →
    ((s.receive h 0x0490).domState (s.receive h 0x0490).tim.active ≠ 0 ∨ sec = none) → Admitted s h 0x0490 { reins := [13] } →
    ∃ u : State, exec (.timeSwitchForce h sec) s = .next (u.reply h.ctx 0x0490 h.tag St.accepted [] false) ∧
      u.tim.armed = some { dom := 1 - (s.receive h 0x0490).tim.active, sec := sec.getD 0, force := true })

/-- R252 to R254, R260, R264: the commands of time transfer. -/
def Obligations.LinkTimeCommandsComplete : Prop := ∀ (s : State) (h : CmdHdr) (p : Nat), p < 24 →
  (∀ prof fast no, prof < 2 → (s.receive h 0x0420).exists p = true → (s.receive h 0x0420).native p = true →
    Admitted s h 0x0420 { owned := [(0, p)], reins := [13] } →
    ∃ u : State, exec (.timeLinkSet h p prof fast no) s = .next (u.answerOk h 0x0420 []) ∧
      u.rd (Reg.ttAlpha p) = (if p < 16 ∧ prof = 0 then 0x001A36E3 else 0) ∧ u.rd (Reg.ttAsym p) = 0 ∧
      u.bitAt (Reg.ttCtrl p) 1 = fast ∧ u.bitAt (Reg.ttCtrl p) 2 = no) ∧
  ((s.receive h 0x0421).exists p = true → (s.receive h 0x0421).native p = true → Admitted s h 0x0421 { role := .any, owned := [(0, p)] } →
    exec (.timeLinkGet h p) s = .next ((s.receive h 0x0421).drawn.reply h.ctx 0x0421 h.tag St.ok
      (((s.receive h 0x0421).rd (Reg.ttCtrl p)).toNat :: ((s.receive h 0x0421).ttWord p).toNat ::
        ([Reg.ttAlpha p, Reg.ttAsym p, Reg.ttRtd p, Reg.ttDin p, Reg.ttTheta p 0, Reg.ttTheta p 1, Reg.ttTavg p 0, Reg.ttTavg p 1, Reg.ttNrr p,
          Reg.ttPhase p, Reg.ttTxdly p, Reg.ttRxdly p, Reg.ttReqTx p, Reg.ttRespOk p, Reg.ttLost p, Reg.ttReject p].map fun a =>
            ((s.receive h 0x0421).rd a).toNat) ++ [(BitVec.ofInt 32 (Config.measured (s.receive h 0x0421).freeCtr)).toNat]) false)) ∧
  (∀ d flags p1 p2 cls acc utc sec ns given, d < 2 → flags < 256 → p1 < 256 → p2 < 256 → cls < 256 → acc < 256 → -32768 ≤ utc →
    utc ≤ 32767 → (given = true → sec < 2 ^ 48 ∧ ns < 1000000000) → Admitted s h 0x0422 { reins := [13] } →
    ∀ u, u = (s.receive h 0x0422).onDm d (fun x => { x with gm :=
        { flags := flags, prio1 := p1, prio2 := p2, cls := cls, accuracy := acc, utc := utc,
          init := if given then some (sec, ns) else none } }) →
      (u.gmSelf d = false → exec (.timeGmSet h d flags p1 p2 cls acc utc sec ns given) s = .next (u.answerOk h 0x0422 [])) ∧
      (u.gmSelf d = true → flags % 2 = 1 →
        exec (.timeGmSet h d flags p1 p2 cls acc utc sec ns given) s = .next ((u.beGm d).answerOk h 0x0422 [])) ∧
      (u.gmSelf d = true → flags % 2 = 0 → best (u.candidates d) = none →
        exec (.timeGmSet h d flags p1 p2 cls acc utc sec ns given) s
          = .next (((u.setFld (Reg.tsuDom d) 6 1 0).loseUpstream d).answerOk h 0x0422 [])) ∧
      (∀ w, u.gmSelf d = true → flags % 2 = 0 → best (u.candidates d) = some w →
        exec (.timeGmSet h d flags p1 p2 cls acc utc sec ns given) s
          = .next (((u.setFld (Reg.tsuDom d) 6 1 0).choose d w.1).answerOk h 0x0422 []))) ∧
  (∀ a d en, -4294967 ≤ a → a ≤ 4294967 → (p < 16 ∨ a = 0) → -16000000 ≤ d → d ≤ 16000000 → (s.receive h 0x0482).exists p = true →
    Admitted s h 0x0482 { owned := [(0, p)], reins := [13] } →
    exec (.timeLinkExpertSet h p a d en) s = .next ((((((s.receive h 0x0482).wr (Reg.ttAlpha p) (BitVec.ofInt 32 a)).wr (Reg.ttAsym p)
      (BitVec.ofInt 32 d)).clearHist p).setFld (Reg.ttCtrl p) 0 1 (b2n en)).answerOk h 0x0482 []))

/-- R216, R224, R225, R227, R235, R240, R260: what passes in the time scale by itself. -/
def Obligations.TimeEventsComplete : Prop := ∀ (s : State), s.life = .up →
  (∀ d, d < 2 → s.domState d = 1 → (s.dm d).lockAt + 150000000000 ≤ s.now →
    exec (.firstLockTimeout d) s = .next (s.setDomState d 0)) ∧
  (∀ d, d < 2 → s.bitAt (Reg.tsuDom d) 2 = true → (s.dm d).holdAt + s.fld Reg.tsuCtrl 0 16 * 1000000000 ≤ s.uptime →
    exec (.traceHoldExpiry d) s = .next (s.setTrace d false false (s.bitAt (Reg.tsuDom d) 5))) ∧
  (∀ a t, s.tim.armed = some a → (a.sec ≤ s.netTime.1 ∨ s.domState s.tim.active = 0) → s.switchTo a.dom a.force = some t →
    exec .timeSwitchStart s = .next (t.completeSwitch St.ok [])) ∧
  (∀ a, s.tim.armed = some a → (a.sec ≤ s.netTime.1 ∨ s.domState s.tim.active = 0) → s.switchTo a.dom a.force = none →
    ∃ t : State, exec .timeSwitchStart s = .next (t.completeSwitch St.state [1]) ∧ t.tim = { s.tim with armed := none } ∧
      t.bitAt Reg.tsuState 8 = true) ∧
  (s.tim.slewing = true → s.tim.bridge = 0 →
    ∃ t, exec .slewEnd s = .next t ∧ t.tim = { s.tim with slewing := false } ∧ t.bitAt Reg.tsuState 9 = true) ∧
  (∀ d edge, d < 2 → s.gmSelf d = true → (s.dm d).gm.flags.testBit 4 = true → s.bitAt (Reg.clkRefStat 5) 1 = true → s.domState d = 0 →
    exec (.ppsAlignMeasure d edge) s = .next (s.beGm d)) ∧
  (∀ (d edge : Nat) (n : Int), d < 2 → s.gmSelf d = true → (s.dm d).gm.flags.testBit 4 = true → s.bitAt (Reg.clkRefStat 5) 1 = true → s.domState d ≠ 0 →
    n = roundDiv ((s.dm d).at edge) (1000000000 * 2 ^ 32) →
    exec (.ppsAlignMeasure d edge) s
      = .next (s.measure d ((s.dm d).at edge - n * (1000000000 * 2 ^ 32)) (n * (1000000000 * 2 ^ 32)) edge 1 1)) ∧
  (∀ d w, d < 2 → s.fwOn = true → best (s.candidates d) = some w → s.following d = none →
    exec (.upstreamSelect d) s = .next ((s.choose d w.1).ptpDecideAll)) ∧
  (∀ d p, d < 2 → s.fwOn = true → best (s.candidates d) = none → s.following d = some p →
    exec (.upstreamSelect d) s = .next ((s.loseUpstream d).ptpDecideAll)) ∧
  (∀ d p c w, d < 2 → s.fwOn = true → best (s.candidates d) = some w → s.following d = some p → p ≠ w.1 → (p, c) ∈ s.candidates d →
    (s.infoOf d).gmId ≠ w.2.getD 4 0 → (s.dm d).rival = none →
    exec (.upstreamSelect d) s = .next ((s.onDm d fun x => { x with rival := some (w.2.getD 4 0, s.now) }).ptpDecideAll)) ∧
  (∀ d g r w, d < 2 → s.fwOn = true → (s.dm d).rival = some (g, r) → best (s.candidates d) = some w → g = w.2.getD 4 0 →
    r + 3750000000 ≤ s.now → exec (.upstreamChange d) s = .next ((s.choose d w.1).ptpDecideAll))

/-- R241 to R251, R266: the exchange and INFO on a native port. -/
def Obligations.ExchangeCompletes : Prop := ∀ (s : State) (p : Nat), s.life = .up → p < 24 →
  (∀ at_, s.takesPart p = true → (∀ r, (s.ptm p).reqAt = some r → r + s.reqEvery p ≤ s.now) → s.mayMessage p 14 = true →
    ∃ t, exec (.timeReqSend p at_) s = .next t ∧ (t.ptm p).waiting = true ∧ (t.ptm p).reqAt = some s.now ∧
      (t.ptm p).t1 = stampFine (s.txPlane p at_) ∧ (t.ptm p).reqSeq = ((s.ptm p).reqSeq + 1) % 256) ∧
  (∀ words t2 t3 a2 a3, s.takesPart p = true → timeOk 0 words = true → a2 = stampFine (s.rxPlane p t2) → a3 = stampFine (s.txPlane p t3) →
    0 ≤ a3 - a2 → a3 - a2 ≤ 25000 * 65536 → s.mayMessageIn p 24 (t3 / 256 - s.now) = true →
    ∃ t r, exec (.timeReqReceive p words t2 t3) s = .next t ∧ (t.ptm p).resp = some r ∧ r.echo = words.getD 1 0 % 256 ∧
      r.t2 = BitVec.ofNat 64 (a2.toNat / 65536) ∧ r.t2f = a2.toNat % 65536 ∧ r.t3 = BitVec.ofNat 64 (a3.toNat / 65536) ∧
      r.t3f = a3.toNat % 65536 ∧ r.fine = s.fineOn p) ∧
  (∀ words t2 t3, s.takesPart p = true → timeOk 0 words = true →
    25000 * 65536 < stampFine (s.txPlane p t3) - stampFine (s.rxPlane p t2) →
    exec (.timeReqReceive p words t2 t3) s = .next (s.notePhase p t2)) ∧
  (∀ words t4, s.takesPart p = true → timeOk 1 words = true → (s.ptm p).waiting = true → (respOf words).echo = (s.ptm p).reqSeq →
    stampFine (s.rxPlane p t4) - (s.ptm p).t1 ≤ 375000 * 65536 →
    exec (.timeRespReceive p words t4) s = .next ((s.notePhase p t4).exchange p (respOf words) (stampFine (s.rxPlane p t4)))) ∧
  (∀ r, s.takesPart p = true → (s.ptm p).exchAt = some r → r + (if s.fastReq p then 1250000000 else 3750000000) ≤ s.now →
    ∃ t : State, exec (.exchangeLost p) s = .next (t.dropUpstream p) ∧ (t.ttWord p).getLsbD 2 = false ∧ t.bitAt (Reg.ttStat p) 8 = true ∧
      (t.ptm p).exchAt = none) ∧
  (∀ d, d < 2 → s.carries p d = true → (s.domState d ≠ 0 ∨ s.gmSelf d = true) →
    (∀ o r, (s.ptm p).sentInfo d = some (o, r) → o ≠ s.infoOf d ∨ r + 1250000000 ≤ s.now) → s.mayMessage p 14 = true →
    exec (.infoSend p d) s = .next ((s.onPtm p fun x => if d = 0 then { x with sentA := some (s.infoOf d, s.now) }
      else { x with sentB := some (s.infoOf d, s.now) }).sendMsg p 0x08 (withMsgCrc (infoWords (s.infoOf d))))) ∧
  (∀ words d, d = (infoMsgOf words).which % 2 → timeOk 2 words = true → s.carries p d = true →
    ∃ t, exec (.infoReceive p words) s = .next t ∧ (t.ptm p).info d = some (infoMsgOf words, s.now) ∧
      (s.isUp p d = true → (infoMsgOf words).locked = true → (infoMsgOf words).holdover = false →
        (t.dm d).prio1 = (infoMsgOf words).prio1 ∧ t.bitAt (Reg.tsuDom d) 3 = (infoMsgOf words).traceable)) ∧
  (∀ d m r, d < 2 → (s.ptm p).info d = some (m, r) → r + 3750000000 ≤ s.now → s.isUp p d = false →
    exec (.infoVoid p d) s = .next (s.onPtm p fun x => if d = 0 then { x with infoA := none } else { x with infoB := none })) ∧
  (s.native p = true → s.bitAt (Reg.ttStat p) 0 = true →
    ∃ t, exec (.vernierFitLoss p) s = .next t ∧ t.bitAt (Reg.ttStat p) 0 = false ∧ t.bitAt (Reg.ttStat p) 11 = true) ∧
  (s.native p = true → (s.pt p).up = true → exec (.fineValidReturn p) s = .next (s.setFld (Reg.ttStat p) 0 1 1))

/-- R228 to R235: PTP on a port that is not native: its states, messages and timeouts (message layouts and the data set
comparison: log 53). -/
def Obligations.PtpCompletes : Prop := ∀ (s : State) (p : Nat), s.life = .up → p < 28 →
  (∀ msg : PtpMsg, s.ptpOn p = true →
    (msg.kind = .management → exec (.ptpMessageReceive p msg) s
      = .next ((s.onPtm p fun y => { y with rxCount := y.rxCount + 1 }).count Reg.tsuPtpDiscard 143)) ∧
    (msg.kind = .announce → s.fwOn = true → s.ptpDoms p msg.domain ≠ [] → msg.parent / 65536 ≠ s.eui → (s.ptm p).takes = true →
      ((s.ptm p).profile = 3 → s.eui ∉ msg.path) →
      ∃ t, exec (.ptpMessageReceive p msg) s = .next t ∧ (t.ptm p).rxCount = (s.ptm p).rxCount + 1 ∧
        (t.ptm p).announce = some ({ msg with stamp := stamp256 (s.rxPlane p { at_ := msg.stamp }) }, s.now)) ∧
    (msg.kind = .sync → msg.twoStep = true → (s.ptm p).ptp.follows = true → (s.ptm p).takes = true →
      exec (.ptpMessageReceive p msg) s = .next (s.onPtm p fun y =>
        { y with rxCount := y.rxCount + 1, sync := some (msg.seq, stamp256 (s.rxPlane p { at_ := msg.stamp }), msg.corr) })) ∧
    (∀ d ds, msg.kind = .delayReq → s.ptpDoms p msg.domain = d :: ds → (s.ptm p).profile = 1 → (s.ptm p).ptp = .master →
      ∃ t, exec (.ptpMessageReceive p msg) s = .next t ∧ (t.ptm p).rxCount = (s.ptm p).rxCount + 1 ∧
        (t.ptm p).txCount = (s.ptm p).txCount + 1)) ∧
  (∀ d, d < 2 → s.ptpOn p = true → s.ptpNames p d = true →
    ((s.ptm p).ptp = .master → s.hasTime d = true → (s.ptm p).takes = true →
      intervalDue (s.ptm p).syncAt d s.now (logTicks (s.ptm p).logSync) = true →
      exec (.ptpIntervalSend p .sync d) s = .next (((s.takeSeq p .sync d).onPtm p fun y =>
        { y with syncAt := noteSent y.syncAt d s.now }).ptpSend p (.sync d ((s.ptm p).nextSeq .sync d))
          { kind := .sync, num := s.fld (Reg.tsuDom d) 8 8, seq := (s.ptm p).nextSeq .sync d, two := !(s.ptm p).oneStep,
            log := (s.ptm p).logSync, body := beBytes 10 0 })) ∧
    (∀ q st rest, (s.ptm p).fuSync = (d, q, st) :: rest →
      exec (.ptpIntervalSend p .followUp d) s = .next ((s.onPtm p fun y => { y with fuSync := rest }).ptpSend p .none
        { kind := .followUp, num := s.fld (Reg.tsuDom d) 8 8, seq := q, corr := ptpFrac ((s.dm d).at st), log := (s.ptm p).logSync,
          body := ptpStamp ((s.dm d).at st) ++ (if (s.ptm p).profile = 3 then followUpTlv else []) })) ∧
    ((s.ptm p).profile = 1 → (s.ptm p).ptp.follows = true → s.ptpUp p d = true →
      (∀ r, (s.ptm p).reqTxAt = some r → r + logTicks (s.ptm p).logDelay ≤ s.now) →
      ∃ t, exec (.ptpIntervalSend p .delayReq d) s = .next t ∧ (t.ptm p).txCount = (s.ptm p).txCount + 1 ∧
        (t.ptm p).reqTxAt = some s.now) ∧
    ((s.ptm p).profile = 2 ∨ (s.ptm p).profile = 3 →
      (∀ r, (s.ptm p).reqTxAt = some r → r + logTicks (s.ptm p).logDelay ≤ s.now) →
      ∃ t, exec (.ptpIntervalSend p .pdelayReq d) s = .next t ∧ (t.ptm p).txCount = (s.ptm p).txCount + 1 ∧
        (t.ptm p).reqTxAt = some s.now ∧ (t.ptm p).unans = (s.ptm p).unans + 1)) ∧
  (∀ d, d < 2 → s.fwOn = true → s.ptpOn p = true → s.ptpTarget p = .master → (s.ptm p).ptp = .master → s.ptpNames p d = true →
    s.hasTime d = true → (s.ptm p).takes = true → intervalDue (s.ptm p).annAt d s.now (logTicks (s.ptm p).logAnnounce) = true →
    exec (.ptpAnnounceSend p d) s = .next (((s.takeSeq p .announce d).onPtm p fun y =>
      { y with annAt := noteSent y.annAt d s.now }).ptpSend p .none (s.announceOf p d))) ∧
  (∀ m r, s.fwOn = true → (s.ptm p).announce = some (m, r) → r + (s.ptm p).announceTmo * logTicks (s.ptm p).logAnnounce ≤ s.now →
    exec (.announceReceiptTimeout p) s
      = .next ((((s.onPtm p fun y => { y with announce := none }).raiseAt 142 0 p).dropUpstream p).ptpDecide p))

/-- R210: a rebase changes a domain's terms in one tick and leaves its time at that tick. R212, R216, R218: UNLOCKED, four
offsets that agree bring FIRST_LOCK with its one step; fewer do not; in FIRST_LOCK it stays until enough measurements lie in the
window. -/
def Obligations.RebaseAndMeasurementAct : Prop :=
  (∀ (d : DomSt) (r : Nat) (rate : Int),
    -2147483648 ≤ rate → rate ≤ 2147483647 →
    (d.rebase r rate).at r = d.at r ∧ (d.rebase r rate).rate = rate ∧ (d.rebase r rate).rawBase = r) ∧
  (∀ (s : State) (d : Nat) (theta up : Int) (r : Nat), d < 2 →
    (s.domState d = 0 → s.bitAt Reg.clkOven 0 = true → agreeing ((theta :: (s.dm d).agree).take 4) = true →
      (s.measure d theta up r 1 16).domState d = 1 ∧ ((s.measure d theta up r 1 16).dm d).at r = up) ∧
    (s.domState d = 0 → agreeing ((theta :: (s.dm d).agree).take 4) = false →
      (s.measure d theta up r 1 16).domState d = 0) ∧
    (s.domState d = 1 → (s.dm d).inLock < 15 → (s.measure d theta up r 1 16).domState d = 1) ∧
    (s.domState d = 1 → 15 ≤ (s.dm d).inLock → theta.natAbs ≤ s.fld (Reg.tsuLockcfg d) 0 10 * 2 ^ 32 →
      (s.measure d theta up r 1 16).domState d = 2))

/-- R224: at a switch to a LOCKED domain the output time stays what it was, to within 2^-16 ns (the digits below which the
bridge does not hold), and the new domain is active. In one tick of a slew the bridge comes nearer to 0 by s_ppb * 0.8 ns, or
reaches it, and never passes it. -/
def Obligations.SwitchKeepsOutput : Prop :=
  (∀ (s t : State) (d : Nat) (force : Bool), d < 2 →
    s.domState s.tim.active ≠ 0 →
    s.switchTo d force = some t →
      t.tim.active = d ∧ t.tim.armed = none ∧
        0 ≤ t.outAt (s.now * 256 : Nat) - s.outAt (s.now * 256 : Nat) ∧ t.outAt (s.now * 256 : Nat) - s.outAt (s.now * 256 : Nat) < 2 ^ 16) ∧
  (∀ s : State, s.tim.slewing = true →
    (0 ≤ s.tim.bridge → 0 ≤ s.slewTick.tim.bridge) ∧ (s.tim.bridge ≤ 0 → s.slewTick.tim.bridge ≤ 0) ∧
    (s.slewTick.tim.bridge.natAbs : Int) = max 0 ((s.tim.bridge.natAbs : Int) - s.slewStep) ∧
    (s.slewTick.tim.bridge = 0 → s.slewTick.tim.slewing = false))

/-- R219: an epoch reset does all that the rule lists in one tick; only a PRINCIPAL context makes it. -/
def Obligations.EpochResetRule : Prop := (∀ (s t : State), t = s.epochReset →
    t.epoch = s.epoch + 1 ∧ t.domState s.tim.active = 0 ∧ t.tim.active = s.tim.active ∧ (∀ g, g < 16 → t.tgArmed g = false) ∧
    t.cyc.armed = none ∧ t.tim.armed = none ∧ t.tim.bridge = 0 ∧
    (∀ c, c < 8 → s.bitAt (Reg.evtRoute 132) c = true → t.bitAt (Reg.evtStat c 4) 4 = true) ∧
    t.dm (1 - s.tim.active) = s.dm (1 - s.tim.active) ∧ t.domState (1 - s.tim.active) = s.domState (1 - s.tim.active) ∧
    t.raw = s.raw ∧ (∀ n, t.sw.frame n = s.sw.frame n) ∧
    (∀ v l theta up r, v = t.onDm t.tim.active (fun x => { x with agree := l }) → v.bitAt Reg.clkOven 0 = true →
      agreeing ((theta :: l).take 4) = true → (v.measure t.tim.active theta up r 1 16).domState t.tim.active = 1 ∧
      ((v.measure t.tim.active theta up r 1 16).dm t.tim.active).at r = up)) ∧
  (∀ (s w : State) (c : Nat) (g : GuardPair), s.life = .up → c < 8 → w = s.onCx c (fun x => { x with guard := none, heldLo := none }) →
    (s.role c ≠ .principal → ∀ v, exec (.dgFirstWrite c Reg.tsuEpochReset v) s = .next w ∧ exec (.tsuEpochReset c v) s = .next w) ∧
    (s.role c = .principal → (s.cx c).guard = some g → g.addr = Reg.tsuEpochReset → g.value = 1 → s.now ≤ g.raw.toNat + 1250000 →
      exec (.tsuEpochReset c 0xFFFFFFFE) s = .next (w.logRec 0x100 9 [g.addr, 1]).epochReset)) ∧
  (∀ (s : State) (h : CmdHdr), h.ctx < 8 → s.fwOn = true → s.hasRoom h.ctx = true →
    ((s.cx h.ctx).expert = false → exec (.timeEpochReset h) s
      = .next ((s.receive h 0x0491).reply h.ctx 0x0491 h.tag St.level [] false)) ∧
    ((s.cx h.ctx).expert = true → h.expert = true → s.role h.ctx ≠ .principal → exec (.timeEpochReset h) s
      = .next ((s.receive h 0x0491).reply h.ctx 0x0491 h.tag St.role [(s.role h.ctx).num] false)) ∧
    (Admitted s h 0x0491 { role := .prin, reins := [13] } → exec (.timeEpochReset h) s
      = .next ((s.receive h 0x0491).epochReset.answerOk h 0x0491 [])))

/-- R269, R273, R274, R279, R288, R294: the clock commands. -/
def Obligations.ClockCommandsComplete : Prop := ∀ (s : State) (h : CmdHdr),
  (∀ rank freq port, rank < 16 → freq < 3 → Admitted s h 0x0501 { reins := [12] } →
    exec (.clkRefSet h 0 rank freq port) s = .next ((((s.receive h 0x0501).setFld (Reg.clkRefCfg 0) 0 4 rank).setFld
      (Reg.clkRefCfg 0) 4 2 freq).answerOk h 0x0501 [])) ∧
  (∀ rank freq port, rank < 16 → Admitted s h 0x0501 { reins := [12] } →
    exec (.clkRefSet h 5 rank freq port) s = .next (((s.receive h 0x0501).setFld (Reg.clkRefCfg 5) 0 4 rank).answerOk h 0x0501 [])) ∧
  (∀ i rank freq, 1 ≤ i → i ≤ 4 → rank < 16 → Admitted s h 0x0501 { reins := [12] } →
    ∃ u : State, exec (.clkRefSet h i rank freq none) s = .next (u.answerOk h 0x0501 []) ∧ u.fld (Reg.clkRefCfg i) 0 4 = rank ∧
      u.fld (Reg.clkRefCfg i) 8 5 = 31) ∧
  (∀ i p rank freq, 1 ≤ i → i ≤ 4 → p < 24 → (s.receive h 0x0501).exists p = true → rank < 16 →
    Admitted s h 0x0501 { owned := [(0, p)], reins := [12] } →
    ∃ u : State, exec (.clkRefSet h i rank freq (some p)) s = .next (u.answerOk h 0x0501 []) ∧ u.fld (Reg.clkRefCfg i) 0 4 = rank ∧
      u.fld (Reg.clkRefCfg i) 8 5 = p) ∧
  (∀ mode i, mode < 4 → i < 8 → (s.receive h 0x0502).fld Reg.clkRsel 0 3 = 0 → Admitted s h 0x0502 { reins := [12] } →
    exec (.clkSelect h mode i) s = .next (((s.receive h 0x0502).writeClkSel
      (putFld (putFld ((s.receive h 0x0502).rd Reg.clkSel) 0 2 mode) 4 3 i)).answerOk h 0x0502 [])) ∧
  (Admitted s h 0x0503 { role := .any } → ∀ v, v = s.receive h 0x0503 → exec (.clkStatusGet h) s = .next (v.reply h.ctx 0x0503 h.tag St.ok
    ([(v.rd Reg.clkOven).toNat, (v.rd Reg.clkRsel).toNat, (v.rd Reg.clkDpllStat).toNat, (v.rd Reg.clkDac).toNat, (v.rd Reg.clkDacHold).toNat,
      (v.rd Reg.clkDacCentre).toNat, (BitVec.ofInt 64 v.clk.buildout).toNat, (v.rd Reg.clkPhaseErr).toNat]
      ++ (List.range 6).flatMap fun i => [(v.rd (Reg.clkRefStat i)).toNat, (v.rd (Reg.clkRefFoff1 i)).toNat, (v.rd (Reg.clkRefFoff64 i)).toNat])
    false)) ∧
  (∀ pm w d, pm < 2 → w ≤ 3600 → 1 ≤ d → d ≤ 10000 → Admitted s h 0x0504 { reins := [12] } →
    exec (.clkSwitchSet h pm w d) s = .next (((((s.receive h 0x0504).setFld Reg.clkSwitch 0 1 pm).setFld Reg.clkSwitch 16 12 w).setFld
      Reg.clkDisagree 0 16 d).answerOk h 0x0504 [])) ∧
  (∀ bw fa, bw ≤ 10 → Admitted s h 0x0581 { reins := [12] } →
    exec (.clkDpllExpertSet h bw fa) s = .next ((((s.receive h 0x0581).setFld Reg.clkDpllCfg 0 4 bw).setFld Reg.clkDpllCfg 4 1 (b2n fa)).answerOk
      h 0x0581 [])) ∧
  (∀ n a force, n < 6 → a < 2 → (s.receive h 0x0582).synThere n = true → Admitted s h 0x0582 { reins := [n + 1, 12] } →
    (force = true ∨ ∀ i, i < 4 → ((s.receive h 0x0582).pt (4 * n + i)).up = false) →
    ∀ u, u = (if a = 1 then (s.receive h 0x0582).wr (Reg.clkSynBand n) 0 else s.receive h 0x0582) →
    exec (.clkSynExpertSet h n a force) s = .next ((u.synRestart n (u.fld (Reg.clkSynCfg n) 0 2)).answerOk h 0x0582 []))

/-- R268 to R289: what passes in the clock subsystem. CLK_DAC saturates at the ends of its 24 bits and shows the value it was
set to (how the DPLL moves: log 42). -/
def Obligations.ClockEventsComplete : Prop :=
  (∀ (s : State), s.life = .up →
    (∀ meas, exec (.referenceQualification meas) s = .next ((((List.range 6).foldl (fun v i => match meas.getD i none with
        | none => v.refAbsent i
        | some m => if v.refThere i then v.qualifyRef i m else v.refAbsent i) s).disagreeRefs.holdSecond).applySel false)) ∧
    (∀ i m, i < 6 → 4600000 < (s.offsetOf i m + s.steering).natAbs → (s.qualifyRef i m).refBit i 1 = false) ∧
    (∀ i m, i < 6 → 200000 < m.edge → s.activeRef ≠ i → (s.qualifyRef i m).refBit i 1 = false) ∧
    (∀ i, i < 6 → s.refBit i 0 = true → ∃ t, exec (.referenceLost i) s = .next t ∧ t.refBit i 0 = false ∧ t.refBit i 1 = false ∧
      t.rd (Reg.clkRefFoff1 i) = 0x80000000) ∧
    (∀ i, s.sel = .auto → s.candidateRef = some i → s.activeRef ≠ i → s.clk.next ≠ some i →
      exec .autoDecision s = .next (s.startSwitch i)) ∧
    (s.sel = .auto → s.candidateRef = none → (s.dpll = 3 ∨ s.holdValid = true) → exec .autoDecision s = .next s.enterHoldover) ∧
    (s.sel = .auto → s.candidateRef = none → s.dpll ≠ 3 → s.holdValid = false → exec .autoDecision s = .next s.enterFreerun) ∧
    (∀ pins : BitVec 3, s.fld Reg.clkRsel 0 3 ≠ pins.toNat → exec (.rselChange pins) s
      = .next (((s.wr Reg.clkRsel (w32 (pins.toNat + b2n (decide (pins.toNat ≠ 0)) * 8))).applySel true).raise 152)) ∧
    (∀ err fo, s.activeRef < 6 → s.rd Reg.clkPhaseErr = 0x80000000 → s.clk.buildout = 0 → -2147483648 ≤ err → err ≤ 2147483647 →
      ∃ t, exec (.dpllComparison err fo) s = .next t ∧ t.rd Reg.clkPhaseErr = BitVec.ofInt 32 err) ∧
    (∀ i m, s.clk.next = some i → i < 5 → -(500000 * 65536) ≤ m → m ≤ 500000 * 65536 →
      exec (.referenceSwitchDone m) s = .next (s.startTracking i m none)) ∧
    (∀ m, s.clk.next = some 5 → -(500000000 * 65536) ≤ m → m ≤ 500000000 * 65536 →
      exec (.referenceSwitchDone m) s = .next (s.startTracking 5 m none)) ∧
    (s.ovenReady = false → ∃ t, exec .ovenReady s = .next t ∧ t.ovenReady = true) ∧
    (s.ovenReady = true → s.bitAt Reg.clkOven 1 = false → exec (.ovenOor true) s
      = .next (((s.setFld Reg.clkOven 1 1 1).stick Reg.clkOven 8).raise 145)) ∧
    (s.mgt.fw = .ready → s.ovenReady = false → s.bitAt Reg.clkOven 2 = false → 300000000000 ≤ s.uptime →
      exec .ovenWarmFail s = .next ((s.setFld Reg.clkOven 2 1 1).raise 145)) ∧
    (∀ n band ph, n < 8 → s.synThere n = true → s.bitAt (Reg.clkSynStat n) 1 = true →
      ∃ t, exec (.synthLock n band ph) s = .next t ∧ t.bitAt (Reg.clkSynStat n) 0 = true ∧ t.bitAt (Reg.clkSynStat n) 1 = false ∧
        (n < 6 → Tab.get (fun _ => 0) t.clk.phase n = ph)) ∧
    (∀ n, n < 8 → s.synThere n = true → s.bitAt (Reg.clkSynStat n) 1 = true → Tab.get (fun _ => 0) s.clk.tries n = 2 →
      ∃ t : State, exec (.synthLockRetry n) s = .next ((t.stick (Reg.clkSynStat n) 25).raise 154) ∧ Tab.get (fun _ => 0) t.clk.tries n = 3) ∧
    (∀ n, n < 8 → s.synThere n = true → s.bitAt (Reg.clkSynStat n) 1 = true → Tab.get (fun _ => 0) s.clk.tries n ≠ 2 →
      exec (.synthLockRetry n) s = .next (s.onClk fun x =>
        { x with tries := Tab.set (fun _ => 0) x.tries n (Tab.get (fun _ => 0) s.clk.tries n + 1) })) ∧
    (∀ n, n < 6 → s.synThere n = true → s.bitAt (Reg.clkSynStat n) 0 = true →
      exec (.lineSynthUnlock n) s = .next (((s.stick (Reg.clkSynStat n) 24).raise 154).synRestart n (s.fld (Reg.clkSynCfg n) 0 2))) ∧
    (∃ t, exec .coreSynthUnlock s = .next t ∧ t.epoch = s.epoch + 1 ∧ t.domState 0 = 0 ∧ t.domState 1 = 0) ∧
    (s.dramReady = false → exec .dramSynthUnlock s
      = .next (((s.stick (Reg.clkSynStat 7) 24).raise 155).setFld (Reg.clkSynStat 7) 0 2 2)) ∧
    (s.dramReady = true → exec .dramSynthUnlock s = .next (((((((s.stick (Reg.clkSynStat 7) 24).raise 155).setFld (Reg.clkSynStat 7) 0 2
      2).setFld Reg.swcDramStat 16 1 0).raise 99).flushDram).poolMark))) ∧
  (∀ (s : State) (v : Int),
    (s.setDac v).dac24 Reg.clkDac = max (-8388608) (min 8388607 v))

/-- R296 to R299, R306, R307, R314, R317: pins and interval units by command. -/
def Obligations.IntervalCommandsComplete : Prop := ∀ (s : State) (h : CmdHdr) (u : Nat), u < 4 →
  (∀ pin func pol term, pin < 16 → 1 ≤ func → func ≤ 3 → (func ≤ 2 → pin < 8) → Admitted s h 0x0601 { owned := [(6, u)], reins := [15] } →
    (s.receive h 0x0601).bitAt (Reg.tioBridle pin) 19 = false → (s.receive h 0x0601).pinOf func u = none →
    exec (.tioClaim h pin func u pol term) s = .next ((((s.receive h 0x0601).wr (Reg.tioBridle pin)
      (w32 (func + u * 16 + b2n pol * 256 + b2n term * 512))).setOwner 4 pin h.ctx).answerOk h 0x0601 [])) ∧
  (∀ g pin pol term, pin < 16 → g < 16 → Admitted s h 0x0601 { owned := [(5, g)], reins := [15] } →
    (s.receive h 0x0601).bitAt (Reg.tioBridle pin) 19 = false → (s.receive h 0x0601).pinOf 4 g = none →
    exec (.tioClaim h pin 4 g pol term) s = .next ((((s.receive h 0x0601).wr (Reg.tioBridle pin)
      (w32 (4 + g * 16 + b2n pol * 256 + b2n term * 512))).setOwner 4 pin h.ctx).answerOk h 0x0601 [])) ∧
  (∀ pin, pin < 16 → Admitted s h 0x0602 { owned := [(4, pin)], reins := [15] } →
    exec (.tioRelease h pin) s = .next (((s.receive h 0x0602).wr (Reg.tioBridle pin) 0).answerOk h 0x0602 [])) ∧
  (Admitted s h 0x0603 { role := .any } → exec (.tioStatusGet h) s = .next ((s.receive h 0x0603).drawn.reply h.ctx 0x0603 h.tag St.ok
    (((List.range 16).map fun n => ((s.receive h 0x0603).rd (Reg.tioBridle n)).toNat) ++ [(s.receive h 0x0603).tioLevelWord.toNat]) false)) ∧
  ((s.receive h 0x0610).lowestFree 6 4 = some u → Admitted s h 0x0610 { reins := [15] } →
    exec (.iuAlloc h) s = .next (((s.receive h 0x0610).setOwner 6 u h.ctx).reply h.ctx 0x0610 h.tag St.ok [u] false)) ∧
  (Admitted s h 0x0611 { owned := [(6, u)], reins := [15] } →
    ∃ t : State, exec (.iuFree h u) s = .next (t.answerOk h 0x0611 []) ∧ t.owner 6 u = none ∧ (t.unit u).queue = [] ∧ t.iuArmed u = false) ∧
  (∀ cfg win, (s.receive h 0x0612).iuArmed u = false → Admitted s h 0x0612 { owned := [(6, u)], reins := [15] } →
    exec (.iuSet h u cfg win) s = .next ((((s.receive h 0x0612).wr (Reg.iuCfg u) cfg).wr (Reg.iuWindow u) win).answerOk h 0x0612 [])) ∧
  ((s.receive h 0x0613).iuCal u = false → Admitted s h 0x0613 { owned := [(6, u)] } →
    exec (.iuArm h u) s = .next (((s.receive h 0x0613).iuArm u).answerOk h 0x0613 [])) ∧
  (∀ n, 1 ≤ n → n ≤ 16 → Admitted s h 0x0614 { role := .any, owned := [(6, u)] } →
    exec (.iuRead h u n) s = .next (((s.receive h 0x0614).onUnitSt u fun x => { x with queue := x.queue.drop n }).answerOk h 0x0614
      ((((s.receive h 0x0614).unit u).queue.take n).flatMap fun r => r.words.map fun w => w.toNat))) ∧
  ((s.receive h 0x0615).iuArmed u = false → (s.receive h 0x0615).iuCal u = false → Admitted s h 0x0615 { owned := [(6, u)], reins := [15] } →
    ∃ t : State, exec (.iuCalibrate h u) s = .next (t.reply h.ctx 0x0615 h.tag St.accepted [] false) ∧ t.iuCal u = true ∧
      ({ ctx := h.ctx, op := 0x0615, tag := h.tag, idx := u } : Deferred) ∈ t.deferred)

/-- R299 to R302, R305 to R307: what an interval unit does at its edges. The result of a measurement holds the instants of both
edges, as the unit's correction table gives them (a free value, log 41), and their difference in 1/512 tick; before the first
calibration they are the codes' own. With the queue full it is lost and counted. -/
def Obligations.IntervalEventsComplete : Prop :=
  (∀ (s : State) (u : Nat), s.life = .up → u < 4 →
    (∀ a b t, s.mgt.fw = .ready → s.mgt.calQ.head? = some u → ∃ v, exec (.iuCalibrationEnd u a b t) s = .next v ∧ v.iuCal u = false ∧
      v.bitAt (Reg.iuStat u) 4 = true ∧ (v.unit u).table = some s.freeCtr ∧ v.mgt.calQ = s.mgt.calQ.tail ∧ v.rd (Reg.iuCalStat u) = w32 (min 65535 a + min 65535 b * 65536)) ∧
    (∀ e k, s.iuArmed u = true → (s.unit u).start = none → (s.pinOf 1 u).isSome = true → (s.unit u).armAt < e.toNat →
      exec (.iuStartEdge u e k) s
        = .next ((s.setFld (Reg.iuStat u) 1 1 1).onUnitSt u fun y => { y with start := some (e.toNat, k, s.epoch) })) ∧
    (∀ e k a j ep, (s.unit u).start = some (a, j, ep) → s.iuArmed u = true → (s.pinOf 2 u).isSome = true →
      edgeTime a j + 640 ≤ edgeTime e.toNat k →
      exec (.iuStopEdge u e k) s = .next ((s.setFld (Reg.iuStat u) 0 2 0).onUnitSt u fun y => { y with stop := some (e.toNat, k) })) ∧
    (∀ a b, (s.unit u).start = some a → (s.unit u).stop = some b → exec (.iuConversionDone u) s
      = .next ((s.iuQueue u false false a (some b)).onUnitSt u fun y => { y with start := none, stop := none, dead := some (s.now + 250) })) ∧
    (∀ e : Nat, (s.unit u).dead = some e → e ≤ s.now → (s.unit u).hold = false → s.levelGate u = false → exec (.iuDeadTimeEnd u) s
      = .next (s.onUnitSt u fun y => { y with dead := none, hold := false })) ∧
    (∀ e : Nat, (s.unit u).dead = some e → e ≤ s.now → (s.unit u).hold = true → exec (.iuDeadTimeEnd u) s
      = .next ((s.onUnitSt u fun y => { y with dead := none, hold := false }).iuArm u)) ∧
    ((s.pinOf 3 u).isSome = true → s.fld (Reg.iuCfg u) 0 2 = 1 →
      exec (.iuGateEdge u true) s = .next ((s.onUnitSt u fun y => { y with gate := true }).iuArm u)) ∧
    ((s.pinOf 3 u).isSome = true → s.fld (Reg.iuCfg u) 0 2 = 1 → s.bitAt (Reg.iuCfg u) 6 = true → s.iuArmed u = true →
      (s.unit u).start = none → exec (.iuGateEdge u false) s = .next ((s.onUnitSt u fun y => { y with gate := false }).iuDisarm u)) ∧
    (s.iuArmed u = true → s.rd (Reg.iuWindow u) ≠ 0 → (s.unit u).armAt + (s.rd (Reg.iuWindow u)).toNat ≤ s.now → (s.unit u).start = none →
      exec (.iuWindowExpiry u) s = .next ((((s.count (Reg.iuWinExp u) 191).iuDisarm u).stick (Reg.iuStat u) 18).raiseAt 185 0 u)) ∧
    (∀ a, s.iuArmed u = true → s.rd (Reg.iuWindow u) ≠ 0 → (s.unit u).armAt + (s.rd (Reg.iuWindow u)).toNat ≤ s.now → (s.unit u).start = some a →
      exec (.iuWindowExpiry u) s = .next ((((s.iuQueue u false true a none).iuDisarm u).stick (Reg.iuStat u) 18).raiseAt 185 0 u)) ∧
    (∀ a, (s.unit u).start = some a → s.iuArmed u = true → s.rd (Reg.iuWindow u) = 0 → a.1 + (2 ^ 39 - 1) ≤ s.now + 1 →
      exec (.iuStopOverflow u) s = .next ((((s.iuQueue u true false a none).iuDisarm u).stick (Reg.iuStat u) 17).raiseAt 185 0 u))) ∧
  (∀ (s : State) (u a j ep b k : Nat), u < 4 → j ≤ 512 → k ≤ 512 → 1 ≤ a → 1 ≤ b → ep < 65536 →
    ∀ x y : Nat, x = s.edgeRead u 0 a j → y = s.edgeRead u 1 b k → x ≤ y → y < x + 2 ^ 48 →
    ((s.unit u).queue.length < 16 → ∃ r, ((s.iuQueue u false false (a, j, ep) (some (b, k))).unit u).queue = (s.unit u).queue ++ [r] ∧
      r.startRaw * 512 + r.startFine = x ∧ r.stopRaw * 512 + r.stopFine = y ∧ x + r.interval = y ∧ r.epoch = ep) ∧
    ((s.unit u).table = none → x = edgeTime a j ∧ y = edgeTime b k) ∧
    ((s.unit u).queue.length = 16 → ((s.iuQueue u false false (a, j, ep) (some (b, k))).unit u).queue = (s.unit u).queue ∧
      (s.iuQueue u false false (a, j, ep) (some (b, k))).bitAt (Reg.iuStat u) 16 = true))

/-- R227, R308 to R317: the generators by command; a generator fires, ends its pulse and follows a rebase. A firing counts in
TG_FIRED; a generator with no period disarms at it and is done (log 40). -/
def Obligations.GeneratorsComplete : Prop :=
  (∀ (s : State) (h : CmdHdr) (g : Nat), g < 16 →
    ((s.receive h 0x0620).lowestFree 5 16 = some g → Admitted s h 0x0620 { reins := [15] } →
      exec (.tgAlloc h) s = .next (((s.receive h 0x0620).setOwner 5 g h.ctx).reply h.ctx 0x0620 h.tag St.ok [g] false)) ∧
    (Admitted s h 0x0621 { owned := [(5, g)], reins := [15] } →
      ∃ t : State, exec (.tgFree h g) s = .next (t.answerOk h 0x0621 []) ∧ t.owner 5 g = none) ∧
    (∀ sec ns frac per n w d, sec < 2 ^ 48 → ns < 1000000000 → frac < 65536 → (per = 0 ∨ (8 ≤ per ∧ per < 2 ^ 39)) → n < 2 ^ 32 → 1 ≤ w → w < 2 ^ 24 →
      d < 4 → (s.receive h 0x0622).locked = true → Admitted s h 0x0622 { owned := [(5, g)] } →
      ∀ q f : Nat, q = sec * 1250000000 + (ns * 65536 + frac) * 320 / 65536 / 256 → f = (ns * 65536 + frac) * 320 / 65536 % 256 →
      ((s.receive h 0x0622).rawOfTicks q + f) / 256 - (s.receive h 0x0622).now ≤ 2 ^ 39 - 1 →
      ∀ r, r = ((((s.receive h 0x0622).tgDisarm g true).tgLoad g true d q f per n w).tgStart g) →
      exec (.tgArm h g sec ns frac per n w d) s = .next (r.1.answerOk h 0x0622 [r.2])) ∧
    (Admitted s h 0x0623 { owned := [(5, g)] } →
      exec (.tgDisarm h g) s = .next (((s.receive h 0x0623).tgDisarm g true).answerOk h 0x0623 [])) ∧
    (Admitted s h 0x0624 { role := .any } → exec (.tgStatusGet h g) s = .next ((s.receive h 0x0624).reply h.ctx 0x0624 h.tag St.ok
      [((s.receive h 0x0624).rd (Reg.tgStat g)).toNat, (s.receive h 0x0624).rd64 (Reg.tgTgtLo g) (Reg.tgTgtHi g),
       (s.receive h 0x0624).rd64 (Reg.tgNtLo g) (Reg.tgNtHi g), ((s.receive h 0x0624).rd (Reg.tgLeft g)).toNat,
       ((s.receive h 0x0624).rd (Reg.tgFired g)).toNat] false)) ∧
    (∀ tgt f per n w d, (per = 0 ∨ (8 ≤ per ∧ per < 2 ^ 39)) → n < 2 ^ 32 → 1 ≤ w → w < 2 ^ 24 → d < 4 → f < 256 →
      tgt.toNat < (s.receive h 0x0681).now + 2 ^ 39 → Admitted s h 0x0681 { owned := [(5, g)], reins := [15] } →
      ∀ r, r = ((((s.receive h 0x0681).tgDisarm g true).tgLoad g false d tgt.toNat f per n w).tgStart g) →
      exec (.tgExpertSet h g tgt f per n w d) s = .next (r.1.answerOk h 0x0681 [r.2]))) ∧
  (∀ (s : State) (g : Nat), s.life = .up → g < 16 →
    (s.tgArmed g = true → dueIn (s.tgRaw g / 256) s.now ≤ 0 → s.startsCycles g = false → exec (.tgFire g) s = .next (s.tgFire g)) ∧
    (s.tgArmed g = true → dueIn (s.tgRaw g / 256) s.now ≤ 0 → s.startsCycles g = true →
      exec (.tgFire g) s = .next ((s.tgFire g).cycleStart (s.firedCycle g))) ∧
    (s.tgArmed g = true → 0 < dueIn (s.tgRaw g / 256) s.now → exec (.tgFire g) s = .next s) ∧
    (∀ e, (s.gen g).pulse = some e → e.2 / 256 ≤ s.now → exec (.tgPulseEnd g) s = .next (s.onGen g fun x => { x with pulse := none })) ∧
    exec .targetReconvert s = .next s.reconvert) ∧
  (∀ (s : State) (g : Nat), g < 16 → s.tgPeriod g = 0 →
    (s.tgFire g).rd (Reg.tgFired g) = s.rd (Reg.tgFired g) + 1 ∧ (s.tgFire g).tgArmed g = false ∧ (s.tgFire g).bitAt (Reg.tgStat g) 3 = true)

/-- R171, R174, R181, R188, R192, R205: the staging commands write the pending banks and nothing that is in force. -/
def Obligations.StagingCommandsComplete : Prop := ∀ (s : State) (h : CmdHdr),
  (∀ p es, (p = 31 ∨ p < 24 ∧ (s.receive h 0x0702).exists p = true) → 1 ≤ es.length → es.length ≤ 500 →
    (∀ e ∈ es, e.1 < 1024 ∧ e.2.offset < 2 ^ 27 ∧ e.2.duration < 2 ^ 24) → (s.receive h 0x0702).cyc.armed = none →
    Admitted s h 0x0702 { owned := if p = 31 then [] else [(0, p)], reins := [14] } →
    exec (.cycTableSet h p es) s = .next (((s.receive h 0x0702).onPend fun x =>
      { x with gate := es.foldl (fun g e => Tab.set (fun _ => {}) g (1024 * p + e.1) e.2) x.gate }).answerOk h 0x0702 [])) ∧
  (∀ n cfg tpl, n < 4096 → oslotOk cfg = true → tpl.length = 64 → (s.receive h 0x0703).cyc.armed = none →
    Admitted s h 0x0703 { owned := [(2, n)], reins := [14] } →
    ∃ u : State, exec (.cycOslotSet h n cfg tpl) s = .next (u.answerOk h 0x0703 []) ∧ u.cyc.pend.o n = cfg ∧ u.cyc.pend.template n = tpl ∧
      u.cyc.act = (s.receive h 0x0703).cyc.act) ∧
  (∀ n cfg, n < 4096 → islotOk cfg = true → (s.receive h 0x0704).cyc.armed = none → Admitted s h 0x0704 { owned := [(3, n)], reins := [14] } →
    ∃ u : State, exec (.cycIslotSet h n cfg) s = .next (u.answerOk h 0x0704 []) ∧ u.cyc.pend.i n = cfg ∧
      u.cyc.act = (s.receive h 0x0704).cyc.act) ∧
  (Admitted s h 0x0705 { role := .any } → ∀ v, v = s.receive h 0x0705 → exec (.cycStageGet h) s = .next (v.reply h.ctx 0x0705 h.tag St.ok
    [v.pendShareCrc.toNat, (v.rd Reg.cycPeriodPend).toNat, b2n v.pendDirty,
     (v.cyc.pend.gate.filter fun g => decide (g.2.duration ≠ 0)).length, (v.cyc.pend.osl.filter fun o => o.2.valid).length,
     (v.cyc.pend.isl.filter fun i => i.2.valid).length, (v.tbl.strP.filter fun e => e.2.valid).length] false)) ∧
  (Admitted s h 0x0706 { role := .any } → exec (.cycStatusGet h) s = .next ((s.receive h 0x0706).reply h.ctx 0x0706 h.tag St.ok
    ([(s.receive h 0x0706).cycStatWord.toNat, (BitVec.ofInt 64 (s.receive h 0x0706).cyc.now).toNat,
      (((s.receive h 0x0706).cyc.armed.map (·.k)).getD 0), ((s.receive h 0x0706).rd Reg.cycNetHash).toNat]
      ++ (List.range 10).map fun i => ((s.receive h 0x0706).rd (Reg.cycLaunched + 4 * i)).toNat) false)) ∧
  (∀ per, 19532 ≤ per → per ≤ 80000000 → (s.receive h 0x0707).cyc.armed = none → Admitted s h 0x0707 { reins := [14] } →
    exec (.cycPeriodStage h per) s = .next (((s.receive h 0x0707).wr Reg.cycPeriodPend (w32 per)).answerOk h 0x0707 [])) ∧
  ((s.receive h 0x0712).cyc.armed = none → Admitted s h 0x0712 { reins := [10, 14] } →
    ∃ u : State, exec (.cycDiscard h true) s = .next (u.answerOk h 0x0712 []) ∧ u.cyc.pend = (s.receive h 0x0712).cyc.act ∧
      u.tbl.strP = (s.receive h 0x0712).tbl.strA ∧ u.rd Reg.cycPeriodPend = (s.receive h 0x0712).rd Reg.cycPeriod) ∧
  ((s.receive h 0x0712).cyc.armed = none → Admitted s h 0x0712 { reins := [14] } →
    ∃ u : State, exec (.cycDiscard h false) s = .next (u.answerOk h 0x0712 []) ∧ u.cyc.pend = (s.receive h 0x0712).cyc.act ∧
      u.tbl = (s.receive h 0x0712).tbl ∧ u.rd Reg.cycPeriodPend = (s.receive h 0x0712).rd Reg.cycPeriod) ∧
  (∀ g p phi, g < 16 → 19532 ≤ p → p ≤ 80000000 → (s.receive h 0x0701).cyc.armed = none → (s.receive h 0x0701).running = false →
    Admitted s h 0x0701 { owned := [(5, g)], reins := [14] } →
    ∃ u : State, exec (.cycStartSet h g (some (p, phi))) s = .next (u.answerOk h 0x0701 []) ∧ u.boundGen = some g ∧
      u.bitAt Reg.cycCtrl 0 = true ∧ u.cyc.phase = phi ∧ u.rd Reg.cycPeriod = w32 p ∧ u.rd Reg.cycPeriodPend = w32 p) ∧
  (∀ g, g < 16 → (s.receive h 0x0701).cyc.armed = none → Admitted s h 0x0701 { owned := [(5, g)], reins := [14] } →
    ∃ u : State, exec (.cycStartSet h g none) s = .next (u.answerOk h 0x0701 []) ∧ u.boundGen = some g ∧ u.bitAt Reg.cycCtrl 0 = true ∧
      u.cyc.handsOff = false)

/-- R180, R182, R183, R342: a host's bytes land in the write buffer of its own outbound slot, whose SEQ word seals it; a read
returns what the host window shows. Dwords that the owner of an outbound slot stores land there too; a context that does not own
the slot changes nothing (areas: log 38). -/
def Obligations.ProcessImageWrites : Prop :=
  (∀ (s : State) (h : CmdHdr) (n off : Nat), n < 4096 →
    (∀ data seq, data.length ≤ 4032 →
      off + data.length ≤ roomOf ((s.receive h 0x0708).cyc.act.o n).valid ((s.receive h 0x0708).cyc.act.o n).size →
      Admitted s h 0x0708 { owned := [(2, n)] } →
      exec (.cycPiWrite h n off data seq) s = .next (((((s.receive h 0x0708).piWrite ((s.receive h 0x0708).oslot n).wbank
        (payBase + ((s.receive h 0x0708).cyc.act.o n).poff + off) data).piWrite ((s.receive h 0x0708).oslot n).wbank (ostBase + 16 * n)
        (leBytes 4 seq.toNat)).onOslot n fun x => { x with sealed := true, sealAt := (s.receive h 0x0708).raw }).answerOk h 0x0708 [])) ∧
    (∀ len, len ≤ 4032 → off + len ≤ roomOf ((s.receive h 0x0709).cyc.act.i n).valid ((s.receive h 0x0709).cyc.act.i n).size →
      Admitted s h 0x0709 { role := .any, owned := [(3, n)] } →
      exec (.cycPiRead h true n off len) s = .next ((s.receive h 0x0709).answerOk h 0x0709
        (((s.receive h 0x0709).piBytes (1 - (s.receive h 0x0709).cyc.fill) (payBase + ((s.receive h 0x0709).cyc.act.i n).poff + off) len).map
          fun b => b.toNat))) ∧
    (∀ len, len ≤ 4032 → off + len ≤ roomOf ((s.receive h 0x0709).cyc.act.o n).valid ((s.receive h 0x0709).cyc.act.o n).size →
      Admitted s h 0x0709 { role := .any, owned := [(2, n)] } →
      exec (.cycPiRead h false n off len) s = .next ((s.receive h 0x0709).answerOk h 0x0709
        (((s.receive h 0x0709).piBytes ((s.receive h 0x0709).oslot n).wbank (payBase + ((s.receive h 0x0709).cyc.act.o n).poff + off) len).map
          fun b => b.toNat)))) ∧
  (∀ (s : State) (c n : Nat) (v : Word), s.life = .up → c < 4 → n < 4096 →
    (s.owner 2 n = some c → exec (.piSeqWrite c n v) s = .next ((s.piWrite (s.oslot n).wbank (ostBase + 16 * n) (leBytes 4 v.toNat)).onOslot n
      fun o => { o with sealed := true, sealAt := s.raw })) ∧
    (s.owner 2 n ≠ some c → exec (.piSeqWrite c n v) s = .next s) ∧
    (∀ off, off % 4 = 0 → payBase ≤ off → off < piWindow → s.slotAt (off - payBase) = some (false, n) →
      (s.owner 2 n = some c → exec (.piPayloadWrite c off [v]) s = .next ((s.piWrite (s.oslot n).wbank off (leBytes 4 v.toNat)).onOslot n
        fun o => { o with sealed := false })) ∧
      (s.owner 2 n ≠ some c → exec (.piPayloadWrite c off [v]) s = .next s)))

/-- R195, R196, R198: a commit that passes its checks is armed, or applied at once; it can be cancelled; its end is judged. -/
def Obligations.CommitsComplete : Prop := ∀ (s : State) (h : CmdHdr),
  (∀ k hash, hash ≠ 0 → (s.receive h 0x0710).checkPending = none → (s.receive h 0x0710).cyc.armed = none →
    (s.receive h 0x0710).boundGen.isSome = true → (s.receive h 0x0710).rd Reg.cycPeriod ≠ 0 → (s.receive h 0x0710).locked = true →
    1250000 ≤ (s.receive h 0x0710).cycleAt (cycleNum k) - (s.receive h 0x0710).netTicks →
    (s.receive h 0x0710).cycleAt (cycleNum k) - (s.receive h 0x0710).netTicks ≤ 500000000000 → Admitted s h 0x0710 { reins := [10, 14] } →
    ∃ u : State, exec (.cycleCommit h k (s.receive h 0x0710).pendShareCrc hash false) s = .next (u.reply h.ctx 0x0710 h.tag St.accepted [] false) ∧
      u.cyc.armed = some { k := k, hash := hash } ∧ ({ ctx := h.ctx, op := 0x0710, tag := h.tag, idx := k } : Deferred) ∈ u.deferred) ∧
  (∀ k hash, hash ≠ 0 → (s.receive h 0x0790).checkPending = none → (s.receive h 0x0790).cyc.armed = none →
    (s.receive h 0x0790).boundGen.isSome = true → (s.receive h 0x0790).rd Reg.cycPeriod ≠ 0 → (s.receive h 0x0790).locked = true →
    1250000 ≤ (s.receive h 0x0790).cycleAt (cycleNum k) - (s.receive h 0x0790).netTicks →
    (s.receive h 0x0790).cycleAt (cycleNum k) - (s.receive h 0x0790).netTicks ≤ 500000000000 → Admitted s h 0x0790 { reins := [10, 14] } →
    ∃ u : State, exec (.cycleCommitForce h k hash false) s = .next (u.reply h.ctx 0x0790 h.tag St.accepted [] false) ∧
      u.cyc.armed = some { k := k, hash := hash } ∧ ({ ctx := h.ctx, op := 0x0790, tag := h.tag, idx := k } : Deferred) ∈ u.deferred) ∧
  (∀ k hash, hash ≠ 0 → (s.receive h 0x0710).checkPending = none → (s.receive h 0x0710).cyc.armed = none →
    (s.receive h 0x0710).running = false → (s.receive h 0x0710).boundGen.isSome = true → Admitted s h 0x0710 { reins := [10, 14] } →
    ∀ t, t = (s.receive h 0x0710).applyCommit hash none →
    exec (.cycleCommit h k (s.receive h 0x0710).pendShareCrc hash true) s = .next ((if t.locked then t.armCause else t).answerOk h 0x0710 [])) ∧
  (∀ share hash imm k, hash ≠ 0 → share ≠ (s.receive h 0x0710).pendShareCrc → Admitted s h 0x0710 { reins := [10, 14] } →
    exec (.cycleCommit h k share hash imm) s = .next ((s.receive h 0x0710).reply h.ctx 0x0710 h.tag St.mismatch [] false)) ∧
  (∀ k hash, hash ≠ 0 → (s.receive h 0x0790).checkPending = none → (s.receive h 0x0790).cyc.armed = none →
    (s.receive h 0x0790).running = false → (s.receive h 0x0790).boundGen.isSome = true → Admitted s h 0x0790 { reins := [10, 14] } →
    ∀ t, t = (s.receive h 0x0790).applyCommit hash none →
    exec (.cycleCommitForce h k hash true) s = .next ((if t.locked then t.armCause else t).answerOk h 0x0790 [])) ∧
  (∀ c, (s.receive h 0x0711).cyc.armed = some c → (s.receive h 0x0711).netTicks < (s.receive h 0x0711).cycleAt (cycleNum c.k) →
    Admitted s h 0x0711 { reins := [10, 14] } →
    exec (.cycleCancel h) s = .next (((s.receive h 0x0711).cancelCommit 1).answerOk h 0x0711 [])) ∧
  (∀ k, s.life = .up → s.cyc.judge = some k → s.agreedPorts false = true → exec .commitMismatchCheck s
    = .next (((s.onCyc fun x => { x with judge := none }).complete 0x0710 k St.ok []).complete 0x0790 k St.ok [])) ∧
  (∀ k, s.life = .up → s.cyc.judge = some k → s.agreedPorts false = false → exec .commitMismatchCheck s
    = .next ((((s.onCyc fun x => { x with judge := none }).stick Reg.cycStat 9).complete 0x0710 k St.mismatch []).complete 0x0790 k St.mismatch []))

/-- R124, R175, R182 to R191, R200: what the engine does of itself. -/
def Obligations.EngineEventsComplete : Prop := ∀ (s : State), s.life = .up →
  (∀ p i, (p < 24 ∨ p = 31) → i < 1024 → s.running = true → (s.gateEnt p i).duration ≠ 0 →
    exec (.gateEntryStart p i) s = .next (s.setGate p (some (i, (s.gateEnt p i).mask)))) ∧
  (∀ p i m, p < 32 → s.sw.gate p = some (i, m) → (∀ x j, (s.setGate p none).sw.conn p = some (x, j) → j ≠ i) →
    exec (.gateEntryEnd p) s = .next (s.setGate p none)) ∧
  (∀ p i m x, p < 32 → s.sw.gate p = some (i, m) → (s.setGate p none).sw.conn p = some (x, i) →
    exec (.gateEntryEnd p) s = .next ((s.setGate p none).setConn p none)) ∧
  (∀ p i e, p < 24 → s.running = true → (s.gateEnt p i).duration ≠ 0 → (s.gateEnt p i).mask.getLsbD 7 = true →
    (s.tbl.strA.find? fun e => e.2.valid && decide (e.2.window = i) && bit (s.substitute e.2.egress) p) = some e →
    exec (.reservedConnectionSetup p i) s = .next (s.setConn p (some (e.2.inPort, i)))) ∧
  (∀ g per k, s.boundGen = some g → s.cyc.armDue = true → s.cyc.handsOff = false → s.bitAt Reg.cycCtrl 0 = true →
    s.fld Reg.cycStat 0 2 = 1 → per = (s.rd Reg.cycPeriod).toNat → per ≠ 0 → s.locked = true →
    k = (s.netTicks + 1250000 - s.cyc.phase + (per - 1 : Nat)) / (per : Int) →
    exec .cycGenAutoArm s = .next ((((s.onCyc fun x => { x with armDue := false }).tgLoad g true 1 (s.cycleAt k).toNat 0 per 0
      (s.fld (Reg.tgWidth g) 0 24)).tgStart g).1)) ∧
  (∀ g, s.boundGen = some g → s.startsCycles g = true → s.tgArmed g = true → dueIn (s.tgRaw g / 256) s.now ≤ 0 →
    exec .cycleStart s = .next ((s.tgFire g).cycleStart (s.firedCycle g))) ∧
  (∀ n y target, n < 4096 → s.running = true → s.capture n = some (y, target) → (y.o n).valid = true →
    ∃ t, exec (.launchCapture n) s = .next t ∧
      (((s.oslot n).swap s.raw).ever = false → t = (s.onOslot n fun x => x.swap s.raw).perf 0x141) ∧
      (((s.oslot n).swap s.raw).ever = true → ((s.oslot n).swap s.raw).newer = true →
        ∃ c, (t.oslot n).cap = some c ∧ c.stale = false ∧ c.target = target ∧ (t.oslot n).newer = false) ∧
      (((s.oslot n).swap s.raw).ever = true → ((s.oslot n).swap s.raw).newer = false → (y.o n).rep = true →
        ∃ c, (t.oslot n).cap = some c ∧ c.stale = true ∧ c.target = target ∧ c.seq = (s.oslot n).lastSeq) ∧
      (((s.oslot n).swap s.raw).ever = true → ((s.oslot n).swap s.raw).newer = false → (y.o n).rep = false →
        (t.oslot n).cap = none ∧ (t.oslot n).skipped = true)) ∧
  (∀ n lines cap, n < 4096 → s.running = true → (s.oslot n).cap = some cap →
    ∃ t, exec (.launch n lines) s = .next t ∧ (t.oslot n).cap = none ∧ (t.oslot n).lastSeq = cap.seq ∧
      (t.oslot n).stale = cap.stale ∧ (t.oslot n).skipped = false) ∧
  (∀ x rest f, s.sw.cycIn = x :: rest → s.sw.frame x.id = some f →
    exec .inboundFile s = .next (((s.onSw fun y => { y with cycIn := rest }).fileFrame f).dropCopy 255 x))

/-- R197: a commit makes the pending gate tables, slots, templates and streams the active ones, and hash and period those of the
commit. R182, R191: at a boundary sealed outbound slots swap their buffers, the banks of the inbound side change places, and the
cycle in progress is k. -/
def Obligations.EngineSwapsBanks : Prop :=
  (∀ (s : State) (hash : Word) (k : Option Int),
    (s.applyCommit hash k).cyc.act = s.cyc.pend ∧ (s.applyCommit hash k).tbl.strA = s.tbl.strP ∧
      (s.applyCommit hash k).rd Reg.cycNetHash = hash ∧ (s.applyCommit hash k).rd Reg.cycPeriod = s.rd Reg.cycPeriodPend) ∧
  (∀ (s : State) (k : Int) (n : Nat), s.cyc.fill < 2 → n < 4096 → s.running = true →
    s.cyc.armed = none →
    (s.cycleStart k).cyc.now = k ∧ (s.cycleStart k).cyc.rdCycle = k - 1 ∧ (s.cycleStart k).cyc.start = s.now ∧
      (s.cycleStart k).cyc.fill = 1 - s.cyc.fill ∧ (s.cycleStart k).oslot n = (s.oslot n).swap s.raw ∧
      ((s.cycleStart k).islot (1 - s.cyc.fill) n).fresh = false ∧ ((s.cycleStart k).islot (1 - s.cyc.fill) n).late = false)

/-- R180: the process image reads back what was last written to a byte, a write changes no other byte, and every write of any
length keeps the canonical form. -/
def Obligations.ImageReadsBack : Prop :=
  (∀ (m : List Host.Cell) (a : Nat) (bs : List Byte) (x : Nat),
    Memory.read (Memory.writeAll m a bs) x = if a ≤ x ∧ x < a + bs.length then bs.getD (x - a) 0 else Memory.read m x) ∧
  (∀ (m : List Host.Cell) (a : Nat) (bs : List Byte),
    Memory.wf m = true → Memory.wf (Memory.writeAll m a bs) = true)

/-- R385, R393, R396, R397, R403, R409: the management commands. -/
def Obligations.ManagementCommandsComplete : Prop := ∀ (s : State) (h : CmdHdr),
  (Admitted s h 0x0001 { role := .any } → exec (.sysGet h) s = .next ((s.receive h 0x0001).reply h.ctx 0x0001 h.tag St.ok
    [((s.receive h 0x0001).rd Reg.sysId).toNat, ((s.receive h 0x0001).rd Reg.sysRev).toNat, (s.receive h 0x0001).feat.toNat,
     (s.receive h 0x0001).serial, ((s.receive h 0x0001).rd Reg.mgtBootCause).toNat, (s.receive h 0x0001).fwVer.toNat] false)) ∧
  (Admitted s h 0x0002 { role := .any } → exec (.sensorGet h) s = .next ((s.receive h 0x0002).reply h.ctx 0x0002 h.tag St.ok
    ((List.range 12).map (fun i => ((s.receive h 0x0002).rd (Reg.mgtTemp i)).toNat) ++ [((s.receive h 0x0002).rd Reg.mgtOven).toNat]
      ++ (List.range 9).map (fun i => ((s.receive h 0x0002).rd (Reg.mgtRail i)).toNat)
      ++ [((s.receive h 0x0002).rd Reg.mgtFeedA).toNat, ((s.receive h 0x0002).rd Reg.mgtFeedB).toNat,
          ((s.receive h 0x0002).rd Reg.mgtBus).toNat, (s.receive h 0x0002).feedStat.toNat]) false)) ∧
  (∀ sel, sel = 1 ∨ sel = 2 → (s.receive h 0x0881).feedOk (sel == 2) = true → Admitted s h 0x0881 { role := .prin, reins := [0] } →
    exec (.feedForce h sel) s = .next (((s.receive h 0x0881).handTo (sel == 2)).answerOk h 0x0881 [])) ∧
  ((s.receive h 0x0910).bitAt Reg.sysFreezeEn 0 = true → Admitted s h 0x0910 { role := .prin, reins := [0] } →
    exec (.freeze h) s = .next (((s.receive h 0x0910).onMgt fun m =>
      { m with freezeAt := some ((s.receive h 0x0910).now + 1250000) }).answerOk h 0x0910 [])) ∧
  (∀ n, n ≤ 8388608 → (s.receive h 0x0801).mgt.update = none →
    ((s.receive h 0x0801).bitAt Reg.mgtStat 1 = true ∨ ((s.receive h 0x0801).mgt.fwb (s.receive h 0x0801).mgt.fwBank).confirmed = true) →
    (s.receive h 0x0801).storeBusy = false →
    Admitted s h 0x0801 { role := .prin, reins := [16] } →
    ∃ u : State, exec (.updateBegin h n) s = .next (u.reply h.ctx 0x0801 h.tag St.accepted [] false) ∧
      u.mgt.update = some { ctx := h.ctx, length := n, bank := 1 - (s.receive h 0x0801).mgt.fwBank, data := [], restart := false } ∧
      u.updState = 1 ∧ ({ ctx := h.ctx, op := 0x0801, tag := h.tag, idx := 0 } : Deferred) ∈ u.deferred) ∧
  (∀ data u, (s.receive h 0x0802).mgt.update = some u → (s.receive h 0x0802).updState = 2 → 1 ≤ data.length → data.length ≤ 4064 →
    u.data.length + data.length ≤ u.length → Admitted s h 0x0802 { role := .prin, reins := [16] } →
    exec (.updateData h u.data.length data) s = .next ((((s.receive h 0x0802).onMgt fun m =>
      { m with update := some { u with data := u.data ++ data } }).setFld Reg.mgtUpdStat 8 24 ((u.data.length + data.length) / 256)).answerOk
        h 0x0802 [])) ∧
  (∀ restart u, (s.receive h 0x0803).mgt.update = some u → (s.receive h 0x0803).updState = 2 →
    Admitted s h 0x0803 { role := .prin, reins := [16] } →
    ∃ v : State, exec (.updateCommit h restart) s = .next (v.reply h.ctx 0x0803 h.tag St.accepted [] false) ∧
      v.mgt.update = some { u with restart := restart } ∧ v.updState = 3) ∧
  ((s.receive h 0x0804).mgt.update.isSome = true → Admitted s h 0x0804 { role := .prin, reins := [16] } →
    exec (.updateAbort h) s = .next ((s.receive h 0x0804).abortUpdate.answerOk h 0x0804 []) ∧
    (s.receive h 0x0804).abortUpdate.mgt.update = none) ∧
  (Admitted s h 0x0805 { role := .any } → exec (.updateStatusGet h) s = .next ((s.receive h 0x0805).reply h.ctx 0x0805 h.tag St.ok
    (((s.receive h 0x0805).rd Reg.mgtUpdStat).toNat :: [0, 1].flatMap fun b =>
      [((s.receive h 0x0805).mgt.fwb b).major * 256 + ((s.receive h 0x0805).mgt.fwb b).minor, ((s.receive h 0x0805).mgt.fwb b).seq,
       b2n ((s.receive h 0x0805).mgt.fwb b).confirmed]) false)) ∧
  ((s.receive h 0x0810).storeBusy = false → Admitted s h 0x0810 { reins := [16] } →
    ∃ u : State, exec (.cfgSave h) s = .next (u.reply h.ctx 0x0810 h.tag St.accepted [] false) ∧
      u.mgt.job = some (.config (otherBank (s.receive h 0x0810).mgt.cfgWinner)) ∧
      ({ ctx := h.ctx, op := 0x0810, tag := h.tag, idx := 0 } : Deferred) ∈ u.deferred) ∧
  ((s.receive h 0x0812).storeBusy = false → Admitted s h 0x0812 { role := .prin, reins := [16] } →
    exec (.cfgFactory h) s = .next (((s.receive h 0x0812).onMgt fun m =>
      { m with job := some (.factory (otherBank m.cfgWinner)) }).answerOk h 0x0812 [])) ∧
  (Admitted s h 0x0813 { role := .any } → exec (.storeStatusGet h) s = .next ((s.receive h 0x0813).reply h.ctx 0x0813 h.tag St.ok
    [(s.receive h 0x0813).storeStat.toNat, ((s.receive h 0x0813).mgt.fwb 0).seq, ((s.receive h 0x0813).mgt.fwb 1).seq,
     ((s.receive h 0x0813).mgt.cfgb 0).seq, ((s.receive h 0x0813).mgt.cfgb 1).seq, Config.calSeq 0, Config.calSeq 1,
     ((s.receive h 0x0813).mgt.svb 0).seq, ((s.receive h 0x0813).mgt.svb 1).seq] false)) ∧
  (∀ first max r, 1 ≤ max → max ≤ 63 → r ∈ (s.receive h 0x0820).mgt.log → r.seq = first → Admitted s h 0x0820 { role := .any } →
    exec (.logRead h first max) s = .next ((s.receive h 0x0820).reply h.ctx 0x0820 h.tag St.ok
      ((((s.receive h 0x0820).mgt.log.filter fun r => decide (first ≤ r.seq)).take max).flatMap LogRec.words) false)) ∧
  (∀ mask, Admitted s h 0x0821 { reins := [16] } →
    exec (.logSet h mask) s = .next (((s.receive h 0x0821).onMgt fun m => { m with logMask := mask }).answerOk h 0x0821 []))

/-- R380, R381, R389, R393 to R399: the firmware, the store, the sensors. -/
def Obligations.FirmwareEventsComplete : Prop := ∀ (s : State),
  (s.fwOn = true → s.mgt.update.isSome = true → s.updState = 1 →
    exec .updateEraseDone s = .next ((s.setUpd 2 0).complete 0x0801 0 St.ok [])) ∧
  (∀ u, s.fwOn = true → s.mgt.update = some u → s.updState = 3 →
    exec (.updateVerifyDone false) s
      = .next (((s.onMgt fun m => { m with update := none }).setUpd 0 0).complete 0x0803 0 St.mismatch []) ∧
    (leNat (slice u.data 0 4) = 0x5B32F1A0 → u.data.length = u.length → leNat (slice u.data 8 4) = u.data.length →
      (u.data.getD 16 0).toNat ≤ s.fld Reg.sysRev 0 8 → ∃ t : State, exec (.updateVerifyDone true) s
        = .next (if u.restart then t.fwRestart 5 else t) ∧ t.updState = 4 ∧
        t.mgt.update = none ∧ (t.mgt.fwb u.bank).valid = true ∧ (t.mgt.fwb u.bank).confirmed = false ∧
        (t.mgt.fwb u.bank).seq = (s.mgt.fwb s.mgt.fwBank).seq + 1) ∧
    (leNat (slice u.data 0 4) = 0x5B32F1A0 → u.data.length = u.length → leNat (slice u.data 8 4) = u.data.length →
      s.fld Reg.sysRev 0 8 < (u.data.getD 16 0).toNat → exec (.updateVerifyDone true) s
        = .next (((s.onMgt fun m => { m with update := none }).setUpd 0 0).complete 0x0803 0 St.state []))) ∧
  (∀ b, s.fwOn = true → s.mgt.job = some (.config b) → ∃ t, exec .storeWriteDone s = .next t ∧
    (t.mgt.cfgb b).valid = true ∧ (t.mgt.cfgb b).seq = s.mgt.nextCfgSeq ∧ (t.mgt.cfgb b).cfg = some s.snapshot ∧
    t.mgt.job = some (.saved (otherBank s.mgt.savedWinner))) ∧
  (∀ b, s.fwOn = true → s.mgt.job = some (.factory b) → ∃ t, exec .storeWriteDone s = .next t ∧
    (t.mgt.cfgb b).valid = true ∧ (t.mgt.cfgb b).seq = s.mgt.nextCfgSeq ∧ (t.mgt.cfgb b).cfg = none ∧
    t.mgt.job = none) ∧
  (∀ b, s.fwOn = true → s.mgt.job = some (.saved b) → ∃ t, exec .storeWriteDone s = .next t ∧
    t.mgt.svb b = { s.mgt.saved with valid := true, seq := s.mgt.nextSavedSeq } ∧ t.mgt.job = none) ∧
  (∀ n, s.fwOn = true → s.mgt.job = some (.erase n) → ∃ t, exec .storeWriteDone s = .next t ∧ t.mgt.job = none ∧
    (n = 1 → t.mgt.cfgBanks = []) ∧ (n = 3 → t.mgt.savedBanks = [])) ∧
  (s.fwOn = true → s.mgt.hourAt + 3600000000000 ≤ s.uptime → exec .savedStateHourlyWrite s = .next (s.onMgt fun m =>
    { m with hourAt := s.uptime, saved := { m.saved with hours := m.saved.hours + 1, failovers := s.fld Reg.mgtFailovers 0 32 } }.saveState)) ∧
  (s.fwOn = true → 0 < s.mgt.suppressed → s.mgt.logSecond < s.uptime / 1000000000 →
    exec .logSuppressReport s = .next ((s.onMgt fun m => { m with suppressed := 0 }).logRec 0x100 4 [s.mgt.suppressed])) ∧
  (s.life = .up → s.mgt.fw = .down → (s.mgt.fwb 0).valid = true → (s.mgt.fwb 0).confirmed = true →
    ∃ t, exec (.boot true false) s = .next t ∧ t.mgt.fw = .started ∧ t.mgt.fwBank = 0) ∧
  (s.life = .up → s.mgt.fw = .down →
    ∃ t, exec (.boot false false) s = .next t ∧ t.mgt.fw = .ready ∧ t.bitAt Reg.mgtStat 1 = true ∧ t.rd Reg.mgtBootCause = orBit (s.rd Reg.mgtBootCause) 9) ∧
  (s.life = .up → s.mgt.fw = .started → exec .firmwareReady s = .next s.becomeReady ∧
    (s.mgt.warm = true → s.becomeReady.mgt.fw = .ready ∧ s.becomeReady.mgt.readyAt = s.uptime ∧ s.becomeReady.roles = s.roles ∧
      s.becomeReady.owners = s.owners)) ∧
  (s.fwOn = true → s.mgt.readyAt + 60000000000 ≤ s.uptime → s.bitAt Reg.mgtStat 1 = false → ∃ t, exec .bootConfirm s = .next t ∧
    (t.mgt.fwb s.mgt.fwBank).confirmed = true) ∧
  (s.fwOn = true → exec .firmwareStop s = .next (s.onMgt fun m => { m with fw := .stopped })) ∧
  (s.life = .up → s.mgt.fw = .stopped → exec .watchdogRestart s = .next (s.fwRestart 6) ∧
    (s.fwRestart 6).mgt.fw = .down ∧ (s.fwRestart 6).fld Reg.mgtBootCause 0 4 = 6) ∧
  (∀ r, s.fwOn = true → ∃ t, exec (.sensorRead r) s = .next t ∧ t.mgt.hot = hotNow s.mgt.hot r.temps)

/-- R240, R382 to R388, R403, R404, R420: power, feeds, resets and freezes. -/
def Obligations.PowerEventsComplete : Prop := ∀ (s : State),
  (∀ ns, 1000 ≤ ns →
    (s.life = .up → exec (.rstNAssert ns) s = .next (s.moduleReset 1)) ∧ (s.life = .frozen → exec (.rstNAssert ns) s = .next s.freezeExit)) ∧
  (∀ a b, s.life = .unpowered → 19200 ≤ a → a ≤ 30000 → ∃ t, exec (.powerUp a b) s = .next t ∧ t.life = .held ∧ t.raw = 0 ∧
    t.uptime = 0 ∧ t.epoch = 0 ∧ t.rd Reg.mgtBootCause = 0 ∧ t.mgt.activeB = false ∧ t.mgt.busOk = true ∧
    t.fld (Reg.clkSynStat 6) 0 2 = 2 ∧ t.fld (Reg.clkSynStat 7) 0 2 = 2) ∧
  (∀ a b, s.life = .unpowered → (a < 19200 ∨ 30000 < a) → 19200 ≤ b → b ≤ 30000 → ∃ t, exec (.powerUp a b) s = .next t ∧
    t.life = .held ∧ t.raw = 0 ∧ t.mgt.activeB = true ∧ t.mgt.busOk = true) ∧
  (∀ a b, (a < 19200 ∨ 30000 < a) → (b < 19200 ∨ 30000 < b) → exec (.powerUp a b) s = .next s) ∧
  (s.life ≠ .unpowered → exec .lossOfPower s = .next s.powerLost) ∧
  (s.powerLost.life = .unpowered ∧ s.powerLost.mgt.log = s.mgt.log ∧ s.powerLost.roles = [] ∧ s.powerLost.reins = []) ∧
  (∀ straps, s.life = .held → s.bitAt (Reg.clkSynStat 6) 0 = true → s.bitAt (Reg.clkSynStat 7) 0 = true → exec (.resetHoldEnd straps) s = .next { s.onMgt (fun m => { m with pullups := ~~~straps }) with life := .up }) ∧
  (∀ ns, s.life = .up → 20 ≤ ns → ∃ t, exec (.frzNAssert ns) s = .next t ∧
    t.mgt.freezeAt = (if s.bitAt Reg.sysFreezeEn 0 then some s.now else s.mgt.freezeAt)) ∧
  (∀ r, s.life = .up → s.mgt.freezeAt = some r → r ≤ s.now → exec .freezeEnter s = .next { s with life := .frozen }) ∧
  (∀ i, s.life = .up → i < 8 → exec (.thermalStop i) s = .next { s with life := .frozen, thermalStop := true }) ∧
  (s.life ≠ .unpowered → s.mgt.failing = true → s.mgt.otherHere = true → s.mgt.handover = false →
    exec (.feedFailover true) s = .next (s.onMgt fun m => { m with handover := true, forced := false, busOk := true }) ∧
    exec (.feedFailover false) s = .next s.powerLost) ∧
  (s.life ≠ .unpowered → s.mgt.handover = true →
    (∃ t, exec (.feedHandoverComplete true) s = .next t ∧ t.mgt.activeB = !s.mgt.activeB ∧ t.mgt.handover = false ∧
      t.bitAt Reg.mgtFeedStat 8 = true) ∧
    (s.mgt.forced = true → ∃ t, exec (.feedHandoverComplete false) s = .next t ∧ t.mgt.activeB = s.mgt.activeB ∧ t.mgt.handover = false ∧
      t.bitAt Reg.mgtFeedStat 9 = true) ∧
    (s.mgt.forced = false → exec (.feedHandoverComplete false) s = .next s.powerLost)) ∧
  (∀ feed mv, s.life ≠ .unpowered → feed < 2 → ∃ t, exec (.feedPresenceChange feed mv) s = .next t ∧
    t.mgt.feedA = (if feed = 0 then mv else s.mgt.feedA) ∧ t.mgt.feedB = (if feed = 0 then s.mgt.feedB else mv)) ∧
  (∀ feed, s.life ≠ .unpowered → feed < 2 → ∃ t, exec (.feedLockout feed) s = .next t ∧
    t.mgt.cutA = (if feed = 0 then true else s.mgt.cutA) ∧ t.mgt.cutB = (if feed = 0 then s.mgt.cutB else true) ∧
    t.mgt.busOk = (if s.mgt.activeB = (feed == 1) then false else s.mgt.busOk)) ∧
  (∀ feed, s.life ≠ .unpowered → feed < 2 → exec (.feedLockoutEnd feed) s = .next (s.onMgt fun m =>
    if feed = 0 then { m with cutA := false } else { m with cutB := false }))

/-- R405, R406: the TAP. BYPASS is one bit of 0; WAFER_READ, MEM_ADDR and MEM_READ work in a freeze after an unlock, and act as
BYPASS otherwise (free bits: log 18). -/
def Obligations.TapComplete : Prop := ∀ (s : State),
  (s.life ≠ .unpowered →
    exec .tapBypass s = .next { s with tap := { s.tap with ir := 0xFF, tdo := [0] } } ∧
    exec .tapIdcode s = .next { s with tap := { s.tap with ir := 0x01, tdo := [Config.bsdlBits 0x01 0] } } ∧
    (∃ b, exec .tapSamplePreload s = .next { s with tap := { s.tap with ir := 0x02, tdo := [b] }, freeCtr := s.freeCtr + 1 }) ∧
    exec .tapFrzStatus s = .next { s with tap := { s.tap with
      ir := 0x43, tdo := [b2n (decide (s.life = .frozen)) + b2n s.tap.unlocked * 2 + b2n s.thermalStop * 4] } }) ∧
  (s.life = .held → ∃ b, exec .tapExtest s = .next { s with tap := { s.tap with ir := 0x00, tdo := [b] }, freeCtr := s.freeCtr + 1 }) ∧
  (∀ n a, s.life = .frozen → s.tap.unlocked = true →
    (∃ bs : List Nat, bs.length = n ∧ (∀ b ∈ bs, b < 2) ∧
      exec (.tapWaferRead n) s = .next { s with tap := { s.tap with ir := 0x40, tdo := bs }, freeCtr := s.freeCtr + 1 }) ∧
    exec (.tapMemAddr a) s = .next { s with tap := { s.tap with ir := 0x41, tdo := [], addr := a.toNat } } ∧
    (∃ ws : List Nat, ws.length = n ∧ exec (.tapMemRead n) s = .next { s with tap := { s.tap with
        ir := 0x42, tdo := ws, addr := (s.tap.addr + 4 * n) % 2 ^ 32 } } ∧
      ∀ i, i < n → 0x1000000 ≤ (s.tap.addr + 4 * i) % 2 ^ 32 → (s.tap.addr + 4 * i) % 2 ^ 32 < 0x1200000 →
        ws.getD i 0 = leNat ((List.range 4).map fun j => s.bankByte ((s.tap.addr + 4 * i) % 2 ^ 32 - 0x1000000 + j)))) ∧
  (∀ n a, s.life ≠ .unpowered → s.tapOpen = false →
    exec (.tapWaferRead n) s = exec .tapBypass s ∧ exec (.tapMemAddr a) s = exec .tapBypass s ∧ exec (.tapMemRead n) s = exec .tapBypass s)

/-- R335, R354, R366, R371: the register and event commands. -/
def Obligations.RegisterCommandsComplete : Prop := ∀ (s : State) (h : CmdHdr),
  (∀ a n, 1 ≤ n → n ≤ 1018 → Admitted s h 0x0901 { role := .any } → exec (.regRead h a n) s
    = .next (((s.receive h 0x0901).busReads h.ctx a n).1.reply h.ctx 0x0901 h.tag St.ok ((s.receive h 0x0901).busReads h.ctx a n).2 false)) ∧
  (∀ ws, 1 ≤ ws.length → ws.length ≤ 509 → Admitted s h 0x0902 {} →
    exec (.regWrite h ws) s = .next (((s.receive h 0x0902).busWrites h.ctx ws).answerOk h 0x0902 [])) ∧
  (Admitted s h 0x0903 { role := .any } → exec (.evtGet h) s = .next ((s.receive h 0x0903).reply h.ctx 0x0903 h.tag St.ok
    ((List.range 8).map (fun j => ((s.receive h 0x0903).rd (Reg.evtStat h.ctx j)).toNat)
      ++ (List.range 8).map (fun j => ((s.receive h 0x0903).rd (Reg.evtMask h.ctx j)).toNat)
      ++ [((s.receive h 0x0903).rd (Reg.evtCfg h.ctx)).toNat]) false)) ∧
  (∀ bits, bits.length = 8 → Admitted s h 0x0904 { role := .any } → ∃ u : State, exec (.evtClear h bits) s = .next (u.answerOk h 0x0904 []) ∧
    (∀ j, j < 8 → u.rd (Reg.evtStat h.ctx j) = (s.receive h 0x0904).rd (Reg.evtStat h.ctx j)
        &&& ~~~(bits.getD j 0 &&& ~~~(s.receive h 0x0904).freshBits (Reg.evtStat h.ctx j))) ∧
    ∀ a, (∀ j, j < 8 → a ≠ Reg.evtStat h.ctx j) → u.rd a = (s.receive h 0x0904).rd a) ∧
  (∀ masks cfg, masks.length = 8 → Admitted s h 0x0905 { role := .any } →
    ∃ u : State, exec (.evtMaskSet h masks cfg) s = .next (u.answerOk h 0x0905 []) ∧ u.rd (Reg.evtCfg h.ctx) = cfg ∧
      (∀ j, j < 8 → u.rd (Reg.evtMask h.ctx j) = masks.getD j 0) ∧
      (∀ j, j < 8 → u.rd (Reg.evtStat h.ctx j) = (s.receive h 0x0905).rd (Reg.evtStat h.ctx j))) ∧
  (∀ first routes, first + routes.length ≤ 256 → 1 ≤ routes.length → (∀ r ∈ routes, r < 256) → Admitted s h 0x0906 { reins := [0] } →
    ∃ u : State, exec (.evtRouteSet h first routes) s = .next (u.answerOk h 0x0906 []) ∧
      (∀ i, i < routes.length → u.fld (Reg.evtRoute (first + i)) 0 8 = routes.getD i 0) ∧
      ∀ c j, c < 8 → j < 8 → u.rd (Reg.evtStat c j) = (s.receive h 0x0906).rd (Reg.evtStat c j))

/-- R342, R352, R356: a register write that its gate lets through merges its writable bits, and a low word of a pair is held;
one that it does not let through, or with fewer than four byte enables, leaves every register as it was. -/
def Obligations.RegisterWritesComplete : Prop := ∀ (s w : State) (c a : Nat) (v : Word) (r : Row) (i j : Nat), s.life = .up → c < 8 →
  w = s.onCx c (fun x => { x with guard := none, heldLo := none }) →
  exec (.regWriteGeneric c a v false) s = .next w ∧
  (guardRegs.contains a = false → (a < 4 ∨ guardRegs.contains (a - 4) = false) → s.regAt a = some (r, i, j) →
    (s.mayWrite c r i v = false → exec (.regWriteGeneric c a v true) s = .next w) ∧
    (s.mayWrite c r i v = true → r.act = .plain → exec (.regWriteGeneric c a v true) s = .next (w.wr a (r.merge (s.rd a) v (s.freshBits a)))) ∧
    (s.mayWrite c r i v = true → r.act = .pairLo → exec (.pairLoWrite c a v) s
      = .next (w.onCx c fun x => { x with heldLo := some (a, v) })))

/-- R9, R219, R361, R362, R385 to R387, R394, R403, R405: a write to a guarded register starts a pair; its exact complement
within 1 ms acts; a pair older than that goes. -/
def Obligations.GuardedPairsAct : Prop := ∀ (s w u : State) (c : Nat), s.life = .up → c < 8 → s.role c = .principal →
  w = s.onCx c (fun x => { x with guard := none, heldLo := none }) →
  (∀ a v, guardRegs.contains a = true → exec (.dgFirstWrite c a v) s
    = .next (w.onCx c fun x => { x with guard := some { addr := a, value := v, raw := s.raw } })) ∧
  (∀ g, (s.cx c).guard = some g → g.raw.toNat + 1250000 < s.now → exec (.dgPairTimeout c) s = .next (s.onCx c fun x => { x with guard := none })) ∧
  (∀ g, (s.cx c).guard = some g → s.now ≤ g.raw.toNat + 1250000 → u = w.logRec 0x100 9 [g.addr, g.value.toNat] →
    (∀ x, x ≠ ~~~g.value → g.addr = Reg.sysReset → exec (.sysResetModuleReset c x) s = .next w) ∧
    (g.addr = Reg.sysReset → g.value = 1 → exec (.sysResetModuleReset c (~~~g.value)) s = .next (u.moduleReset 2)) ∧
    (g.addr = Reg.sysReset → g.value = 2 → exec (.sysResetFirmwareRestart c (~~~g.value)) s = .next (u.fwRestart 5)) ∧
    (g.addr = Reg.sysFreezeEn → ∃ t, exec (.sysFreezeEnWrite c (~~~g.value)) s = .next t ∧ t.rd Reg.sysFreezeEn = g.value ∧
      (s.bitAt Reg.sysFreezeEn 0 = false → bit g.value 0 = true → s.now < s.mgt.frzUntil → t.mgt.freezeAt = some s.now)) ∧
    (g.addr = Reg.sysTapUnlock → g.value = 1 → ∃ t, exec (.sysTapUnlock c (~~~g.value)) s = .next t ∧ t.tap.unlocked = true) ∧
    (g.addr = Reg.sysTapUnlock → g.value = 0 → ∃ t, exec (.sysTapLock c (~~~g.value)) s = .next t ∧ t.tap.unlocked = false) ∧
    (g.addr = Reg.tsuEpochReset → g.value = 1 → exec (.tsuEpochReset c (~~~g.value)) s = .next u.epochReset) ∧
    (g.addr = Reg.mgtFeedForce → g.value = 1 ∨ g.value = 2 → exec (.mgtFeedForce c (~~~g.value)) s = .next (u.handTo (g.value == 2)) ∧
      (u.feedOk (g.value == 2) = true → u.mgt.activeB = (g.value != 2) → (u.handTo (g.value == 2)).mgt.handover = true ∧
        (u.handTo (g.value == 2)).mgt.forced = true)) ∧
    (g.addr = Reg.mgtLaserOvr → ∃ t, exec (.mgtLaserOvr c (~~~g.value)) s = .next t ∧ t.rd Reg.mgtLaserOvr = g.value) ∧
    (g.addr = Reg.memStoreErase → g.value = 1 ∨ g.value = 3 ∨ g.value = 4 → u.storeBusy = false →
      ∃ t, exec (.memStoreErase c (~~~g.value)) s = .next t ∧ t.mgt.job = some (.erase g.value.toNat)))

/-- R56, R85, R132, R133, R137, R166, R203, R288, R313, R315, R360, R374: registers whose writes act at once. -/
def Obligations.ActingWritesComplete : Prop := ∀ (s w : State) (c : Nat) (v : Word), s.life = .up → c < 8 → s.role c ≠ .observer →
  w = s.onCx c (fun x => { x with guard := none, heldLo := none }) →
  (∀ p, p < 28 → s.absent p = false → s.ownsPort c p = true → s.holds c (portRein p) = true →
    exec (.portEnableWrite c p v) s = .next (w.writePhyCtrl p v) ∧
    (p < 24 → exec (.portCapAdvWrite c p v) s
      = .next ((w.wr (Reg.portCapAdv p) v).onPt p fun x => { x with halterDue := true })) ∧
    (16 ≤ p → p < 24 → exec (.portCommit c p) s = .next (w.portCommit p))) ∧
  (s.holds c 8 = true →
    exec (.swcCommit c) s = .next w.swcCommit ∧
    exec (.arbCommit c) s = .next w.arbCommit ∧
    (s.sw.arbDue = none → w.arbCommit.sw.arbDue = some (s.pendK.filter fun x => isArb x.1)) ∧
    (∀ p, p < 28 → s.ownsPort c p = true → exec (.swcSampleWrite c p v) s = .next (w.writeSample p v))) ∧
  (∀ n, n < 6 → s.synThere n = true → s.holds c 12 = true → exec (.clkSynCfgWrite c n v) s = .next ((w.wr (Reg.clkSynCfg n) v).synRestart n (getFld v 0 2))) ∧
  exec (.tblRdSel c v) s = .next (w.latch c (wordsAt (Reg.tblRdW 0) (w.rdEntry v))) ∧
  exec (.cycRdSel c v) s = .next (w.latch c (wordsAt (Reg.cycRdW 0) (w.cycRdWords v))) ∧
  (∀ g, g < 16 → s.owner 5 g = some c →
    exec (.tgCtrlArmWrite c g v) s = .next (w.writeTgCtrl g (putFld v 0 1 1)) ∧
    exec (.tgCtrlDisarmWrite c g v) s = .next (w.writeTgCtrl g (putFld v 0 1 0))) ∧
  (∀ u, u < 4 → s.owner 6 u = some c →
    exec (.iuCtrlArm c u) s = .next (w.iuArm u) ∧ exec (.iuCtrlDisarm c u) s = .next (w.iuDisarm u) ∧
    exec (.iuCtrlFlush c u) s = .next (w.onUnitSt u fun x => { x with queue := [] })) ∧
  (∀ m, m < 16 → (m < 12 ∨ s.role c = .principal) → ∃ t, exec (.pmcSelWrite c m v) s = .next t ∧ t.pmcAt m = 0 ∧
    t.fld (Reg.pmcSel m) 0 12 = getFld v 0 12 ∧ t.bitAt (Reg.pmcSel m) 31 = false)

/-- R56, R150, R213, R214, R307, R355, R375: reads with side effects latch their group, pop their queue and return the word. -/
def Obligations.ReadsComplete : Prop := ∀ (s : State) (c : Nat), s.life = .up → c < 8 →
  exec (.tsuRawLoRead c) s = .next ((s.latch c (wordsAt (Reg.tsuRawLo + 4) s.snapWords)).onCx c fun y => { y with busData := w32 s.now }) ∧
  (∀ d, d < 2 → exec (.tsuGenRead c d) s = .next ((s.latch c (wordsAt (Reg.tsuGen d + 4) (s.genWords d))).onCx c
    fun y => { y with busData := s.rd (Reg.tsuGen d) })) ∧
  (∃ t, exec (.pairLoRead c Reg.sysUptimeLo) s = .next t ∧ (t.cx c).busData = w32 s.uptime ∧
    t.shade c Reg.sysUptimeHi = w32 (s.uptime / 2 ^ 32)) ∧
  (c < 4 → (∃ t, exec (.ftRawLoRead c) s = .next t ∧ (t.cx c).busData = w32 s.now) ∧
    (∀ d, d < 2 → ∃ t, exec (.ftGenRead c d) s = .next t ∧ (t.cx c).busData = s.rd (Reg.tsuGen d))) ∧
  (∀ p, p < 24 → s.absent p = false → ∃ t, exec (.portHalterRx0Read c p) s = .next t ∧
    (t.cx c).busData = (if s.native p then s.rd (Reg.portHalterRx p 0) else 0) ∧
    ∀ k, 1 ≤ k → k < 6 → t.shade c (Reg.portHalterRx p k) = (if s.native p then s.rd (Reg.portHalterRx p k) else 0)) ∧
  (∀ m, m < 16 → (m ≤ 12 ∨ s.bitAt (Reg.pmcSel m) 10 = false) → ∃ t, exec (.pmcChainRead c m) s = .next t ∧
    (t.cx c).busData = w32 (s.pmcAt m) ∧ t.shade c (Reg.pmcCntHi m) = w32 (s.pmcAt m / 2 ^ 32)) ∧
  (∀ r rest, (s.cx c).learn = r :: rest → ∃ t, exec (.tblLrnPop c c) s = .next t ∧ (t.cx c).learn = rest ∧
    (t.cx c).busData = (learnWords r).getD 0 0) ∧
  (∀ q, q < 8 → q ≠ c → exec (.tblLrnPop c q) s = .next (s.onCx c fun y => { y with busData := 0 })) ∧
  (∀ u r rest, u < 4 → s.owner 6 u = some c → (s.unit u).queue = r :: rest → ∃ t, exec (.iuResPop c u) s = .next t ∧
    (t.unit u).queue = rest ∧ (t.cx c).busData = r.words.getD 0 0)

/-- R367: a source raised sets its status bit in exactly the contexts its route names, whatever the masks; a route change moves
no bit; a clearing in the same tick leaves the bit set. -/
def Obligations.RaiseSetsRoutedBits : Prop := ∀ (s : State) (n c : Nat), n < 256 → c < 8 →
  (s.bitAt (Reg.evtRoute n) c = true → (s.raiseBits n).bitAt (Reg.evtStat c (n / 32)) (n % 32) = true) ∧
  (s.bitAt (Reg.evtRoute n) c = false → ∀ j, j < 8 → (s.raiseBits n).rd (Reg.evtStat c j) = s.rd (Reg.evtStat c j)) ∧
  (∀ j k, j < 8 → k < 32 → ¬(j = n / 32 ∧ k = n % 32) → (s.raiseBits n).bitAt (Reg.evtStat c j) k = s.bitAt (Reg.evtStat c j) k) ∧
  (s.bitAt (Reg.evtStat c (n / 32)) (n % 32) = true → ∀ j, j < 8 → (s.raiseBits n).rd (Reg.evtStat c j) = s.rd (Reg.evtStat c j)) ∧
  (s.bitAt (Reg.evtRoute n) c = true → ∀ v : Word, ((s.wr (Reg.evtStat c (n / 32)) (s.rd (Reg.evtStat c (n / 32)) &&& ~~~v)).raiseBits n).bitAt
    (Reg.evtStat c (n / 32)) (n % 32) = true) ∧
  (∀ v j : Nat, j < 8 → (s.setFld (Reg.evtRoute n) 0 8 v).rd (Reg.evtStat c j) = s.rd (Reg.evtStat c j)) ∧
  (s.bitAt (Reg.evtRoute n) c = true → ∀ v : Word, ((s.wr (Reg.evtMask c (n / 32)) v).raiseBits n).bitAt (Reg.evtStat c (n / 32)) (n % 32) = true)

/-- R102, R104: a 32-bit counter counts one; at half range, and only there, its source is raised. R369, R373, R375: event
messages and counter wraps (the wrap rows: log 49). -/
def Obligations.CountersAndMessagesComplete : Prop :=
  (∀ (s : State) (a src : Nat), src < 256 → (∀ c j, c < 8 → j < 8 → a ≠ Reg.evtStat c j) →
    (s.count a src).rd a = s.rd a + 1 ∧
    (s.rd a + 1 ≠ 0x80000000 → s.count a src = s.wr a (s.rd a + 1)) ∧
    (s.rd a + 1 = 0x80000000 → ∀ c, c < 8 → s.bitAt (Reg.evtRoute src) c = true → a ≠ Reg.evtRoute src →
      (s.count a src).bitAt (Reg.evtStat c (src / 32)) (src % 32) = true)) ∧
  (∀ (s : State), s.life = .up →
    (∀ c, c < 4 → s.role c ≠ .observer → s.evtPending c = true → (s.cx c).lastMsg = none → ∃ t, exec (.evtRearmWrite c) s = .next t ∧
      (t.cx c).msix = s.fld (Reg.evtCfg c) 0 5 :: (s.cx c).msix ∧ (t.cx c).lastMsg = some s.now) ∧
    (∀ c r, c < 4 → (s.cx c).msgWait = true → (s.cx c).lastMsg = some r → r + s.fld (Reg.evtCfg c) 16 16 * 1250 ≤ s.now →
      (s.evtPending c = true → ∃ t, exec (.eventHoldoffExpiry c) s = .next t ∧ (t.cx c).msix = s.fld (Reg.evtCfg c) 0 5 :: (s.cx c).msix ∧
        (t.cx c).msgWait = false) ∧
      (s.evtPending c = false → exec (.eventHoldoffExpiry c) s = .next (s.onCx c fun x => { x with msgWait := false }))) ∧
    (∀ m, m < 12 → s.bitAt (Reg.pmcSel m) 9 = true → s.pmcAt m = 2 ^ 48 - 1 → s.fld (Reg.pmcSel m) 0 9 = 0x184 →
      s.fixAt 0x184 + 1 < 2 ^ 48 → ∃ t, exec (.pmuCounterWrap m) s = .next t ∧ t.pmcAt m = 0 ∧ t.bitAt (Reg.pmcSel m) 31 = true) ∧
    (∀ n, n < 512 → perfNamed n = true → s.fixAt n = 2 ^ 48 - 1 → ∃ t, exec (.fixedCounterWrap n) s = .next t ∧ t.fixAt n = 0 ∧
      t.bitAt (Reg.pmuOvf (n / 32)) (n % 32) = true))

/-- R15, R206, R340, R349, R366, R378: the block right after reset (registers whose reset value the spec does not give: the
model's choice, log 10). -/
def Obligations.ResetLeaves : Prop := (∀ c, State.reset.role c = if c = 0 then .principal else .observer) ∧ (∀ r, State.reset.rein r = none) ∧
  (∀ c, (State.reset.cx c).expert = false ∧ (State.reset.cx c).held = [] ∧ (State.reset.cx c).replies = [] ∧ (State.reset.cx c).guard = none) ∧
  State.reset.pending = [] ∧ State.reset.raw = 0 ∧
  (∀ a, State.reset.rd a = Reg.reset a) ∧
  (∀ c j, c < 8 → j < 8 → State.reset.rd (Reg.evtStat c j) = 0 ∧ State.reset.rd (Reg.evtMask c j) = 0xFFFFFFFF) ∧
  (∀ n, State.reset.fixAt n = 0 ∧ State.reset.pmcAt n = 0) ∧ (∀ b a n, State.reset.piBytes b a n = List.replicate n 0)

/-- A step runs the command at the front of the queue on the block without it; on an empty queue a tick of CCLK passes (the
model's choice, log 1). -/
def Obligations.StepRunsTheFront : Prop := ∀ (s : State) (c : Instr) (rest : List Instr),
  (s.pending = c :: rest → step s = exec c { s with pending := rest }) ∧ (s.pending = [] → step s = .next s.tick)

/-- Every well-formed command ends in a next state. -/
def Obligations.WellFormedCommandsComplete : Prop := ∀ (i : Instr) (s : State), i.wellFormed = true → ∃ t, exec i s = .next t

/-- The invariants hold at reset. -/
def Obligations.ResetKeepsInvariant : Prop := Inv State.reset

/-- R15, R336, R180: in every step exactly one of the contexts stays PRINCIPAL, and the process image stays in its canonical
form. -/
def Obligations.StepKeepsInvariant : Prop := ∀ (s t : State), Inv s → step s = .next t → Inv t

/-- R180, R189, R337: unless the module is reset or loses power by it, no command but ROLE_SET changes a role, and no command
but the four that write the process image changes a byte of it; INBOUND_FILE changes none outside the area it files to. -/
def Obligations.RolesAndImageChangeOnlyBy : Prop := ∀ (i : Instr) (s t : State), exec i s = .next t → t.life ≠ .held → t.life ≠ .unpowered →
  ((match i with
    | .roleSet .. => True
    | _ => t.roles = s.roles) ∧
  (match i with
    | .cycPiWrite .. => True
    | .piPayloadWrite .. => True
    | .piSeqWrite .. => True
    | .inboundFile => ∀ x rest f, s.sw.cycIn = x :: rest → s.sw.frame x.id = some f → ∀ a,
        (a < s.cyc.fill * piWindow + (payBase + (s.cyc.act.i (s.stream f.stream).slot).poff) ∨
          s.cyc.fill * piWindow + (payBase + (s.cyc.act.i (s.stream f.stream).slot).poff) + (s.cyc.act.i (s.stream f.stream).slot).size ≤ a) →
        Memory.read t.cyc.image a = Memory.read s.cyc.image a
    | _ => ∀ a, Memory.read t.cyc.image a = Memory.read s.cyc.image a))
end

