-- ==== Sys2Proof/Laws/Tab.lean ====
section
/-! SUPPORT. The laws of sparse tables: a read after a write, and the canonical form kept by every write. -/

namespace Sys2Proof.Machine

variable {α : Type} (d : Nat → α)

/-- Unlisting a key reads as its default there and changes no other key. -/
theorem Tab.get_del (t : Tab α) (k i : Nat) : Tab.get d (Tab.del t k) i = if i = k then d k else Tab.get d t i := by
  induction t with
  | nil => simp [Tab.del, Tab.get]; rintro rfl; rfl
  | cons x t ih =>
    obtain ⟨j, v⟩ := x
    simp only [Tab.del]
    split
    · next h => subst h; rw [ih]; simp only [Tab.get]; split <;> simp_all
    · next h => simp only [Tab.get]; rw [ih]; split <;> simp_all; rintro rfl; exact absurd rfl h

/-- Listing a value reads back there and changes no other key. -/
theorem Tab.get_put (t : Tab α) (k i : Nat) (v : α) : Tab.get d (Tab.put t k v) i = if i = k then v else Tab.get d t i := by
  induction t with
  | nil => simp [Tab.put, Tab.get]
  | cons x t ih =>
    obtain ⟨j, w⟩ := x
    simp only [Tab.put]
    split
    · simp [Tab.get]
    · split
      · next h => subst h; simp only [Tab.get]; split <;> simp_all
      · next h => simp only [Tab.get]; rw [ih]; split <;> simp_all; intro h'; exact absurd h'.symm h

/-- A table reads back what is written, and keeps every other key. -/
theorem Tab.get_set [DecidableEq α] (t : Tab α) (k i : Nat) (v : α) :
    Tab.get d (Tab.set d t k v) i = if i = k then v else Tab.get d t i := by
  unfold Tab.set
  split
  · next h => rw [Tab.get_del, h]
  · exact Tab.get_put d t k i v

/-- The key written. -/
@[simp] theorem Tab.get_set_self [DecidableEq α] (t : Tab α) (k : Nat) (v : α) : Tab.get d (Tab.set d t k v) k = v := by
  simp [Tab.get_set]

/-- A key not written. -/
theorem Tab.get_set_of_ne [DecidableEq α] (t : Tab α) {k i : Nat} (v : α) (h : i ≠ k) :
    Tab.get d (Tab.set d t k v) i = Tab.get d t i := by
  simp [Tab.get_set, h]

theorem Tab.above_mono [DecidableEq α] {a b : Nat} (t : Tab α) (h : a ≤ b) (hb : Tab.above d b t = true) : Tab.above d a t = true := by
  cases t with
  | nil => rfl
  | cons x t =>
    simp only [Tab.above, Bool.and_eq_true, decide_eq_true_eq] at *
    exact ⟨⟨le_trans h hb.1.1, hb.1.2⟩, hb.2⟩

theorem Tab.above_del [DecidableEq α] (t : Tab α) (k b : Nat) (h : Tab.above d b t = true) : Tab.above d b (Tab.del t k) = true := by
  induction t generalizing b with
  | nil => rfl
  | cons x t ih =>
    obtain ⟨j, v⟩ := x
    simp only [Tab.above, Bool.and_eq_true, decide_eq_true_eq] at h
    simp only [Tab.del]
    split
    · exact ih b (Tab.above_mono d t (by omega) h.2)
    · simp only [Tab.above, Bool.and_eq_true, decide_eq_true_eq]; exact ⟨h.1, ih _ h.2⟩

theorem Tab.above_put [DecidableEq α] (t : Tab α) (k b : Nat) (v : α) (hv : v ≠ d k) (hk : b ≤ k) (h : Tab.above d b t = true) :
    Tab.above d b (Tab.put t k v) = true := by
  induction t generalizing b with
  | nil => simp [Tab.put, Tab.above, hv, hk]
  | cons x t ih =>
    obtain ⟨j, w⟩ := x
    simp only [Tab.above, Bool.and_eq_true, decide_eq_true_eq] at h
    simp only [Tab.put]
    split
    · next hlt => simp only [Tab.above, Bool.and_eq_true, decide_eq_true_eq]; exact ⟨⟨hk, hv⟩, ⟨hlt, h.1.2⟩, h.2⟩
    · split
      · next heq => subst heq; simp only [Tab.above, Bool.and_eq_true, decide_eq_true_eq]; exact ⟨⟨hk, hv⟩, h.2⟩
      · simp only [Tab.above, Bool.and_eq_true, decide_eq_true_eq]; exact ⟨h.1, ih _ (by omega) h.2⟩

/-- Every write keeps the canonical form. -/
theorem Tab.wf_set [DecidableEq α] (t : Tab α) (k : Nat) (v : α) (h : Tab.wf d t = true) : Tab.wf d (Tab.set d t k v) = true := by
  unfold Tab.set
  split
  · exact Tab.above_del d t k 0 h
  · next hv => exact Tab.above_put d t k 0 v hv (Nat.zero_le _) h

end Sys2Proof.Machine
end

