-- ==== Sys2Proof/Laws/State.lean ====
section
/-! SUPPORT. The fields of a state after each named update: the one field it changes reads what it was given, the others as
before. -/

namespace Sys2Proof.Machine

variable (s : State)

/-! `State.wr` changes `regs` alone. -/

@[simp] theorem State.wr_pending (a : Nat) (v : Word) : (s.wr a v).pending = s.pending := (rfl)
@[simp] theorem State.wr_code (a : Nat) (v : Word) : (s.wr a v).code = s.code := (rfl)
@[simp] theorem State.wr_nodeId (a : Nat) (v : Word) : (s.wr a v).nodeId = s.nodeId := (rfl)
@[simp] theorem State.wr_serial (a : Nat) (v : Word) : (s.wr a v).serial = s.serial := (rfl)
@[simp] theorem State.wr_life (a : Nat) (v : Word) : (s.wr a v).life = s.life := (rfl)
@[simp] theorem State.wr_thermalStop (a : Nat) (v : Word) : (s.wr a v).thermalStop = s.thermalStop := (rfl)
@[simp] theorem State.wr_raw (a : Nat) (v : Word) : (s.wr a v).raw = s.raw := (rfl)
@[simp] theorem State.wr_uptime (a : Nat) (v : Word) : (s.wr a v).uptime = s.uptime := (rfl)
@[simp] theorem State.wr_epoch (a : Nat) (v : Word) : (s.wr a v).epoch = s.epoch := (rfl)
@[simp] theorem State.wr_freeCtr (a : Nat) (v : Word) : (s.wr a v).freeCtr = s.freeCtr := (rfl)
@[simp] theorem State.wr_setAt (a : Nat) (v : Word) : (s.wr a v).setAt = s.setAt := (rfl)
@[simp] theorem State.wr_setNow (a : Nat) (v : Word) : (s.wr a v).setNow = s.setNow := (rfl)
@[simp] theorem State.wr_pendK (a : Nat) (v : Word) : (s.wr a v).pendK = s.pendK := (rfl)
@[simp] theorem State.wr_pendF (a : Nat) (v : Word) : (s.wr a v).pendF = s.pendF := (rfl)
@[simp] theorem State.wr_roles (a : Nat) (v : Word) : (s.wr a v).roles = s.roles := (rfl)
@[simp] theorem State.wr_reins (a : Nat) (v : Word) : (s.wr a v).reins = s.reins := (rfl)
@[simp] theorem State.wr_owners (a : Nat) (v : Word) : (s.wr a v).owners = s.owners := (rfl)
@[simp] theorem State.wr_ctx (a : Nat) (v : Word) : (s.wr a v).ctx = s.ctx := (rfl)
@[simp] theorem State.wr_deferred (a : Nat) (v : Word) : (s.wr a v).deferred = s.deferred := (rfl)
@[simp] theorem State.wr_pmuFix (a : Nat) (v : Word) : (s.wr a v).pmuFix = s.pmuFix := (rfl)
@[simp] theorem State.wr_pmc (a : Nat) (v : Word) : (s.wr a v).pmc = s.pmc := (rfl)
@[simp] theorem State.wr_port (a : Nat) (v : Word) : (s.wr a v).port = s.port := (rfl)
@[simp] theorem State.wr_boards (a : Nat) (v : Word) : (s.wr a v).boards = s.boards := (rfl)
@[simp] theorem State.wr_hashAt (a : Nat) (v : Word) : (s.wr a v).hashAt = s.hashAt := (rfl)
@[simp] theorem State.wr_prevHash (a : Nat) (v : Word) : (s.wr a v).prevHash = s.prevHash := (rfl)
@[simp] theorem State.wr_prevPeriod (a : Nat) (v : Word) : (s.wr a v).prevPeriod = s.prevPeriod := (rfl)
@[simp] theorem State.wr_tim (a : Nat) (v : Word) : (s.wr a v).tim = s.tim := (rfl)
@[simp] theorem State.wr_ptime (a : Nat) (v : Word) : (s.wr a v).ptime = s.ptime := (rfl)
@[simp] theorem State.wr_sw (a : Nat) (v : Word) : (s.wr a v).sw = s.sw := (rfl)
@[simp] theorem State.wr_tbl (a : Nat) (v : Word) : (s.wr a v).tbl = s.tbl := (rfl)
@[simp] theorem State.wr_cyc (a : Nat) (v : Word) : (s.wr a v).cyc = s.cyc := (rfl)
@[simp] theorem State.wr_clk (a : Nat) (v : Word) : (s.wr a v).clk = s.clk := (rfl)
@[simp] theorem State.wr_iu (a : Nat) (v : Word) : (s.wr a v).iu = s.iu := (rfl)
@[simp] theorem State.wr_tg (a : Nat) (v : Word) : (s.wr a v).tg = s.tg := (rfl)
@[simp] theorem State.wr_mgt (a : Nat) (v : Word) : (s.wr a v).mgt = s.mgt := (rfl)
@[simp] theorem State.wr_tap (a : Nat) (v : Word) : (s.wr a v).tap = s.tap := (rfl)

/-! `State.setFld` changes `regs` alone. -/

@[simp] theorem State.setFld_pending (a lo len v : Nat) : (s.setFld a lo len v).pending = s.pending := (rfl)
@[simp] theorem State.setFld_code (a lo len v : Nat) : (s.setFld a lo len v).code = s.code := (rfl)
@[simp] theorem State.setFld_nodeId (a lo len v : Nat) : (s.setFld a lo len v).nodeId = s.nodeId := (rfl)
@[simp] theorem State.setFld_serial (a lo len v : Nat) : (s.setFld a lo len v).serial = s.serial := (rfl)
@[simp] theorem State.setFld_life (a lo len v : Nat) : (s.setFld a lo len v).life = s.life := (rfl)
@[simp] theorem State.setFld_thermalStop (a lo len v : Nat) : (s.setFld a lo len v).thermalStop = s.thermalStop := (rfl)
@[simp] theorem State.setFld_raw (a lo len v : Nat) : (s.setFld a lo len v).raw = s.raw := (rfl)
@[simp] theorem State.setFld_uptime (a lo len v : Nat) : (s.setFld a lo len v).uptime = s.uptime := (rfl)
@[simp] theorem State.setFld_epoch (a lo len v : Nat) : (s.setFld a lo len v).epoch = s.epoch := (rfl)
@[simp] theorem State.setFld_freeCtr (a lo len v : Nat) : (s.setFld a lo len v).freeCtr = s.freeCtr := (rfl)
@[simp] theorem State.setFld_setAt (a lo len v : Nat) : (s.setFld a lo len v).setAt = s.setAt := (rfl)
@[simp] theorem State.setFld_setNow (a lo len v : Nat) : (s.setFld a lo len v).setNow = s.setNow := (rfl)
@[simp] theorem State.setFld_pendK (a lo len v : Nat) : (s.setFld a lo len v).pendK = s.pendK := (rfl)
@[simp] theorem State.setFld_pendF (a lo len v : Nat) : (s.setFld a lo len v).pendF = s.pendF := (rfl)
@[simp] theorem State.setFld_roles (a lo len v : Nat) : (s.setFld a lo len v).roles = s.roles := (rfl)
@[simp] theorem State.setFld_reins (a lo len v : Nat) : (s.setFld a lo len v).reins = s.reins := (rfl)
@[simp] theorem State.setFld_owners (a lo len v : Nat) : (s.setFld a lo len v).owners = s.owners := (rfl)
@[simp] theorem State.setFld_ctx (a lo len v : Nat) : (s.setFld a lo len v).ctx = s.ctx := (rfl)
@[simp] theorem State.setFld_deferred (a lo len v : Nat) : (s.setFld a lo len v).deferred = s.deferred := (rfl)
@[simp] theorem State.setFld_pmuFix (a lo len v : Nat) : (s.setFld a lo len v).pmuFix = s.pmuFix := (rfl)
@[simp] theorem State.setFld_pmc (a lo len v : Nat) : (s.setFld a lo len v).pmc = s.pmc := (rfl)
@[simp] theorem State.setFld_port (a lo len v : Nat) : (s.setFld a lo len v).port = s.port := (rfl)
@[simp] theorem State.setFld_boards (a lo len v : Nat) : (s.setFld a lo len v).boards = s.boards := (rfl)
@[simp] theorem State.setFld_hashAt (a lo len v : Nat) : (s.setFld a lo len v).hashAt = s.hashAt := (rfl)
@[simp] theorem State.setFld_prevHash (a lo len v : Nat) : (s.setFld a lo len v).prevHash = s.prevHash := (rfl)
@[simp] theorem State.setFld_prevPeriod (a lo len v : Nat) : (s.setFld a lo len v).prevPeriod = s.prevPeriod := (rfl)
@[simp] theorem State.setFld_tim (a lo len v : Nat) : (s.setFld a lo len v).tim = s.tim := (rfl)
@[simp] theorem State.setFld_ptime (a lo len v : Nat) : (s.setFld a lo len v).ptime = s.ptime := (rfl)
@[simp] theorem State.setFld_sw (a lo len v : Nat) : (s.setFld a lo len v).sw = s.sw := (rfl)
@[simp] theorem State.setFld_tbl (a lo len v : Nat) : (s.setFld a lo len v).tbl = s.tbl := (rfl)
@[simp] theorem State.setFld_cyc (a lo len v : Nat) : (s.setFld a lo len v).cyc = s.cyc := (rfl)
@[simp] theorem State.setFld_clk (a lo len v : Nat) : (s.setFld a lo len v).clk = s.clk := (rfl)
@[simp] theorem State.setFld_iu (a lo len v : Nat) : (s.setFld a lo len v).iu = s.iu := (rfl)
@[simp] theorem State.setFld_tg (a lo len v : Nat) : (s.setFld a lo len v).tg = s.tg := (rfl)
@[simp] theorem State.setFld_mgt (a lo len v : Nat) : (s.setFld a lo len v).mgt = s.mgt := (rfl)
@[simp] theorem State.setFld_tap (a lo len v : Nat) : (s.setFld a lo len v).tap = s.tap := (rfl)

/-! `State.stick` changes `regs`, `setAt`, `setNow` alone. -/

@[simp] theorem State.stick_pending (a i : Nat) : (s.stick a i).pending = s.pending := (rfl)
@[simp] theorem State.stick_code (a i : Nat) : (s.stick a i).code = s.code := (rfl)
@[simp] theorem State.stick_nodeId (a i : Nat) : (s.stick a i).nodeId = s.nodeId := (rfl)
@[simp] theorem State.stick_serial (a i : Nat) : (s.stick a i).serial = s.serial := (rfl)
@[simp] theorem State.stick_life (a i : Nat) : (s.stick a i).life = s.life := (rfl)
@[simp] theorem State.stick_thermalStop (a i : Nat) : (s.stick a i).thermalStop = s.thermalStop := (rfl)
@[simp] theorem State.stick_raw (a i : Nat) : (s.stick a i).raw = s.raw := (rfl)
@[simp] theorem State.stick_uptime (a i : Nat) : (s.stick a i).uptime = s.uptime := (rfl)
@[simp] theorem State.stick_epoch (a i : Nat) : (s.stick a i).epoch = s.epoch := (rfl)
@[simp] theorem State.stick_freeCtr (a i : Nat) : (s.stick a i).freeCtr = s.freeCtr := (rfl)
@[simp] theorem State.stick_pendK (a i : Nat) : (s.stick a i).pendK = s.pendK := (rfl)
@[simp] theorem State.stick_pendF (a i : Nat) : (s.stick a i).pendF = s.pendF := (rfl)
@[simp] theorem State.stick_roles (a i : Nat) : (s.stick a i).roles = s.roles := (rfl)
@[simp] theorem State.stick_reins (a i : Nat) : (s.stick a i).reins = s.reins := (rfl)
@[simp] theorem State.stick_owners (a i : Nat) : (s.stick a i).owners = s.owners := (rfl)
@[simp] theorem State.stick_ctx (a i : Nat) : (s.stick a i).ctx = s.ctx := (rfl)
@[simp] theorem State.stick_deferred (a i : Nat) : (s.stick a i).deferred = s.deferred := (rfl)
@[simp] theorem State.stick_pmuFix (a i : Nat) : (s.stick a i).pmuFix = s.pmuFix := (rfl)
@[simp] theorem State.stick_pmc (a i : Nat) : (s.stick a i).pmc = s.pmc := (rfl)
@[simp] theorem State.stick_port (a i : Nat) : (s.stick a i).port = s.port := (rfl)
@[simp] theorem State.stick_boards (a i : Nat) : (s.stick a i).boards = s.boards := (rfl)
@[simp] theorem State.stick_hashAt (a i : Nat) : (s.stick a i).hashAt = s.hashAt := (rfl)
@[simp] theorem State.stick_prevHash (a i : Nat) : (s.stick a i).prevHash = s.prevHash := (rfl)
@[simp] theorem State.stick_prevPeriod (a i : Nat) : (s.stick a i).prevPeriod = s.prevPeriod := (rfl)
@[simp] theorem State.stick_tim (a i : Nat) : (s.stick a i).tim = s.tim := (rfl)
@[simp] theorem State.stick_ptime (a i : Nat) : (s.stick a i).ptime = s.ptime := (rfl)
@[simp] theorem State.stick_sw (a i : Nat) : (s.stick a i).sw = s.sw := (rfl)
@[simp] theorem State.stick_tbl (a i : Nat) : (s.stick a i).tbl = s.tbl := (rfl)
@[simp] theorem State.stick_cyc (a i : Nat) : (s.stick a i).cyc = s.cyc := (rfl)
@[simp] theorem State.stick_clk (a i : Nat) : (s.stick a i).clk = s.clk := (rfl)
@[simp] theorem State.stick_iu (a i : Nat) : (s.stick a i).iu = s.iu := (rfl)
@[simp] theorem State.stick_tg (a i : Nat) : (s.stick a i).tg = s.tg := (rfl)
@[simp] theorem State.stick_mgt (a i : Nat) : (s.stick a i).mgt = s.mgt := (rfl)
@[simp] theorem State.stick_tap (a i : Nat) : (s.stick a i).tap = s.tap := (rfl)

/-! `State.stage` changes `pendK` alone. -/

@[simp] theorem State.stage_pending (a : Nat) (v : Word) : (s.stage a v).pending = s.pending := (rfl)
@[simp] theorem State.stage_code (a : Nat) (v : Word) : (s.stage a v).code = s.code := (rfl)
@[simp] theorem State.stage_nodeId (a : Nat) (v : Word) : (s.stage a v).nodeId = s.nodeId := (rfl)
@[simp] theorem State.stage_serial (a : Nat) (v : Word) : (s.stage a v).serial = s.serial := (rfl)
@[simp] theorem State.stage_life (a : Nat) (v : Word) : (s.stage a v).life = s.life := (rfl)
@[simp] theorem State.stage_thermalStop (a : Nat) (v : Word) : (s.stage a v).thermalStop = s.thermalStop := (rfl)
@[simp] theorem State.stage_raw (a : Nat) (v : Word) : (s.stage a v).raw = s.raw := (rfl)
@[simp] theorem State.stage_uptime (a : Nat) (v : Word) : (s.stage a v).uptime = s.uptime := (rfl)
@[simp] theorem State.stage_epoch (a : Nat) (v : Word) : (s.stage a v).epoch = s.epoch := (rfl)
@[simp] theorem State.stage_freeCtr (a : Nat) (v : Word) : (s.stage a v).freeCtr = s.freeCtr := (rfl)
@[simp] theorem State.stage_regs (a : Nat) (v : Word) : (s.stage a v).regs = s.regs := (rfl)
@[simp] theorem State.stage_setAt (a : Nat) (v : Word) : (s.stage a v).setAt = s.setAt := (rfl)
@[simp] theorem State.stage_setNow (a : Nat) (v : Word) : (s.stage a v).setNow = s.setNow := (rfl)
@[simp] theorem State.stage_pendF (a : Nat) (v : Word) : (s.stage a v).pendF = s.pendF := (rfl)
@[simp] theorem State.stage_roles (a : Nat) (v : Word) : (s.stage a v).roles = s.roles := (rfl)
@[simp] theorem State.stage_reins (a : Nat) (v : Word) : (s.stage a v).reins = s.reins := (rfl)
@[simp] theorem State.stage_owners (a : Nat) (v : Word) : (s.stage a v).owners = s.owners := (rfl)
@[simp] theorem State.stage_ctx (a : Nat) (v : Word) : (s.stage a v).ctx = s.ctx := (rfl)
@[simp] theorem State.stage_deferred (a : Nat) (v : Word) : (s.stage a v).deferred = s.deferred := (rfl)
@[simp] theorem State.stage_pmuFix (a : Nat) (v : Word) : (s.stage a v).pmuFix = s.pmuFix := (rfl)
@[simp] theorem State.stage_pmc (a : Nat) (v : Word) : (s.stage a v).pmc = s.pmc := (rfl)
@[simp] theorem State.stage_port (a : Nat) (v : Word) : (s.stage a v).port = s.port := (rfl)
@[simp] theorem State.stage_boards (a : Nat) (v : Word) : (s.stage a v).boards = s.boards := (rfl)
@[simp] theorem State.stage_hashAt (a : Nat) (v : Word) : (s.stage a v).hashAt = s.hashAt := (rfl)
@[simp] theorem State.stage_prevHash (a : Nat) (v : Word) : (s.stage a v).prevHash = s.prevHash := (rfl)
@[simp] theorem State.stage_prevPeriod (a : Nat) (v : Word) : (s.stage a v).prevPeriod = s.prevPeriod := (rfl)
@[simp] theorem State.stage_tim (a : Nat) (v : Word) : (s.stage a v).tim = s.tim := (rfl)
@[simp] theorem State.stage_ptime (a : Nat) (v : Word) : (s.stage a v).ptime = s.ptime := (rfl)
@[simp] theorem State.stage_sw (a : Nat) (v : Word) : (s.stage a v).sw = s.sw := (rfl)
@[simp] theorem State.stage_tbl (a : Nat) (v : Word) : (s.stage a v).tbl = s.tbl := (rfl)
@[simp] theorem State.stage_cyc (a : Nat) (v : Word) : (s.stage a v).cyc = s.cyc := (rfl)
@[simp] theorem State.stage_clk (a : Nat) (v : Word) : (s.stage a v).clk = s.clk := (rfl)
@[simp] theorem State.stage_iu (a : Nat) (v : Word) : (s.stage a v).iu = s.iu := (rfl)
@[simp] theorem State.stage_tg (a : Nat) (v : Word) : (s.stage a v).tg = s.tg := (rfl)
@[simp] theorem State.stage_mgt (a : Nat) (v : Word) : (s.stage a v).mgt = s.mgt := (rfl)
@[simp] theorem State.stage_tap (a : Nat) (v : Word) : (s.stage a v).tap = s.tap := (rfl)

/-! `State.onCx` changes `ctx` alone. -/

@[simp] theorem State.onCx_pending (c : Nat) (f : Ctx → Ctx) : (s.onCx c f).pending = s.pending := (rfl)
@[simp] theorem State.onCx_code (c : Nat) (f : Ctx → Ctx) : (s.onCx c f).code = s.code := (rfl)
@[simp] theorem State.onCx_nodeId (c : Nat) (f : Ctx → Ctx) : (s.onCx c f).nodeId = s.nodeId := (rfl)
@[simp] theorem State.onCx_serial (c : Nat) (f : Ctx → Ctx) : (s.onCx c f).serial = s.serial := (rfl)
@[simp] theorem State.onCx_life (c : Nat) (f : Ctx → Ctx) : (s.onCx c f).life = s.life := (rfl)
@[simp] theorem State.onCx_thermalStop (c : Nat) (f : Ctx → Ctx) : (s.onCx c f).thermalStop = s.thermalStop := (rfl)
@[simp] theorem State.onCx_raw (c : Nat) (f : Ctx → Ctx) : (s.onCx c f).raw = s.raw := (rfl)
@[simp] theorem State.onCx_uptime (c : Nat) (f : Ctx → Ctx) : (s.onCx c f).uptime = s.uptime := (rfl)
@[simp] theorem State.onCx_epoch (c : Nat) (f : Ctx → Ctx) : (s.onCx c f).epoch = s.epoch := (rfl)
@[simp] theorem State.onCx_freeCtr (c : Nat) (f : Ctx → Ctx) : (s.onCx c f).freeCtr = s.freeCtr := (rfl)
@[simp] theorem State.onCx_regs (c : Nat) (f : Ctx → Ctx) : (s.onCx c f).regs = s.regs := (rfl)
@[simp] theorem State.onCx_setAt (c : Nat) (f : Ctx → Ctx) : (s.onCx c f).setAt = s.setAt := (rfl)
@[simp] theorem State.onCx_setNow (c : Nat) (f : Ctx → Ctx) : (s.onCx c f).setNow = s.setNow := (rfl)
@[simp] theorem State.onCx_pendK (c : Nat) (f : Ctx → Ctx) : (s.onCx c f).pendK = s.pendK := (rfl)
@[simp] theorem State.onCx_pendF (c : Nat) (f : Ctx → Ctx) : (s.onCx c f).pendF = s.pendF := (rfl)
@[simp] theorem State.onCx_roles (c : Nat) (f : Ctx → Ctx) : (s.onCx c f).roles = s.roles := (rfl)
@[simp] theorem State.onCx_reins (c : Nat) (f : Ctx → Ctx) : (s.onCx c f).reins = s.reins := (rfl)
@[simp] theorem State.onCx_owners (c : Nat) (f : Ctx → Ctx) : (s.onCx c f).owners = s.owners := (rfl)
@[simp] theorem State.onCx_deferred (c : Nat) (f : Ctx → Ctx) : (s.onCx c f).deferred = s.deferred := (rfl)
@[simp] theorem State.onCx_pmuFix (c : Nat) (f : Ctx → Ctx) : (s.onCx c f).pmuFix = s.pmuFix := (rfl)
@[simp] theorem State.onCx_pmc (c : Nat) (f : Ctx → Ctx) : (s.onCx c f).pmc = s.pmc := (rfl)
@[simp] theorem State.onCx_port (c : Nat) (f : Ctx → Ctx) : (s.onCx c f).port = s.port := (rfl)
@[simp] theorem State.onCx_boards (c : Nat) (f : Ctx → Ctx) : (s.onCx c f).boards = s.boards := (rfl)
@[simp] theorem State.onCx_hashAt (c : Nat) (f : Ctx → Ctx) : (s.onCx c f).hashAt = s.hashAt := (rfl)
@[simp] theorem State.onCx_prevHash (c : Nat) (f : Ctx → Ctx) : (s.onCx c f).prevHash = s.prevHash := (rfl)
@[simp] theorem State.onCx_prevPeriod (c : Nat) (f : Ctx → Ctx) : (s.onCx c f).prevPeriod = s.prevPeriod := (rfl)
@[simp] theorem State.onCx_tim (c : Nat) (f : Ctx → Ctx) : (s.onCx c f).tim = s.tim := (rfl)
@[simp] theorem State.onCx_ptime (c : Nat) (f : Ctx → Ctx) : (s.onCx c f).ptime = s.ptime := (rfl)
@[simp] theorem State.onCx_sw (c : Nat) (f : Ctx → Ctx) : (s.onCx c f).sw = s.sw := (rfl)
@[simp] theorem State.onCx_tbl (c : Nat) (f : Ctx → Ctx) : (s.onCx c f).tbl = s.tbl := (rfl)
@[simp] theorem State.onCx_cyc (c : Nat) (f : Ctx → Ctx) : (s.onCx c f).cyc = s.cyc := (rfl)
@[simp] theorem State.onCx_clk (c : Nat) (f : Ctx → Ctx) : (s.onCx c f).clk = s.clk := (rfl)
@[simp] theorem State.onCx_iu (c : Nat) (f : Ctx → Ctx) : (s.onCx c f).iu = s.iu := (rfl)
@[simp] theorem State.onCx_tg (c : Nat) (f : Ctx → Ctx) : (s.onCx c f).tg = s.tg := (rfl)
@[simp] theorem State.onCx_mgt (c : Nat) (f : Ctx → Ctx) : (s.onCx c f).mgt = s.mgt := (rfl)
@[simp] theorem State.onCx_tap (c : Nat) (f : Ctx → Ctx) : (s.onCx c f).tap = s.tap := (rfl)

/-! `State.setRole` changes `roles` alone. -/

@[simp] theorem State.setRole_pending (c : Nat) (r : Role) : (s.setRole c r).pending = s.pending := (rfl)
@[simp] theorem State.setRole_code (c : Nat) (r : Role) : (s.setRole c r).code = s.code := (rfl)
@[simp] theorem State.setRole_nodeId (c : Nat) (r : Role) : (s.setRole c r).nodeId = s.nodeId := (rfl)
@[simp] theorem State.setRole_serial (c : Nat) (r : Role) : (s.setRole c r).serial = s.serial := (rfl)
@[simp] theorem State.setRole_life (c : Nat) (r : Role) : (s.setRole c r).life = s.life := (rfl)
@[simp] theorem State.setRole_thermalStop (c : Nat) (r : Role) : (s.setRole c r).thermalStop = s.thermalStop := (rfl)
@[simp] theorem State.setRole_raw (c : Nat) (r : Role) : (s.setRole c r).raw = s.raw := (rfl)
@[simp] theorem State.setRole_uptime (c : Nat) (r : Role) : (s.setRole c r).uptime = s.uptime := (rfl)
@[simp] theorem State.setRole_epoch (c : Nat) (r : Role) : (s.setRole c r).epoch = s.epoch := (rfl)
@[simp] theorem State.setRole_freeCtr (c : Nat) (r : Role) : (s.setRole c r).freeCtr = s.freeCtr := (rfl)
@[simp] theorem State.setRole_regs (c : Nat) (r : Role) : (s.setRole c r).regs = s.regs := (rfl)
@[simp] theorem State.setRole_setAt (c : Nat) (r : Role) : (s.setRole c r).setAt = s.setAt := (rfl)
@[simp] theorem State.setRole_setNow (c : Nat) (r : Role) : (s.setRole c r).setNow = s.setNow := (rfl)
@[simp] theorem State.setRole_pendK (c : Nat) (r : Role) : (s.setRole c r).pendK = s.pendK := (rfl)
@[simp] theorem State.setRole_pendF (c : Nat) (r : Role) : (s.setRole c r).pendF = s.pendF := (rfl)
@[simp] theorem State.setRole_reins (c : Nat) (r : Role) : (s.setRole c r).reins = s.reins := (rfl)
@[simp] theorem State.setRole_owners (c : Nat) (r : Role) : (s.setRole c r).owners = s.owners := (rfl)
@[simp] theorem State.setRole_ctx (c : Nat) (r : Role) : (s.setRole c r).ctx = s.ctx := (rfl)
@[simp] theorem State.setRole_deferred (c : Nat) (r : Role) : (s.setRole c r).deferred = s.deferred := (rfl)
@[simp] theorem State.setRole_pmuFix (c : Nat) (r : Role) : (s.setRole c r).pmuFix = s.pmuFix := (rfl)
@[simp] theorem State.setRole_pmc (c : Nat) (r : Role) : (s.setRole c r).pmc = s.pmc := (rfl)
@[simp] theorem State.setRole_port (c : Nat) (r : Role) : (s.setRole c r).port = s.port := (rfl)
@[simp] theorem State.setRole_boards (c : Nat) (r : Role) : (s.setRole c r).boards = s.boards := (rfl)
@[simp] theorem State.setRole_hashAt (c : Nat) (r : Role) : (s.setRole c r).hashAt = s.hashAt := (rfl)
@[simp] theorem State.setRole_prevHash (c : Nat) (r : Role) : (s.setRole c r).prevHash = s.prevHash := (rfl)
@[simp] theorem State.setRole_prevPeriod (c : Nat) (r : Role) : (s.setRole c r).prevPeriod = s.prevPeriod := (rfl)
@[simp] theorem State.setRole_tim (c : Nat) (r : Role) : (s.setRole c r).tim = s.tim := (rfl)
@[simp] theorem State.setRole_ptime (c : Nat) (r : Role) : (s.setRole c r).ptime = s.ptime := (rfl)
@[simp] theorem State.setRole_sw (c : Nat) (r : Role) : (s.setRole c r).sw = s.sw := (rfl)
@[simp] theorem State.setRole_tbl (c : Nat) (r : Role) : (s.setRole c r).tbl = s.tbl := (rfl)
@[simp] theorem State.setRole_cyc (c : Nat) (r : Role) : (s.setRole c r).cyc = s.cyc := (rfl)
@[simp] theorem State.setRole_clk (c : Nat) (r : Role) : (s.setRole c r).clk = s.clk := (rfl)
@[simp] theorem State.setRole_iu (c : Nat) (r : Role) : (s.setRole c r).iu = s.iu := (rfl)
@[simp] theorem State.setRole_tg (c : Nat) (r : Role) : (s.setRole c r).tg = s.tg := (rfl)
@[simp] theorem State.setRole_mgt (c : Nat) (r : Role) : (s.setRole c r).mgt = s.mgt := (rfl)
@[simp] theorem State.setRole_tap (c : Nat) (r : Role) : (s.setRole c r).tap = s.tap := (rfl)

/-! `State.setRein` changes `reins` alone. -/

@[simp] theorem State.setRein_pending (r : Nat) (v : Option Rein) : (s.setRein r v).pending = s.pending := (rfl)
@[simp] theorem State.setRein_code (r : Nat) (v : Option Rein) : (s.setRein r v).code = s.code := (rfl)
@[simp] theorem State.setRein_nodeId (r : Nat) (v : Option Rein) : (s.setRein r v).nodeId = s.nodeId := (rfl)
@[simp] theorem State.setRein_serial (r : Nat) (v : Option Rein) : (s.setRein r v).serial = s.serial := (rfl)
@[simp] theorem State.setRein_life (r : Nat) (v : Option Rein) : (s.setRein r v).life = s.life := (rfl)
@[simp] theorem State.setRein_thermalStop (r : Nat) (v : Option Rein) : (s.setRein r v).thermalStop = s.thermalStop := (rfl)
@[simp] theorem State.setRein_raw (r : Nat) (v : Option Rein) : (s.setRein r v).raw = s.raw := (rfl)
@[simp] theorem State.setRein_uptime (r : Nat) (v : Option Rein) : (s.setRein r v).uptime = s.uptime := (rfl)
@[simp] theorem State.setRein_epoch (r : Nat) (v : Option Rein) : (s.setRein r v).epoch = s.epoch := (rfl)
@[simp] theorem State.setRein_freeCtr (r : Nat) (v : Option Rein) : (s.setRein r v).freeCtr = s.freeCtr := (rfl)
@[simp] theorem State.setRein_regs (r : Nat) (v : Option Rein) : (s.setRein r v).regs = s.regs := (rfl)
@[simp] theorem State.setRein_setAt (r : Nat) (v : Option Rein) : (s.setRein r v).setAt = s.setAt := (rfl)
@[simp] theorem State.setRein_setNow (r : Nat) (v : Option Rein) : (s.setRein r v).setNow = s.setNow := (rfl)
@[simp] theorem State.setRein_pendK (r : Nat) (v : Option Rein) : (s.setRein r v).pendK = s.pendK := (rfl)
@[simp] theorem State.setRein_pendF (r : Nat) (v : Option Rein) : (s.setRein r v).pendF = s.pendF := (rfl)
@[simp] theorem State.setRein_roles (r : Nat) (v : Option Rein) : (s.setRein r v).roles = s.roles := (rfl)
@[simp] theorem State.setRein_owners (r : Nat) (v : Option Rein) : (s.setRein r v).owners = s.owners := (rfl)
@[simp] theorem State.setRein_ctx (r : Nat) (v : Option Rein) : (s.setRein r v).ctx = s.ctx := (rfl)
@[simp] theorem State.setRein_deferred (r : Nat) (v : Option Rein) : (s.setRein r v).deferred = s.deferred := (rfl)
@[simp] theorem State.setRein_pmuFix (r : Nat) (v : Option Rein) : (s.setRein r v).pmuFix = s.pmuFix := (rfl)
@[simp] theorem State.setRein_pmc (r : Nat) (v : Option Rein) : (s.setRein r v).pmc = s.pmc := (rfl)
@[simp] theorem State.setRein_port (r : Nat) (v : Option Rein) : (s.setRein r v).port = s.port := (rfl)
@[simp] theorem State.setRein_boards (r : Nat) (v : Option Rein) : (s.setRein r v).boards = s.boards := (rfl)
@[simp] theorem State.setRein_hashAt (r : Nat) (v : Option Rein) : (s.setRein r v).hashAt = s.hashAt := (rfl)
@[simp] theorem State.setRein_prevHash (r : Nat) (v : Option Rein) : (s.setRein r v).prevHash = s.prevHash := (rfl)
@[simp] theorem State.setRein_prevPeriod (r : Nat) (v : Option Rein) : (s.setRein r v).prevPeriod = s.prevPeriod := (rfl)
@[simp] theorem State.setRein_tim (r : Nat) (v : Option Rein) : (s.setRein r v).tim = s.tim := (rfl)
@[simp] theorem State.setRein_ptime (r : Nat) (v : Option Rein) : (s.setRein r v).ptime = s.ptime := (rfl)
@[simp] theorem State.setRein_sw (r : Nat) (v : Option Rein) : (s.setRein r v).sw = s.sw := (rfl)
@[simp] theorem State.setRein_tbl (r : Nat) (v : Option Rein) : (s.setRein r v).tbl = s.tbl := (rfl)
@[simp] theorem State.setRein_cyc (r : Nat) (v : Option Rein) : (s.setRein r v).cyc = s.cyc := (rfl)
@[simp] theorem State.setRein_clk (r : Nat) (v : Option Rein) : (s.setRein r v).clk = s.clk := (rfl)
@[simp] theorem State.setRein_iu (r : Nat) (v : Option Rein) : (s.setRein r v).iu = s.iu := (rfl)
@[simp] theorem State.setRein_tg (r : Nat) (v : Option Rein) : (s.setRein r v).tg = s.tg := (rfl)
@[simp] theorem State.setRein_mgt (r : Nat) (v : Option Rein) : (s.setRein r v).mgt = s.mgt := (rfl)
@[simp] theorem State.setRein_tap (r : Nat) (v : Option Rein) : (s.setRein r v).tap = s.tap := (rfl)

/-! `State.onPt` changes `port` alone. -/

@[simp] theorem State.onPt_pending (p : Nat) (f : PortSt → PortSt) : (s.onPt p f).pending = s.pending := (rfl)
@[simp] theorem State.onPt_code (p : Nat) (f : PortSt → PortSt) : (s.onPt p f).code = s.code := (rfl)
@[simp] theorem State.onPt_nodeId (p : Nat) (f : PortSt → PortSt) : (s.onPt p f).nodeId = s.nodeId := (rfl)
@[simp] theorem State.onPt_serial (p : Nat) (f : PortSt → PortSt) : (s.onPt p f).serial = s.serial := (rfl)
@[simp] theorem State.onPt_life (p : Nat) (f : PortSt → PortSt) : (s.onPt p f).life = s.life := (rfl)
@[simp] theorem State.onPt_thermalStop (p : Nat) (f : PortSt → PortSt) : (s.onPt p f).thermalStop = s.thermalStop := (rfl)
@[simp] theorem State.onPt_raw (p : Nat) (f : PortSt → PortSt) : (s.onPt p f).raw = s.raw := (rfl)
@[simp] theorem State.onPt_uptime (p : Nat) (f : PortSt → PortSt) : (s.onPt p f).uptime = s.uptime := (rfl)
@[simp] theorem State.onPt_epoch (p : Nat) (f : PortSt → PortSt) : (s.onPt p f).epoch = s.epoch := (rfl)
@[simp] theorem State.onPt_freeCtr (p : Nat) (f : PortSt → PortSt) : (s.onPt p f).freeCtr = s.freeCtr := (rfl)
@[simp] theorem State.onPt_regs (p : Nat) (f : PortSt → PortSt) : (s.onPt p f).regs = s.regs := (rfl)
@[simp] theorem State.onPt_setAt (p : Nat) (f : PortSt → PortSt) : (s.onPt p f).setAt = s.setAt := (rfl)
@[simp] theorem State.onPt_setNow (p : Nat) (f : PortSt → PortSt) : (s.onPt p f).setNow = s.setNow := (rfl)
@[simp] theorem State.onPt_pendK (p : Nat) (f : PortSt → PortSt) : (s.onPt p f).pendK = s.pendK := (rfl)
@[simp] theorem State.onPt_pendF (p : Nat) (f : PortSt → PortSt) : (s.onPt p f).pendF = s.pendF := (rfl)
@[simp] theorem State.onPt_roles (p : Nat) (f : PortSt → PortSt) : (s.onPt p f).roles = s.roles := (rfl)
@[simp] theorem State.onPt_reins (p : Nat) (f : PortSt → PortSt) : (s.onPt p f).reins = s.reins := (rfl)
@[simp] theorem State.onPt_owners (p : Nat) (f : PortSt → PortSt) : (s.onPt p f).owners = s.owners := (rfl)
@[simp] theorem State.onPt_ctx (p : Nat) (f : PortSt → PortSt) : (s.onPt p f).ctx = s.ctx := (rfl)
@[simp] theorem State.onPt_deferred (p : Nat) (f : PortSt → PortSt) : (s.onPt p f).deferred = s.deferred := (rfl)
@[simp] theorem State.onPt_pmuFix (p : Nat) (f : PortSt → PortSt) : (s.onPt p f).pmuFix = s.pmuFix := (rfl)
@[simp] theorem State.onPt_pmc (p : Nat) (f : PortSt → PortSt) : (s.onPt p f).pmc = s.pmc := (rfl)
@[simp] theorem State.onPt_boards (p : Nat) (f : PortSt → PortSt) : (s.onPt p f).boards = s.boards := (rfl)
@[simp] theorem State.onPt_hashAt (p : Nat) (f : PortSt → PortSt) : (s.onPt p f).hashAt = s.hashAt := (rfl)
@[simp] theorem State.onPt_prevHash (p : Nat) (f : PortSt → PortSt) : (s.onPt p f).prevHash = s.prevHash := (rfl)
@[simp] theorem State.onPt_prevPeriod (p : Nat) (f : PortSt → PortSt) : (s.onPt p f).prevPeriod = s.prevPeriod := (rfl)
@[simp] theorem State.onPt_tim (p : Nat) (f : PortSt → PortSt) : (s.onPt p f).tim = s.tim := (rfl)
@[simp] theorem State.onPt_ptime (p : Nat) (f : PortSt → PortSt) : (s.onPt p f).ptime = s.ptime := (rfl)
@[simp] theorem State.onPt_sw (p : Nat) (f : PortSt → PortSt) : (s.onPt p f).sw = s.sw := (rfl)
@[simp] theorem State.onPt_tbl (p : Nat) (f : PortSt → PortSt) : (s.onPt p f).tbl = s.tbl := (rfl)
@[simp] theorem State.onPt_cyc (p : Nat) (f : PortSt → PortSt) : (s.onPt p f).cyc = s.cyc := (rfl)
@[simp] theorem State.onPt_clk (p : Nat) (f : PortSt → PortSt) : (s.onPt p f).clk = s.clk := (rfl)
@[simp] theorem State.onPt_iu (p : Nat) (f : PortSt → PortSt) : (s.onPt p f).iu = s.iu := (rfl)
@[simp] theorem State.onPt_tg (p : Nat) (f : PortSt → PortSt) : (s.onPt p f).tg = s.tg := (rfl)
@[simp] theorem State.onPt_mgt (p : Nat) (f : PortSt → PortSt) : (s.onPt p f).mgt = s.mgt := (rfl)
@[simp] theorem State.onPt_tap (p : Nat) (f : PortSt → PortSt) : (s.onPt p f).tap = s.tap := (rfl)

/-! `State.onPtm` changes `ptime` alone. -/

@[simp] theorem State.onPtm_pending (p : Nat) (f : PortTime → PortTime) : (s.onPtm p f).pending = s.pending := (rfl)
@[simp] theorem State.onPtm_code (p : Nat) (f : PortTime → PortTime) : (s.onPtm p f).code = s.code := (rfl)
@[simp] theorem State.onPtm_nodeId (p : Nat) (f : PortTime → PortTime) : (s.onPtm p f).nodeId = s.nodeId := (rfl)
@[simp] theorem State.onPtm_serial (p : Nat) (f : PortTime → PortTime) : (s.onPtm p f).serial = s.serial := (rfl)
@[simp] theorem State.onPtm_life (p : Nat) (f : PortTime → PortTime) : (s.onPtm p f).life = s.life := (rfl)
@[simp] theorem State.onPtm_thermalStop (p : Nat) (f : PortTime → PortTime) : (s.onPtm p f).thermalStop = s.thermalStop := (rfl)
@[simp] theorem State.onPtm_raw (p : Nat) (f : PortTime → PortTime) : (s.onPtm p f).raw = s.raw := (rfl)
@[simp] theorem State.onPtm_uptime (p : Nat) (f : PortTime → PortTime) : (s.onPtm p f).uptime = s.uptime := (rfl)
@[simp] theorem State.onPtm_epoch (p : Nat) (f : PortTime → PortTime) : (s.onPtm p f).epoch = s.epoch := (rfl)
@[simp] theorem State.onPtm_freeCtr (p : Nat) (f : PortTime → PortTime) : (s.onPtm p f).freeCtr = s.freeCtr := (rfl)
@[simp] theorem State.onPtm_regs (p : Nat) (f : PortTime → PortTime) : (s.onPtm p f).regs = s.regs := (rfl)
@[simp] theorem State.onPtm_setAt (p : Nat) (f : PortTime → PortTime) : (s.onPtm p f).setAt = s.setAt := (rfl)
@[simp] theorem State.onPtm_setNow (p : Nat) (f : PortTime → PortTime) : (s.onPtm p f).setNow = s.setNow := (rfl)
@[simp] theorem State.onPtm_pendK (p : Nat) (f : PortTime → PortTime) : (s.onPtm p f).pendK = s.pendK := (rfl)
@[simp] theorem State.onPtm_pendF (p : Nat) (f : PortTime → PortTime) : (s.onPtm p f).pendF = s.pendF := (rfl)
@[simp] theorem State.onPtm_roles (p : Nat) (f : PortTime → PortTime) : (s.onPtm p f).roles = s.roles := (rfl)
@[simp] theorem State.onPtm_reins (p : Nat) (f : PortTime → PortTime) : (s.onPtm p f).reins = s.reins := (rfl)
@[simp] theorem State.onPtm_owners (p : Nat) (f : PortTime → PortTime) : (s.onPtm p f).owners = s.owners := (rfl)
@[simp] theorem State.onPtm_ctx (p : Nat) (f : PortTime → PortTime) : (s.onPtm p f).ctx = s.ctx := (rfl)
@[simp] theorem State.onPtm_deferred (p : Nat) (f : PortTime → PortTime) : (s.onPtm p f).deferred = s.deferred := (rfl)
@[simp] theorem State.onPtm_pmuFix (p : Nat) (f : PortTime → PortTime) : (s.onPtm p f).pmuFix = s.pmuFix := (rfl)
@[simp] theorem State.onPtm_pmc (p : Nat) (f : PortTime → PortTime) : (s.onPtm p f).pmc = s.pmc := (rfl)
@[simp] theorem State.onPtm_port (p : Nat) (f : PortTime → PortTime) : (s.onPtm p f).port = s.port := (rfl)
@[simp] theorem State.onPtm_boards (p : Nat) (f : PortTime → PortTime) : (s.onPtm p f).boards = s.boards := (rfl)
@[simp] theorem State.onPtm_hashAt (p : Nat) (f : PortTime → PortTime) : (s.onPtm p f).hashAt = s.hashAt := (rfl)
@[simp] theorem State.onPtm_prevHash (p : Nat) (f : PortTime → PortTime) : (s.onPtm p f).prevHash = s.prevHash := (rfl)
@[simp] theorem State.onPtm_prevPeriod (p : Nat) (f : PortTime → PortTime) : (s.onPtm p f).prevPeriod = s.prevPeriod := (rfl)
@[simp] theorem State.onPtm_tim (p : Nat) (f : PortTime → PortTime) : (s.onPtm p f).tim = s.tim := (rfl)
@[simp] theorem State.onPtm_sw (p : Nat) (f : PortTime → PortTime) : (s.onPtm p f).sw = s.sw := (rfl)
@[simp] theorem State.onPtm_tbl (p : Nat) (f : PortTime → PortTime) : (s.onPtm p f).tbl = s.tbl := (rfl)
@[simp] theorem State.onPtm_cyc (p : Nat) (f : PortTime → PortTime) : (s.onPtm p f).cyc = s.cyc := (rfl)
@[simp] theorem State.onPtm_clk (p : Nat) (f : PortTime → PortTime) : (s.onPtm p f).clk = s.clk := (rfl)
@[simp] theorem State.onPtm_iu (p : Nat) (f : PortTime → PortTime) : (s.onPtm p f).iu = s.iu := (rfl)
@[simp] theorem State.onPtm_tg (p : Nat) (f : PortTime → PortTime) : (s.onPtm p f).tg = s.tg := (rfl)
@[simp] theorem State.onPtm_mgt (p : Nat) (f : PortTime → PortTime) : (s.onPtm p f).mgt = s.mgt := (rfl)
@[simp] theorem State.onPtm_tap (p : Nat) (f : PortTime → PortTime) : (s.onPtm p f).tap = s.tap := (rfl)

/-! `State.onDm` changes `tim` alone. -/

@[simp] theorem State.onDm_pending (d : Nat) (f : DomSt → DomSt) : (s.onDm d f).pending = s.pending := (rfl)
@[simp] theorem State.onDm_code (d : Nat) (f : DomSt → DomSt) : (s.onDm d f).code = s.code := (rfl)
@[simp] theorem State.onDm_nodeId (d : Nat) (f : DomSt → DomSt) : (s.onDm d f).nodeId = s.nodeId := (rfl)
@[simp] theorem State.onDm_serial (d : Nat) (f : DomSt → DomSt) : (s.onDm d f).serial = s.serial := (rfl)
@[simp] theorem State.onDm_life (d : Nat) (f : DomSt → DomSt) : (s.onDm d f).life = s.life := (rfl)
@[simp] theorem State.onDm_thermalStop (d : Nat) (f : DomSt → DomSt) : (s.onDm d f).thermalStop = s.thermalStop := (rfl)
@[simp] theorem State.onDm_raw (d : Nat) (f : DomSt → DomSt) : (s.onDm d f).raw = s.raw := (rfl)
@[simp] theorem State.onDm_uptime (d : Nat) (f : DomSt → DomSt) : (s.onDm d f).uptime = s.uptime := (rfl)
@[simp] theorem State.onDm_epoch (d : Nat) (f : DomSt → DomSt) : (s.onDm d f).epoch = s.epoch := (rfl)
@[simp] theorem State.onDm_freeCtr (d : Nat) (f : DomSt → DomSt) : (s.onDm d f).freeCtr = s.freeCtr := (rfl)
@[simp] theorem State.onDm_regs (d : Nat) (f : DomSt → DomSt) : (s.onDm d f).regs = s.regs := (rfl)
@[simp] theorem State.onDm_setAt (d : Nat) (f : DomSt → DomSt) : (s.onDm d f).setAt = s.setAt := (rfl)
@[simp] theorem State.onDm_setNow (d : Nat) (f : DomSt → DomSt) : (s.onDm d f).setNow = s.setNow := (rfl)
@[simp] theorem State.onDm_pendK (d : Nat) (f : DomSt → DomSt) : (s.onDm d f).pendK = s.pendK := (rfl)
@[simp] theorem State.onDm_pendF (d : Nat) (f : DomSt → DomSt) : (s.onDm d f).pendF = s.pendF := (rfl)
@[simp] theorem State.onDm_roles (d : Nat) (f : DomSt → DomSt) : (s.onDm d f).roles = s.roles := (rfl)
@[simp] theorem State.onDm_reins (d : Nat) (f : DomSt → DomSt) : (s.onDm d f).reins = s.reins := (rfl)
@[simp] theorem State.onDm_owners (d : Nat) (f : DomSt → DomSt) : (s.onDm d f).owners = s.owners := (rfl)
@[simp] theorem State.onDm_ctx (d : Nat) (f : DomSt → DomSt) : (s.onDm d f).ctx = s.ctx := (rfl)
@[simp] theorem State.onDm_deferred (d : Nat) (f : DomSt → DomSt) : (s.onDm d f).deferred = s.deferred := (rfl)
@[simp] theorem State.onDm_pmuFix (d : Nat) (f : DomSt → DomSt) : (s.onDm d f).pmuFix = s.pmuFix := (rfl)
@[simp] theorem State.onDm_pmc (d : Nat) (f : DomSt → DomSt) : (s.onDm d f).pmc = s.pmc := (rfl)
@[simp] theorem State.onDm_port (d : Nat) (f : DomSt → DomSt) : (s.onDm d f).port = s.port := (rfl)
@[simp] theorem State.onDm_boards (d : Nat) (f : DomSt → DomSt) : (s.onDm d f).boards = s.boards := (rfl)
@[simp] theorem State.onDm_hashAt (d : Nat) (f : DomSt → DomSt) : (s.onDm d f).hashAt = s.hashAt := (rfl)
@[simp] theorem State.onDm_prevHash (d : Nat) (f : DomSt → DomSt) : (s.onDm d f).prevHash = s.prevHash := (rfl)
@[simp] theorem State.onDm_prevPeriod (d : Nat) (f : DomSt → DomSt) : (s.onDm d f).prevPeriod = s.prevPeriod := (rfl)
@[simp] theorem State.onDm_ptime (d : Nat) (f : DomSt → DomSt) : (s.onDm d f).ptime = s.ptime := (rfl)
@[simp] theorem State.onDm_sw (d : Nat) (f : DomSt → DomSt) : (s.onDm d f).sw = s.sw := (rfl)
@[simp] theorem State.onDm_tbl (d : Nat) (f : DomSt → DomSt) : (s.onDm d f).tbl = s.tbl := (rfl)
@[simp] theorem State.onDm_cyc (d : Nat) (f : DomSt → DomSt) : (s.onDm d f).cyc = s.cyc := (rfl)
@[simp] theorem State.onDm_clk (d : Nat) (f : DomSt → DomSt) : (s.onDm d f).clk = s.clk := (rfl)
@[simp] theorem State.onDm_iu (d : Nat) (f : DomSt → DomSt) : (s.onDm d f).iu = s.iu := (rfl)
@[simp] theorem State.onDm_tg (d : Nat) (f : DomSt → DomSt) : (s.onDm d f).tg = s.tg := (rfl)
@[simp] theorem State.onDm_mgt (d : Nat) (f : DomSt → DomSt) : (s.onDm d f).mgt = s.mgt := (rfl)
@[simp] theorem State.onDm_tap (d : Nat) (f : DomSt → DomSt) : (s.onDm d f).tap = s.tap := (rfl)

/-! `State.onMgt` changes `mgt` alone. -/

@[simp] theorem State.onMgt_pending (f : Mgt → Mgt) : (s.onMgt f).pending = s.pending := (rfl)
@[simp] theorem State.onMgt_code (f : Mgt → Mgt) : (s.onMgt f).code = s.code := (rfl)
@[simp] theorem State.onMgt_nodeId (f : Mgt → Mgt) : (s.onMgt f).nodeId = s.nodeId := (rfl)
@[simp] theorem State.onMgt_serial (f : Mgt → Mgt) : (s.onMgt f).serial = s.serial := (rfl)
@[simp] theorem State.onMgt_life (f : Mgt → Mgt) : (s.onMgt f).life = s.life := (rfl)
@[simp] theorem State.onMgt_thermalStop (f : Mgt → Mgt) : (s.onMgt f).thermalStop = s.thermalStop := (rfl)
@[simp] theorem State.onMgt_raw (f : Mgt → Mgt) : (s.onMgt f).raw = s.raw := (rfl)
@[simp] theorem State.onMgt_uptime (f : Mgt → Mgt) : (s.onMgt f).uptime = s.uptime := (rfl)
@[simp] theorem State.onMgt_epoch (f : Mgt → Mgt) : (s.onMgt f).epoch = s.epoch := (rfl)
@[simp] theorem State.onMgt_freeCtr (f : Mgt → Mgt) : (s.onMgt f).freeCtr = s.freeCtr := (rfl)
@[simp] theorem State.onMgt_regs (f : Mgt → Mgt) : (s.onMgt f).regs = s.regs := (rfl)
@[simp] theorem State.onMgt_setAt (f : Mgt → Mgt) : (s.onMgt f).setAt = s.setAt := (rfl)
@[simp] theorem State.onMgt_setNow (f : Mgt → Mgt) : (s.onMgt f).setNow = s.setNow := (rfl)
@[simp] theorem State.onMgt_pendK (f : Mgt → Mgt) : (s.onMgt f).pendK = s.pendK := (rfl)
@[simp] theorem State.onMgt_pendF (f : Mgt → Mgt) : (s.onMgt f).pendF = s.pendF := (rfl)
@[simp] theorem State.onMgt_roles (f : Mgt → Mgt) : (s.onMgt f).roles = s.roles := (rfl)
@[simp] theorem State.onMgt_reins (f : Mgt → Mgt) : (s.onMgt f).reins = s.reins := (rfl)
@[simp] theorem State.onMgt_owners (f : Mgt → Mgt) : (s.onMgt f).owners = s.owners := (rfl)
@[simp] theorem State.onMgt_ctx (f : Mgt → Mgt) : (s.onMgt f).ctx = s.ctx := (rfl)
@[simp] theorem State.onMgt_deferred (f : Mgt → Mgt) : (s.onMgt f).deferred = s.deferred := (rfl)
@[simp] theorem State.onMgt_pmuFix (f : Mgt → Mgt) : (s.onMgt f).pmuFix = s.pmuFix := (rfl)
@[simp] theorem State.onMgt_pmc (f : Mgt → Mgt) : (s.onMgt f).pmc = s.pmc := (rfl)
@[simp] theorem State.onMgt_port (f : Mgt → Mgt) : (s.onMgt f).port = s.port := (rfl)
@[simp] theorem State.onMgt_boards (f : Mgt → Mgt) : (s.onMgt f).boards = s.boards := (rfl)
@[simp] theorem State.onMgt_hashAt (f : Mgt → Mgt) : (s.onMgt f).hashAt = s.hashAt := (rfl)
@[simp] theorem State.onMgt_prevHash (f : Mgt → Mgt) : (s.onMgt f).prevHash = s.prevHash := (rfl)
@[simp] theorem State.onMgt_prevPeriod (f : Mgt → Mgt) : (s.onMgt f).prevPeriod = s.prevPeriod := (rfl)
@[simp] theorem State.onMgt_tim (f : Mgt → Mgt) : (s.onMgt f).tim = s.tim := (rfl)
@[simp] theorem State.onMgt_ptime (f : Mgt → Mgt) : (s.onMgt f).ptime = s.ptime := (rfl)
@[simp] theorem State.onMgt_sw (f : Mgt → Mgt) : (s.onMgt f).sw = s.sw := (rfl)
@[simp] theorem State.onMgt_tbl (f : Mgt → Mgt) : (s.onMgt f).tbl = s.tbl := (rfl)
@[simp] theorem State.onMgt_cyc (f : Mgt → Mgt) : (s.onMgt f).cyc = s.cyc := (rfl)
@[simp] theorem State.onMgt_clk (f : Mgt → Mgt) : (s.onMgt f).clk = s.clk := (rfl)
@[simp] theorem State.onMgt_iu (f : Mgt → Mgt) : (s.onMgt f).iu = s.iu := (rfl)
@[simp] theorem State.onMgt_tg (f : Mgt → Mgt) : (s.onMgt f).tg = s.tg := (rfl)
@[simp] theorem State.onMgt_tap (f : Mgt → Mgt) : (s.onMgt f).tap = s.tap := (rfl)

/-! `State.onSw` changes `sw` alone. -/

@[simp] theorem State.onSw_pending (f : Sw → Sw) : (s.onSw f).pending = s.pending := (rfl)
@[simp] theorem State.onSw_code (f : Sw → Sw) : (s.onSw f).code = s.code := (rfl)
@[simp] theorem State.onSw_nodeId (f : Sw → Sw) : (s.onSw f).nodeId = s.nodeId := (rfl)
@[simp] theorem State.onSw_serial (f : Sw → Sw) : (s.onSw f).serial = s.serial := (rfl)
@[simp] theorem State.onSw_life (f : Sw → Sw) : (s.onSw f).life = s.life := (rfl)
@[simp] theorem State.onSw_thermalStop (f : Sw → Sw) : (s.onSw f).thermalStop = s.thermalStop := (rfl)
@[simp] theorem State.onSw_raw (f : Sw → Sw) : (s.onSw f).raw = s.raw := (rfl)
@[simp] theorem State.onSw_uptime (f : Sw → Sw) : (s.onSw f).uptime = s.uptime := (rfl)
@[simp] theorem State.onSw_epoch (f : Sw → Sw) : (s.onSw f).epoch = s.epoch := (rfl)
@[simp] theorem State.onSw_freeCtr (f : Sw → Sw) : (s.onSw f).freeCtr = s.freeCtr := (rfl)
@[simp] theorem State.onSw_regs (f : Sw → Sw) : (s.onSw f).regs = s.regs := (rfl)
@[simp] theorem State.onSw_setAt (f : Sw → Sw) : (s.onSw f).setAt = s.setAt := (rfl)
@[simp] theorem State.onSw_setNow (f : Sw → Sw) : (s.onSw f).setNow = s.setNow := (rfl)
@[simp] theorem State.onSw_pendK (f : Sw → Sw) : (s.onSw f).pendK = s.pendK := (rfl)
@[simp] theorem State.onSw_pendF (f : Sw → Sw) : (s.onSw f).pendF = s.pendF := (rfl)
@[simp] theorem State.onSw_roles (f : Sw → Sw) : (s.onSw f).roles = s.roles := (rfl)
@[simp] theorem State.onSw_reins (f : Sw → Sw) : (s.onSw f).reins = s.reins := (rfl)
@[simp] theorem State.onSw_owners (f : Sw → Sw) : (s.onSw f).owners = s.owners := (rfl)
@[simp] theorem State.onSw_ctx (f : Sw → Sw) : (s.onSw f).ctx = s.ctx := (rfl)
@[simp] theorem State.onSw_deferred (f : Sw → Sw) : (s.onSw f).deferred = s.deferred := (rfl)
@[simp] theorem State.onSw_pmuFix (f : Sw → Sw) : (s.onSw f).pmuFix = s.pmuFix := (rfl)
@[simp] theorem State.onSw_pmc (f : Sw → Sw) : (s.onSw f).pmc = s.pmc := (rfl)
@[simp] theorem State.onSw_port (f : Sw → Sw) : (s.onSw f).port = s.port := (rfl)
@[simp] theorem State.onSw_boards (f : Sw → Sw) : (s.onSw f).boards = s.boards := (rfl)
@[simp] theorem State.onSw_hashAt (f : Sw → Sw) : (s.onSw f).hashAt = s.hashAt := (rfl)
@[simp] theorem State.onSw_prevHash (f : Sw → Sw) : (s.onSw f).prevHash = s.prevHash := (rfl)
@[simp] theorem State.onSw_prevPeriod (f : Sw → Sw) : (s.onSw f).prevPeriod = s.prevPeriod := (rfl)
@[simp] theorem State.onSw_tim (f : Sw → Sw) : (s.onSw f).tim = s.tim := (rfl)
@[simp] theorem State.onSw_ptime (f : Sw → Sw) : (s.onSw f).ptime = s.ptime := (rfl)
@[simp] theorem State.onSw_tbl (f : Sw → Sw) : (s.onSw f).tbl = s.tbl := (rfl)
@[simp] theorem State.onSw_cyc (f : Sw → Sw) : (s.onSw f).cyc = s.cyc := (rfl)
@[simp] theorem State.onSw_clk (f : Sw → Sw) : (s.onSw f).clk = s.clk := (rfl)
@[simp] theorem State.onSw_iu (f : Sw → Sw) : (s.onSw f).iu = s.iu := (rfl)
@[simp] theorem State.onSw_tg (f : Sw → Sw) : (s.onSw f).tg = s.tg := (rfl)
@[simp] theorem State.onSw_mgt (f : Sw → Sw) : (s.onSw f).mgt = s.mgt := (rfl)
@[simp] theorem State.onSw_tap (f : Sw → Sw) : (s.onSw f).tap = s.tap := (rfl)

/-! `State.onTbl` changes `tbl` alone. -/

@[simp] theorem State.onTbl_pending (f : Tables → Tables) : (s.onTbl f).pending = s.pending := (rfl)
@[simp] theorem State.onTbl_code (f : Tables → Tables) : (s.onTbl f).code = s.code := (rfl)
@[simp] theorem State.onTbl_nodeId (f : Tables → Tables) : (s.onTbl f).nodeId = s.nodeId := (rfl)
@[simp] theorem State.onTbl_serial (f : Tables → Tables) : (s.onTbl f).serial = s.serial := (rfl)
@[simp] theorem State.onTbl_life (f : Tables → Tables) : (s.onTbl f).life = s.life := (rfl)
@[simp] theorem State.onTbl_thermalStop (f : Tables → Tables) : (s.onTbl f).thermalStop = s.thermalStop := (rfl)
@[simp] theorem State.onTbl_raw (f : Tables → Tables) : (s.onTbl f).raw = s.raw := (rfl)
@[simp] theorem State.onTbl_uptime (f : Tables → Tables) : (s.onTbl f).uptime = s.uptime := (rfl)
@[simp] theorem State.onTbl_epoch (f : Tables → Tables) : (s.onTbl f).epoch = s.epoch := (rfl)
@[simp] theorem State.onTbl_freeCtr (f : Tables → Tables) : (s.onTbl f).freeCtr = s.freeCtr := (rfl)
@[simp] theorem State.onTbl_regs (f : Tables → Tables) : (s.onTbl f).regs = s.regs := (rfl)
@[simp] theorem State.onTbl_setAt (f : Tables → Tables) : (s.onTbl f).setAt = s.setAt := (rfl)
@[simp] theorem State.onTbl_setNow (f : Tables → Tables) : (s.onTbl f).setNow = s.setNow := (rfl)
@[simp] theorem State.onTbl_pendK (f : Tables → Tables) : (s.onTbl f).pendK = s.pendK := (rfl)
@[simp] theorem State.onTbl_pendF (f : Tables → Tables) : (s.onTbl f).pendF = s.pendF := (rfl)
@[simp] theorem State.onTbl_roles (f : Tables → Tables) : (s.onTbl f).roles = s.roles := (rfl)
@[simp] theorem State.onTbl_reins (f : Tables → Tables) : (s.onTbl f).reins = s.reins := (rfl)
@[simp] theorem State.onTbl_owners (f : Tables → Tables) : (s.onTbl f).owners = s.owners := (rfl)
@[simp] theorem State.onTbl_ctx (f : Tables → Tables) : (s.onTbl f).ctx = s.ctx := (rfl)
@[simp] theorem State.onTbl_deferred (f : Tables → Tables) : (s.onTbl f).deferred = s.deferred := (rfl)
@[simp] theorem State.onTbl_pmuFix (f : Tables → Tables) : (s.onTbl f).pmuFix = s.pmuFix := (rfl)
@[simp] theorem State.onTbl_pmc (f : Tables → Tables) : (s.onTbl f).pmc = s.pmc := (rfl)
@[simp] theorem State.onTbl_port (f : Tables → Tables) : (s.onTbl f).port = s.port := (rfl)
@[simp] theorem State.onTbl_boards (f : Tables → Tables) : (s.onTbl f).boards = s.boards := (rfl)
@[simp] theorem State.onTbl_hashAt (f : Tables → Tables) : (s.onTbl f).hashAt = s.hashAt := (rfl)
@[simp] theorem State.onTbl_prevHash (f : Tables → Tables) : (s.onTbl f).prevHash = s.prevHash := (rfl)
@[simp] theorem State.onTbl_prevPeriod (f : Tables → Tables) : (s.onTbl f).prevPeriod = s.prevPeriod := (rfl)
@[simp] theorem State.onTbl_tim (f : Tables → Tables) : (s.onTbl f).tim = s.tim := (rfl)
@[simp] theorem State.onTbl_ptime (f : Tables → Tables) : (s.onTbl f).ptime = s.ptime := (rfl)
@[simp] theorem State.onTbl_sw (f : Tables → Tables) : (s.onTbl f).sw = s.sw := (rfl)
@[simp] theorem State.onTbl_cyc (f : Tables → Tables) : (s.onTbl f).cyc = s.cyc := (rfl)
@[simp] theorem State.onTbl_clk (f : Tables → Tables) : (s.onTbl f).clk = s.clk := (rfl)
@[simp] theorem State.onTbl_iu (f : Tables → Tables) : (s.onTbl f).iu = s.iu := (rfl)
@[simp] theorem State.onTbl_tg (f : Tables → Tables) : (s.onTbl f).tg = s.tg := (rfl)
@[simp] theorem State.onTbl_mgt (f : Tables → Tables) : (s.onTbl f).mgt = s.mgt := (rfl)
@[simp] theorem State.onTbl_tap (f : Tables → Tables) : (s.onTbl f).tap = s.tap := (rfl)

/-! `State.onCyc` changes `cyc` alone. -/

@[simp] theorem State.onCyc_pending (f : Cyc → Cyc) : (s.onCyc f).pending = s.pending := (rfl)
@[simp] theorem State.onCyc_code (f : Cyc → Cyc) : (s.onCyc f).code = s.code := (rfl)
@[simp] theorem State.onCyc_nodeId (f : Cyc → Cyc) : (s.onCyc f).nodeId = s.nodeId := (rfl)
@[simp] theorem State.onCyc_serial (f : Cyc → Cyc) : (s.onCyc f).serial = s.serial := (rfl)
@[simp] theorem State.onCyc_life (f : Cyc → Cyc) : (s.onCyc f).life = s.life := (rfl)
@[simp] theorem State.onCyc_thermalStop (f : Cyc → Cyc) : (s.onCyc f).thermalStop = s.thermalStop := (rfl)
@[simp] theorem State.onCyc_raw (f : Cyc → Cyc) : (s.onCyc f).raw = s.raw := (rfl)
@[simp] theorem State.onCyc_uptime (f : Cyc → Cyc) : (s.onCyc f).uptime = s.uptime := (rfl)
@[simp] theorem State.onCyc_epoch (f : Cyc → Cyc) : (s.onCyc f).epoch = s.epoch := (rfl)
@[simp] theorem State.onCyc_freeCtr (f : Cyc → Cyc) : (s.onCyc f).freeCtr = s.freeCtr := (rfl)
@[simp] theorem State.onCyc_regs (f : Cyc → Cyc) : (s.onCyc f).regs = s.regs := (rfl)
@[simp] theorem State.onCyc_setAt (f : Cyc → Cyc) : (s.onCyc f).setAt = s.setAt := (rfl)
@[simp] theorem State.onCyc_setNow (f : Cyc → Cyc) : (s.onCyc f).setNow = s.setNow := (rfl)
@[simp] theorem State.onCyc_pendK (f : Cyc → Cyc) : (s.onCyc f).pendK = s.pendK := (rfl)
@[simp] theorem State.onCyc_pendF (f : Cyc → Cyc) : (s.onCyc f).pendF = s.pendF := (rfl)
@[simp] theorem State.onCyc_roles (f : Cyc → Cyc) : (s.onCyc f).roles = s.roles := (rfl)
@[simp] theorem State.onCyc_reins (f : Cyc → Cyc) : (s.onCyc f).reins = s.reins := (rfl)
@[simp] theorem State.onCyc_owners (f : Cyc → Cyc) : (s.onCyc f).owners = s.owners := (rfl)
@[simp] theorem State.onCyc_ctx (f : Cyc → Cyc) : (s.onCyc f).ctx = s.ctx := (rfl)
@[simp] theorem State.onCyc_deferred (f : Cyc → Cyc) : (s.onCyc f).deferred = s.deferred := (rfl)
@[simp] theorem State.onCyc_pmuFix (f : Cyc → Cyc) : (s.onCyc f).pmuFix = s.pmuFix := (rfl)
@[simp] theorem State.onCyc_pmc (f : Cyc → Cyc) : (s.onCyc f).pmc = s.pmc := (rfl)
@[simp] theorem State.onCyc_port (f : Cyc → Cyc) : (s.onCyc f).port = s.port := (rfl)
@[simp] theorem State.onCyc_boards (f : Cyc → Cyc) : (s.onCyc f).boards = s.boards := (rfl)
@[simp] theorem State.onCyc_hashAt (f : Cyc → Cyc) : (s.onCyc f).hashAt = s.hashAt := (rfl)
@[simp] theorem State.onCyc_prevHash (f : Cyc → Cyc) : (s.onCyc f).prevHash = s.prevHash := (rfl)
@[simp] theorem State.onCyc_prevPeriod (f : Cyc → Cyc) : (s.onCyc f).prevPeriod = s.prevPeriod := (rfl)
@[simp] theorem State.onCyc_tim (f : Cyc → Cyc) : (s.onCyc f).tim = s.tim := (rfl)
@[simp] theorem State.onCyc_ptime (f : Cyc → Cyc) : (s.onCyc f).ptime = s.ptime := (rfl)
@[simp] theorem State.onCyc_sw (f : Cyc → Cyc) : (s.onCyc f).sw = s.sw := (rfl)
@[simp] theorem State.onCyc_tbl (f : Cyc → Cyc) : (s.onCyc f).tbl = s.tbl := (rfl)
@[simp] theorem State.onCyc_clk (f : Cyc → Cyc) : (s.onCyc f).clk = s.clk := (rfl)
@[simp] theorem State.onCyc_iu (f : Cyc → Cyc) : (s.onCyc f).iu = s.iu := (rfl)
@[simp] theorem State.onCyc_tg (f : Cyc → Cyc) : (s.onCyc f).tg = s.tg := (rfl)
@[simp] theorem State.onCyc_mgt (f : Cyc → Cyc) : (s.onCyc f).mgt = s.mgt := (rfl)
@[simp] theorem State.onCyc_tap (f : Cyc → Cyc) : (s.onCyc f).tap = s.tap := (rfl)

/-! `State.onClk` changes `clk` alone. -/

@[simp] theorem State.onClk_pending (f : Clk → Clk) : (s.onClk f).pending = s.pending := (rfl)
@[simp] theorem State.onClk_code (f : Clk → Clk) : (s.onClk f).code = s.code := (rfl)
@[simp] theorem State.onClk_nodeId (f : Clk → Clk) : (s.onClk f).nodeId = s.nodeId := (rfl)
@[simp] theorem State.onClk_serial (f : Clk → Clk) : (s.onClk f).serial = s.serial := (rfl)
@[simp] theorem State.onClk_life (f : Clk → Clk) : (s.onClk f).life = s.life := (rfl)
@[simp] theorem State.onClk_thermalStop (f : Clk → Clk) : (s.onClk f).thermalStop = s.thermalStop := (rfl)
@[simp] theorem State.onClk_raw (f : Clk → Clk) : (s.onClk f).raw = s.raw := (rfl)
@[simp] theorem State.onClk_uptime (f : Clk → Clk) : (s.onClk f).uptime = s.uptime := (rfl)
@[simp] theorem State.onClk_epoch (f : Clk → Clk) : (s.onClk f).epoch = s.epoch := (rfl)
@[simp] theorem State.onClk_freeCtr (f : Clk → Clk) : (s.onClk f).freeCtr = s.freeCtr := (rfl)
@[simp] theorem State.onClk_regs (f : Clk → Clk) : (s.onClk f).regs = s.regs := (rfl)
@[simp] theorem State.onClk_setAt (f : Clk → Clk) : (s.onClk f).setAt = s.setAt := (rfl)
@[simp] theorem State.onClk_setNow (f : Clk → Clk) : (s.onClk f).setNow = s.setNow := (rfl)
@[simp] theorem State.onClk_pendK (f : Clk → Clk) : (s.onClk f).pendK = s.pendK := (rfl)
@[simp] theorem State.onClk_pendF (f : Clk → Clk) : (s.onClk f).pendF = s.pendF := (rfl)
@[simp] theorem State.onClk_roles (f : Clk → Clk) : (s.onClk f).roles = s.roles := (rfl)
@[simp] theorem State.onClk_reins (f : Clk → Clk) : (s.onClk f).reins = s.reins := (rfl)
@[simp] theorem State.onClk_owners (f : Clk → Clk) : (s.onClk f).owners = s.owners := (rfl)
@[simp] theorem State.onClk_ctx (f : Clk → Clk) : (s.onClk f).ctx = s.ctx := (rfl)
@[simp] theorem State.onClk_deferred (f : Clk → Clk) : (s.onClk f).deferred = s.deferred := (rfl)
@[simp] theorem State.onClk_pmuFix (f : Clk → Clk) : (s.onClk f).pmuFix = s.pmuFix := (rfl)
@[simp] theorem State.onClk_pmc (f : Clk → Clk) : (s.onClk f).pmc = s.pmc := (rfl)
@[simp] theorem State.onClk_port (f : Clk → Clk) : (s.onClk f).port = s.port := (rfl)
@[simp] theorem State.onClk_boards (f : Clk → Clk) : (s.onClk f).boards = s.boards := (rfl)
@[simp] theorem State.onClk_hashAt (f : Clk → Clk) : (s.onClk f).hashAt = s.hashAt := (rfl)
@[simp] theorem State.onClk_prevHash (f : Clk → Clk) : (s.onClk f).prevHash = s.prevHash := (rfl)
@[simp] theorem State.onClk_prevPeriod (f : Clk → Clk) : (s.onClk f).prevPeriod = s.prevPeriod := (rfl)
@[simp] theorem State.onClk_tim (f : Clk → Clk) : (s.onClk f).tim = s.tim := (rfl)
@[simp] theorem State.onClk_ptime (f : Clk → Clk) : (s.onClk f).ptime = s.ptime := (rfl)
@[simp] theorem State.onClk_sw (f : Clk → Clk) : (s.onClk f).sw = s.sw := (rfl)
@[simp] theorem State.onClk_tbl (f : Clk → Clk) : (s.onClk f).tbl = s.tbl := (rfl)
@[simp] theorem State.onClk_cyc (f : Clk → Clk) : (s.onClk f).cyc = s.cyc := (rfl)
@[simp] theorem State.onClk_iu (f : Clk → Clk) : (s.onClk f).iu = s.iu := (rfl)
@[simp] theorem State.onClk_tg (f : Clk → Clk) : (s.onClk f).tg = s.tg := (rfl)
@[simp] theorem State.onClk_mgt (f : Clk → Clk) : (s.onClk f).mgt = s.mgt := (rfl)
@[simp] theorem State.onClk_tap (f : Clk → Clk) : (s.onClk f).tap = s.tap := (rfl)

/-! `State.onUnitSt` changes `iu` alone. -/

@[simp] theorem State.onUnitSt_pending (u : Nat) (f : IuSt → IuSt) : (s.onUnitSt u f).pending = s.pending := (rfl)
@[simp] theorem State.onUnitSt_code (u : Nat) (f : IuSt → IuSt) : (s.onUnitSt u f).code = s.code := (rfl)
@[simp] theorem State.onUnitSt_nodeId (u : Nat) (f : IuSt → IuSt) : (s.onUnitSt u f).nodeId = s.nodeId := (rfl)
@[simp] theorem State.onUnitSt_serial (u : Nat) (f : IuSt → IuSt) : (s.onUnitSt u f).serial = s.serial := (rfl)
@[simp] theorem State.onUnitSt_life (u : Nat) (f : IuSt → IuSt) : (s.onUnitSt u f).life = s.life := (rfl)
@[simp] theorem State.onUnitSt_thermalStop (u : Nat) (f : IuSt → IuSt) : (s.onUnitSt u f).thermalStop = s.thermalStop := (rfl)
@[simp] theorem State.onUnitSt_raw (u : Nat) (f : IuSt → IuSt) : (s.onUnitSt u f).raw = s.raw := (rfl)
@[simp] theorem State.onUnitSt_uptime (u : Nat) (f : IuSt → IuSt) : (s.onUnitSt u f).uptime = s.uptime := (rfl)
@[simp] theorem State.onUnitSt_epoch (u : Nat) (f : IuSt → IuSt) : (s.onUnitSt u f).epoch = s.epoch := (rfl)
@[simp] theorem State.onUnitSt_freeCtr (u : Nat) (f : IuSt → IuSt) : (s.onUnitSt u f).freeCtr = s.freeCtr := (rfl)
@[simp] theorem State.onUnitSt_regs (u : Nat) (f : IuSt → IuSt) : (s.onUnitSt u f).regs = s.regs := (rfl)
@[simp] theorem State.onUnitSt_setAt (u : Nat) (f : IuSt → IuSt) : (s.onUnitSt u f).setAt = s.setAt := (rfl)
@[simp] theorem State.onUnitSt_setNow (u : Nat) (f : IuSt → IuSt) : (s.onUnitSt u f).setNow = s.setNow := (rfl)
@[simp] theorem State.onUnitSt_pendK (u : Nat) (f : IuSt → IuSt) : (s.onUnitSt u f).pendK = s.pendK := (rfl)
@[simp] theorem State.onUnitSt_pendF (u : Nat) (f : IuSt → IuSt) : (s.onUnitSt u f).pendF = s.pendF := (rfl)
@[simp] theorem State.onUnitSt_roles (u : Nat) (f : IuSt → IuSt) : (s.onUnitSt u f).roles = s.roles := (rfl)
@[simp] theorem State.onUnitSt_reins (u : Nat) (f : IuSt → IuSt) : (s.onUnitSt u f).reins = s.reins := (rfl)
@[simp] theorem State.onUnitSt_owners (u : Nat) (f : IuSt → IuSt) : (s.onUnitSt u f).owners = s.owners := (rfl)
@[simp] theorem State.onUnitSt_ctx (u : Nat) (f : IuSt → IuSt) : (s.onUnitSt u f).ctx = s.ctx := (rfl)
@[simp] theorem State.onUnitSt_deferred (u : Nat) (f : IuSt → IuSt) : (s.onUnitSt u f).deferred = s.deferred := (rfl)
@[simp] theorem State.onUnitSt_pmuFix (u : Nat) (f : IuSt → IuSt) : (s.onUnitSt u f).pmuFix = s.pmuFix := (rfl)
@[simp] theorem State.onUnitSt_pmc (u : Nat) (f : IuSt → IuSt) : (s.onUnitSt u f).pmc = s.pmc := (rfl)
@[simp] theorem State.onUnitSt_port (u : Nat) (f : IuSt → IuSt) : (s.onUnitSt u f).port = s.port := (rfl)
@[simp] theorem State.onUnitSt_boards (u : Nat) (f : IuSt → IuSt) : (s.onUnitSt u f).boards = s.boards := (rfl)
@[simp] theorem State.onUnitSt_hashAt (u : Nat) (f : IuSt → IuSt) : (s.onUnitSt u f).hashAt = s.hashAt := (rfl)
@[simp] theorem State.onUnitSt_prevHash (u : Nat) (f : IuSt → IuSt) : (s.onUnitSt u f).prevHash = s.prevHash := (rfl)
@[simp] theorem State.onUnitSt_prevPeriod (u : Nat) (f : IuSt → IuSt) : (s.onUnitSt u f).prevPeriod = s.prevPeriod := (rfl)
@[simp] theorem State.onUnitSt_tim (u : Nat) (f : IuSt → IuSt) : (s.onUnitSt u f).tim = s.tim := (rfl)
@[simp] theorem State.onUnitSt_ptime (u : Nat) (f : IuSt → IuSt) : (s.onUnitSt u f).ptime = s.ptime := (rfl)
@[simp] theorem State.onUnitSt_sw (u : Nat) (f : IuSt → IuSt) : (s.onUnitSt u f).sw = s.sw := (rfl)
@[simp] theorem State.onUnitSt_tbl (u : Nat) (f : IuSt → IuSt) : (s.onUnitSt u f).tbl = s.tbl := (rfl)
@[simp] theorem State.onUnitSt_cyc (u : Nat) (f : IuSt → IuSt) : (s.onUnitSt u f).cyc = s.cyc := (rfl)
@[simp] theorem State.onUnitSt_clk (u : Nat) (f : IuSt → IuSt) : (s.onUnitSt u f).clk = s.clk := (rfl)
@[simp] theorem State.onUnitSt_tg (u : Nat) (f : IuSt → IuSt) : (s.onUnitSt u f).tg = s.tg := (rfl)
@[simp] theorem State.onUnitSt_mgt (u : Nat) (f : IuSt → IuSt) : (s.onUnitSt u f).mgt = s.mgt := (rfl)
@[simp] theorem State.onUnitSt_tap (u : Nat) (f : IuSt → IuSt) : (s.onUnitSt u f).tap = s.tap := (rfl)

/-! `State.onGen` changes `tg` alone. -/

@[simp] theorem State.onGen_pending (g : Nat) (f : TgSt → TgSt) : (s.onGen g f).pending = s.pending := (rfl)
@[simp] theorem State.onGen_code (g : Nat) (f : TgSt → TgSt) : (s.onGen g f).code = s.code := (rfl)
@[simp] theorem State.onGen_nodeId (g : Nat) (f : TgSt → TgSt) : (s.onGen g f).nodeId = s.nodeId := (rfl)
@[simp] theorem State.onGen_serial (g : Nat) (f : TgSt → TgSt) : (s.onGen g f).serial = s.serial := (rfl)
@[simp] theorem State.onGen_life (g : Nat) (f : TgSt → TgSt) : (s.onGen g f).life = s.life := (rfl)
@[simp] theorem State.onGen_thermalStop (g : Nat) (f : TgSt → TgSt) : (s.onGen g f).thermalStop = s.thermalStop := (rfl)
@[simp] theorem State.onGen_raw (g : Nat) (f : TgSt → TgSt) : (s.onGen g f).raw = s.raw := (rfl)
@[simp] theorem State.onGen_uptime (g : Nat) (f : TgSt → TgSt) : (s.onGen g f).uptime = s.uptime := (rfl)
@[simp] theorem State.onGen_epoch (g : Nat) (f : TgSt → TgSt) : (s.onGen g f).epoch = s.epoch := (rfl)
@[simp] theorem State.onGen_freeCtr (g : Nat) (f : TgSt → TgSt) : (s.onGen g f).freeCtr = s.freeCtr := (rfl)
@[simp] theorem State.onGen_regs (g : Nat) (f : TgSt → TgSt) : (s.onGen g f).regs = s.regs := (rfl)
@[simp] theorem State.onGen_setAt (g : Nat) (f : TgSt → TgSt) : (s.onGen g f).setAt = s.setAt := (rfl)
@[simp] theorem State.onGen_setNow (g : Nat) (f : TgSt → TgSt) : (s.onGen g f).setNow = s.setNow := (rfl)
@[simp] theorem State.onGen_pendK (g : Nat) (f : TgSt → TgSt) : (s.onGen g f).pendK = s.pendK := (rfl)
@[simp] theorem State.onGen_pendF (g : Nat) (f : TgSt → TgSt) : (s.onGen g f).pendF = s.pendF := (rfl)
@[simp] theorem State.onGen_roles (g : Nat) (f : TgSt → TgSt) : (s.onGen g f).roles = s.roles := (rfl)
@[simp] theorem State.onGen_reins (g : Nat) (f : TgSt → TgSt) : (s.onGen g f).reins = s.reins := (rfl)
@[simp] theorem State.onGen_owners (g : Nat) (f : TgSt → TgSt) : (s.onGen g f).owners = s.owners := (rfl)
@[simp] theorem State.onGen_ctx (g : Nat) (f : TgSt → TgSt) : (s.onGen g f).ctx = s.ctx := (rfl)
@[simp] theorem State.onGen_deferred (g : Nat) (f : TgSt → TgSt) : (s.onGen g f).deferred = s.deferred := (rfl)
@[simp] theorem State.onGen_pmuFix (g : Nat) (f : TgSt → TgSt) : (s.onGen g f).pmuFix = s.pmuFix := (rfl)
@[simp] theorem State.onGen_pmc (g : Nat) (f : TgSt → TgSt) : (s.onGen g f).pmc = s.pmc := (rfl)
@[simp] theorem State.onGen_port (g : Nat) (f : TgSt → TgSt) : (s.onGen g f).port = s.port := (rfl)
@[simp] theorem State.onGen_boards (g : Nat) (f : TgSt → TgSt) : (s.onGen g f).boards = s.boards := (rfl)
@[simp] theorem State.onGen_hashAt (g : Nat) (f : TgSt → TgSt) : (s.onGen g f).hashAt = s.hashAt := (rfl)
@[simp] theorem State.onGen_prevHash (g : Nat) (f : TgSt → TgSt) : (s.onGen g f).prevHash = s.prevHash := (rfl)
@[simp] theorem State.onGen_prevPeriod (g : Nat) (f : TgSt → TgSt) : (s.onGen g f).prevPeriod = s.prevPeriod := (rfl)
@[simp] theorem State.onGen_tim (g : Nat) (f : TgSt → TgSt) : (s.onGen g f).tim = s.tim := (rfl)
@[simp] theorem State.onGen_ptime (g : Nat) (f : TgSt → TgSt) : (s.onGen g f).ptime = s.ptime := (rfl)
@[simp] theorem State.onGen_sw (g : Nat) (f : TgSt → TgSt) : (s.onGen g f).sw = s.sw := (rfl)
@[simp] theorem State.onGen_tbl (g : Nat) (f : TgSt → TgSt) : (s.onGen g f).tbl = s.tbl := (rfl)
@[simp] theorem State.onGen_cyc (g : Nat) (f : TgSt → TgSt) : (s.onGen g f).cyc = s.cyc := (rfl)
@[simp] theorem State.onGen_clk (g : Nat) (f : TgSt → TgSt) : (s.onGen g f).clk = s.clk := (rfl)
@[simp] theorem State.onGen_iu (g : Nat) (f : TgSt → TgSt) : (s.onGen g f).iu = s.iu := (rfl)
@[simp] theorem State.onGen_mgt (g : Nat) (f : TgSt → TgSt) : (s.onGen g f).mgt = s.mgt := (rfl)
@[simp] theorem State.onGen_tap (g : Nat) (f : TgSt → TgSt) : (s.onGen g f).tap = s.tap := (rfl)

/-! `State.drawn` changes `freeCtr` alone. -/

@[simp] theorem State.drawn_pending : (s.drawn).pending = s.pending := (rfl)
@[simp] theorem State.drawn_code : (s.drawn).code = s.code := (rfl)
@[simp] theorem State.drawn_nodeId : (s.drawn).nodeId = s.nodeId := (rfl)
@[simp] theorem State.drawn_serial : (s.drawn).serial = s.serial := (rfl)
@[simp] theorem State.drawn_life : (s.drawn).life = s.life := (rfl)
@[simp] theorem State.drawn_thermalStop : (s.drawn).thermalStop = s.thermalStop := (rfl)
@[simp] theorem State.drawn_raw : (s.drawn).raw = s.raw := (rfl)
@[simp] theorem State.drawn_uptime : (s.drawn).uptime = s.uptime := (rfl)
@[simp] theorem State.drawn_epoch : (s.drawn).epoch = s.epoch := (rfl)
@[simp] theorem State.drawn_regs : (s.drawn).regs = s.regs := (rfl)
@[simp] theorem State.drawn_setAt : (s.drawn).setAt = s.setAt := (rfl)
@[simp] theorem State.drawn_setNow : (s.drawn).setNow = s.setNow := (rfl)
@[simp] theorem State.drawn_pendK : (s.drawn).pendK = s.pendK := (rfl)
@[simp] theorem State.drawn_pendF : (s.drawn).pendF = s.pendF := (rfl)
@[simp] theorem State.drawn_roles : (s.drawn).roles = s.roles := (rfl)
@[simp] theorem State.drawn_reins : (s.drawn).reins = s.reins := (rfl)
@[simp] theorem State.drawn_owners : (s.drawn).owners = s.owners := (rfl)
@[simp] theorem State.drawn_ctx : (s.drawn).ctx = s.ctx := (rfl)
@[simp] theorem State.drawn_deferred : (s.drawn).deferred = s.deferred := (rfl)
@[simp] theorem State.drawn_pmuFix : (s.drawn).pmuFix = s.pmuFix := (rfl)
@[simp] theorem State.drawn_pmc : (s.drawn).pmc = s.pmc := (rfl)
@[simp] theorem State.drawn_port : (s.drawn).port = s.port := (rfl)
@[simp] theorem State.drawn_boards : (s.drawn).boards = s.boards := (rfl)
@[simp] theorem State.drawn_hashAt : (s.drawn).hashAt = s.hashAt := (rfl)
@[simp] theorem State.drawn_prevHash : (s.drawn).prevHash = s.prevHash := (rfl)
@[simp] theorem State.drawn_prevPeriod : (s.drawn).prevPeriod = s.prevPeriod := (rfl)
@[simp] theorem State.drawn_tim : (s.drawn).tim = s.tim := (rfl)
@[simp] theorem State.drawn_ptime : (s.drawn).ptime = s.ptime := (rfl)
@[simp] theorem State.drawn_sw : (s.drawn).sw = s.sw := (rfl)
@[simp] theorem State.drawn_tbl : (s.drawn).tbl = s.tbl := (rfl)
@[simp] theorem State.drawn_cyc : (s.drawn).cyc = s.cyc := (rfl)
@[simp] theorem State.drawn_clk : (s.drawn).clk = s.clk := (rfl)
@[simp] theorem State.drawn_iu : (s.drawn).iu = s.iu := (rfl)
@[simp] theorem State.drawn_tg : (s.drawn).tg = s.tg := (rfl)
@[simp] theorem State.drawn_mgt : (s.drawn).mgt = s.mgt := (rfl)
@[simp] theorem State.drawn_tap : (s.drawn).tap = s.tap := (rfl)

/-! `State.setPmc` changes `pmc` alone. -/

@[simp] theorem State.setPmc_pending (m v : Nat) : (s.setPmc m v).pending = s.pending := (rfl)
@[simp] theorem State.setPmc_code (m v : Nat) : (s.setPmc m v).code = s.code := (rfl)
@[simp] theorem State.setPmc_nodeId (m v : Nat) : (s.setPmc m v).nodeId = s.nodeId := (rfl)
@[simp] theorem State.setPmc_serial (m v : Nat) : (s.setPmc m v).serial = s.serial := (rfl)
@[simp] theorem State.setPmc_life (m v : Nat) : (s.setPmc m v).life = s.life := (rfl)
@[simp] theorem State.setPmc_thermalStop (m v : Nat) : (s.setPmc m v).thermalStop = s.thermalStop := (rfl)
@[simp] theorem State.setPmc_raw (m v : Nat) : (s.setPmc m v).raw = s.raw := (rfl)
@[simp] theorem State.setPmc_uptime (m v : Nat) : (s.setPmc m v).uptime = s.uptime := (rfl)
@[simp] theorem State.setPmc_epoch (m v : Nat) : (s.setPmc m v).epoch = s.epoch := (rfl)
@[simp] theorem State.setPmc_freeCtr (m v : Nat) : (s.setPmc m v).freeCtr = s.freeCtr := (rfl)
@[simp] theorem State.setPmc_regs (m v : Nat) : (s.setPmc m v).regs = s.regs := (rfl)
@[simp] theorem State.setPmc_setAt (m v : Nat) : (s.setPmc m v).setAt = s.setAt := (rfl)
@[simp] theorem State.setPmc_setNow (m v : Nat) : (s.setPmc m v).setNow = s.setNow := (rfl)
@[simp] theorem State.setPmc_pendK (m v : Nat) : (s.setPmc m v).pendK = s.pendK := (rfl)
@[simp] theorem State.setPmc_pendF (m v : Nat) : (s.setPmc m v).pendF = s.pendF := (rfl)
@[simp] theorem State.setPmc_roles (m v : Nat) : (s.setPmc m v).roles = s.roles := (rfl)
@[simp] theorem State.setPmc_reins (m v : Nat) : (s.setPmc m v).reins = s.reins := (rfl)
@[simp] theorem State.setPmc_owners (m v : Nat) : (s.setPmc m v).owners = s.owners := (rfl)
@[simp] theorem State.setPmc_ctx (m v : Nat) : (s.setPmc m v).ctx = s.ctx := (rfl)
@[simp] theorem State.setPmc_deferred (m v : Nat) : (s.setPmc m v).deferred = s.deferred := (rfl)
@[simp] theorem State.setPmc_pmuFix (m v : Nat) : (s.setPmc m v).pmuFix = s.pmuFix := (rfl)
@[simp] theorem State.setPmc_port (m v : Nat) : (s.setPmc m v).port = s.port := (rfl)
@[simp] theorem State.setPmc_boards (m v : Nat) : (s.setPmc m v).boards = s.boards := (rfl)
@[simp] theorem State.setPmc_hashAt (m v : Nat) : (s.setPmc m v).hashAt = s.hashAt := (rfl)
@[simp] theorem State.setPmc_prevHash (m v : Nat) : (s.setPmc m v).prevHash = s.prevHash := (rfl)
@[simp] theorem State.setPmc_prevPeriod (m v : Nat) : (s.setPmc m v).prevPeriod = s.prevPeriod := (rfl)
@[simp] theorem State.setPmc_tim (m v : Nat) : (s.setPmc m v).tim = s.tim := (rfl)
@[simp] theorem State.setPmc_ptime (m v : Nat) : (s.setPmc m v).ptime = s.ptime := (rfl)
@[simp] theorem State.setPmc_sw (m v : Nat) : (s.setPmc m v).sw = s.sw := (rfl)
@[simp] theorem State.setPmc_tbl (m v : Nat) : (s.setPmc m v).tbl = s.tbl := (rfl)
@[simp] theorem State.setPmc_cyc (m v : Nat) : (s.setPmc m v).cyc = s.cyc := (rfl)
@[simp] theorem State.setPmc_clk (m v : Nat) : (s.setPmc m v).clk = s.clk := (rfl)
@[simp] theorem State.setPmc_iu (m v : Nat) : (s.setPmc m v).iu = s.iu := (rfl)
@[simp] theorem State.setPmc_tg (m v : Nat) : (s.setPmc m v).tg = s.tg := (rfl)
@[simp] theorem State.setPmc_mgt (m v : Nat) : (s.setPmc m v).mgt = s.mgt := (rfl)
@[simp] theorem State.setPmc_tap (m v : Nat) : (s.setPmc m v).tap = s.tap := (rfl)

/-! What the changed field then reads. -/

@[simp] theorem State.onMgt_mgt (f : Mgt → Mgt) : (s.onMgt f).mgt = f s.mgt := rfl
@[simp] theorem State.onSw_sw (f : Sw → Sw) : (s.onSw f).sw = f s.sw := rfl
@[simp] theorem State.onTbl_tbl (f : Tables → Tables) : (s.onTbl f).tbl = f s.tbl := rfl
@[simp] theorem State.onCyc_cyc (f : Cyc → Cyc) : (s.onCyc f).cyc = f s.cyc := rfl
@[simp] theorem State.onClk_clk (f : Clk → Clk) : (s.onClk f).clk = f s.clk := rfl
@[simp] theorem State.drawn_freeCtr : s.drawn.freeCtr = s.freeCtr + 1 := rfl

/-- A register reads what was written to it; every other register stands. -/
theorem State.rd_wr (a b : Nat) (v : Word) : (s.wr a v).rd b = if b = a then v else s.rd b := Tab.get_set _ _ _ _ _
@[simp] theorem State.rd_wr_self (a : Nat) (v : Word) : (s.wr a v).rd a = v := by simp [State.rd_wr]
theorem State.rd_setFld (a lo len v b : Nat) :
    (s.setFld a lo len v).rd b = if b = a then putFld (s.rd a) lo len v else s.rd b := State.rd_wr _ _ _ _
theorem State.rd_stick (a i b : Nat) : (s.stick a i).rd b = if b = a then orBit (s.rd a) i else s.rd b := State.rd_wr _ _ _ _

/-- A context reads what was written to it; every other context stands. -/
theorem State.cx_onCx (c d : Nat) (f : Ctx → Ctx) : (s.onCx c f).cx d = if d = c then f (s.cx c) else s.cx d := Tab.get_set _ _ _ _ _
@[simp] theorem State.cx_onCx_self (c : Nat) (f : Ctx → Ctx) : (s.onCx c f).cx c = f (s.cx c) := by simp [State.cx_onCx]
theorem State.pt_onPt (p q : Nat) (f : PortSt → PortSt) : (s.onPt p f).pt q = if q = p then f (s.pt p) else s.pt q := Tab.get_set _ _ _ _ _
@[simp] theorem State.pt_onPt_self (p : Nat) (f : PortSt → PortSt) : (s.onPt p f).pt p = f (s.pt p) := by simp [State.pt_onPt]
theorem State.ptm_onPtm (p q : Nat) (f : PortTime → PortTime) : (s.onPtm p f).ptm q = if q = p then f (s.ptm p) else s.ptm q :=
  Tab.get_set _ _ _ _ _
@[simp] theorem State.ptm_onPtm_self (p : Nat) (f : PortTime → PortTime) : (s.onPtm p f).ptm p = f (s.ptm p) := by simp [State.ptm_onPtm]
theorem State.dm_onDm (d e : Nat) (f : DomSt → DomSt) : (s.onDm d f).dm e = if e = d then f (s.dm d) else s.dm e := Tab.get_set _ _ _ _ _
@[simp] theorem State.dm_onDm_self (d : Nat) (f : DomSt → DomSt) : (s.onDm d f).dm d = f (s.dm d) := by simp [State.dm_onDm]
theorem State.unit_onUnitSt (u v : Nat) (f : IuSt → IuSt) : (s.onUnitSt u f).unit v = if v = u then f (s.unit u) else s.unit v :=
  Tab.get_set _ _ _ _ _
@[simp] theorem State.unit_onUnitSt_self (u : Nat) (f : IuSt → IuSt) : (s.onUnitSt u f).unit u = f (s.unit u) := by simp [State.unit_onUnitSt]
theorem State.gen_onGen (g k : Nat) (f : TgSt → TgSt) : (s.onGen g f).gen k = if k = g then f (s.gen g) else s.gen k := Tab.get_set _ _ _ _ _
@[simp] theorem State.gen_onGen_self (g : Nat) (f : TgSt → TgSt) : (s.onGen g f).gen g = f (s.gen g) := by simp [State.gen_onGen]
theorem State.role_setRole (c d : Nat) (r : Role) : (s.setRole c r).role d = if d = c then r else s.role d := Tab.get_set _ _ _ _ _
theorem State.rein_setRein (r q : Nat) (v : Option Rein) : (s.setRein r v).rein q = if q = r then v else s.rein q := Tab.get_set _ _ _ _ _

/-! Readers of the other fields. -/

@[simp] theorem State.cx_wr (a : Nat) (v : Word) (i : Nat) : (s.wr a v).cx i = s.cx i := (rfl)
@[simp] theorem State.pt_wr (a : Nat) (v : Word) (i : Nat) : (s.wr a v).pt i = s.pt i := (rfl)
@[simp] theorem State.ptm_wr (a : Nat) (v : Word) (i : Nat) : (s.wr a v).ptm i = s.ptm i := (rfl)
@[simp] theorem State.dm_wr (a : Nat) (v : Word) (i : Nat) : (s.wr a v).dm i = s.dm i := (rfl)
@[simp] theorem State.unit_wr (a : Nat) (v : Word) (i : Nat) : (s.wr a v).unit i = s.unit i := (rfl)
@[simp] theorem State.gen_wr (a : Nat) (v : Word) (i : Nat) : (s.wr a v).gen i = s.gen i := (rfl)
@[simp] theorem State.role_wr (a : Nat) (v : Word) (i : Nat) : (s.wr a v).role i = s.role i := (rfl)
@[simp] theorem State.rein_wr (a : Nat) (v : Word) (i : Nat) : (s.wr a v).rein i = s.rein i := (rfl)
@[simp] theorem State.cx_setFld (a lo len v : Nat) (i : Nat) : (s.setFld a lo len v).cx i = s.cx i := (rfl)
@[simp] theorem State.pt_setFld (a lo len v : Nat) (i : Nat) : (s.setFld a lo len v).pt i = s.pt i := (rfl)
@[simp] theorem State.ptm_setFld (a lo len v : Nat) (i : Nat) : (s.setFld a lo len v).ptm i = s.ptm i := (rfl)
@[simp] theorem State.dm_setFld (a lo len v : Nat) (i : Nat) : (s.setFld a lo len v).dm i = s.dm i := (rfl)
@[simp] theorem State.unit_setFld (a lo len v : Nat) (i : Nat) : (s.setFld a lo len v).unit i = s.unit i := (rfl)
@[simp] theorem State.gen_setFld (a lo len v : Nat) (i : Nat) : (s.setFld a lo len v).gen i = s.gen i := (rfl)
@[simp] theorem State.role_setFld (a lo len v : Nat) (i : Nat) : (s.setFld a lo len v).role i = s.role i := (rfl)
@[simp] theorem State.rein_setFld (a lo len v : Nat) (i : Nat) : (s.setFld a lo len v).rein i = s.rein i := (rfl)
@[simp] theorem State.cx_stick (a i : Nat) (j : Nat) : (s.stick a i).cx j = s.cx j := (rfl)
@[simp] theorem State.pt_stick (a i : Nat) (j : Nat) : (s.stick a i).pt j = s.pt j := (rfl)
@[simp] theorem State.ptm_stick (a i : Nat) (j : Nat) : (s.stick a i).ptm j = s.ptm j := (rfl)
@[simp] theorem State.dm_stick (a i : Nat) (j : Nat) : (s.stick a i).dm j = s.dm j := (rfl)
@[simp] theorem State.unit_stick (a i : Nat) (j : Nat) : (s.stick a i).unit j = s.unit j := (rfl)
@[simp] theorem State.gen_stick (a i : Nat) (j : Nat) : (s.stick a i).gen j = s.gen j := (rfl)
@[simp] theorem State.role_stick (a i : Nat) (j : Nat) : (s.stick a i).role j = s.role j := (rfl)
@[simp] theorem State.rein_stick (a i : Nat) (j : Nat) : (s.stick a i).rein j = s.rein j := (rfl)
@[simp] theorem State.rd_stage (a : Nat) (v : Word) (i : Nat) : (s.stage a v).rd i = s.rd i := (rfl)
@[simp] theorem State.cx_stage (a : Nat) (v : Word) (i : Nat) : (s.stage a v).cx i = s.cx i := (rfl)
@[simp] theorem State.pt_stage (a : Nat) (v : Word) (i : Nat) : (s.stage a v).pt i = s.pt i := (rfl)
@[simp] theorem State.ptm_stage (a : Nat) (v : Word) (i : Nat) : (s.stage a v).ptm i = s.ptm i := (rfl)
@[simp] theorem State.dm_stage (a : Nat) (v : Word) (i : Nat) : (s.stage a v).dm i = s.dm i := (rfl)
@[simp] theorem State.unit_stage (a : Nat) (v : Word) (i : Nat) : (s.stage a v).unit i = s.unit i := (rfl)
@[simp] theorem State.gen_stage (a : Nat) (v : Word) (i : Nat) : (s.stage a v).gen i = s.gen i := (rfl)
@[simp] theorem State.role_stage (a : Nat) (v : Word) (i : Nat) : (s.stage a v).role i = s.role i := (rfl)
@[simp] theorem State.rein_stage (a : Nat) (v : Word) (i : Nat) : (s.stage a v).rein i = s.rein i := (rfl)
@[simp] theorem State.rd_onCx (c : Nat) (f : Ctx → Ctx) (i : Nat) : (s.onCx c f).rd i = s.rd i := (rfl)
@[simp] theorem State.pt_onCx (c : Nat) (f : Ctx → Ctx) (i : Nat) : (s.onCx c f).pt i = s.pt i := (rfl)
@[simp] theorem State.ptm_onCx (c : Nat) (f : Ctx → Ctx) (i : Nat) : (s.onCx c f).ptm i = s.ptm i := (rfl)
@[simp] theorem State.dm_onCx (c : Nat) (f : Ctx → Ctx) (i : Nat) : (s.onCx c f).dm i = s.dm i := (rfl)
@[simp] theorem State.unit_onCx (c : Nat) (f : Ctx → Ctx) (i : Nat) : (s.onCx c f).unit i = s.unit i := (rfl)
@[simp] theorem State.gen_onCx (c : Nat) (f : Ctx → Ctx) (i : Nat) : (s.onCx c f).gen i = s.gen i := (rfl)
@[simp] theorem State.role_onCx (c : Nat) (f : Ctx → Ctx) (i : Nat) : (s.onCx c f).role i = s.role i := (rfl)
@[simp] theorem State.rein_onCx (c : Nat) (f : Ctx → Ctx) (i : Nat) : (s.onCx c f).rein i = s.rein i := (rfl)
@[simp] theorem State.rd_setRole (c : Nat) (r : Role) (i : Nat) : (s.setRole c r).rd i = s.rd i := (rfl)
@[simp] theorem State.cx_setRole (c : Nat) (r : Role) (i : Nat) : (s.setRole c r).cx i = s.cx i := (rfl)
@[simp] theorem State.pt_setRole (c : Nat) (r : Role) (i : Nat) : (s.setRole c r).pt i = s.pt i := (rfl)
@[simp] theorem State.ptm_setRole (c : Nat) (r : Role) (i : Nat) : (s.setRole c r).ptm i = s.ptm i := (rfl)
@[simp] theorem State.dm_setRole (c : Nat) (r : Role) (i : Nat) : (s.setRole c r).dm i = s.dm i := (rfl)
@[simp] theorem State.unit_setRole (c : Nat) (r : Role) (i : Nat) : (s.setRole c r).unit i = s.unit i := (rfl)
@[simp] theorem State.gen_setRole (c : Nat) (r : Role) (i : Nat) : (s.setRole c r).gen i = s.gen i := (rfl)
@[simp] theorem State.rein_setRole (c : Nat) (r : Role) (i : Nat) : (s.setRole c r).rein i = s.rein i := (rfl)
@[simp] theorem State.rd_setRein (r : Nat) (v : Option Rein) (i : Nat) : (s.setRein r v).rd i = s.rd i := (rfl)
@[simp] theorem State.cx_setRein (r : Nat) (v : Option Rein) (i : Nat) : (s.setRein r v).cx i = s.cx i := (rfl)
@[simp] theorem State.pt_setRein (r : Nat) (v : Option Rein) (i : Nat) : (s.setRein r v).pt i = s.pt i := (rfl)
@[simp] theorem State.ptm_setRein (r : Nat) (v : Option Rein) (i : Nat) : (s.setRein r v).ptm i = s.ptm i := (rfl)
@[simp] theorem State.dm_setRein (r : Nat) (v : Option Rein) (i : Nat) : (s.setRein r v).dm i = s.dm i := (rfl)
@[simp] theorem State.unit_setRein (r : Nat) (v : Option Rein) (i : Nat) : (s.setRein r v).unit i = s.unit i := (rfl)
@[simp] theorem State.gen_setRein (r : Nat) (v : Option Rein) (i : Nat) : (s.setRein r v).gen i = s.gen i := (rfl)
@[simp] theorem State.role_setRein (r : Nat) (v : Option Rein) (i : Nat) : (s.setRein r v).role i = s.role i := (rfl)
@[simp] theorem State.rd_onPt (p : Nat) (f : PortSt → PortSt) (i : Nat) : (s.onPt p f).rd i = s.rd i := (rfl)
@[simp] theorem State.cx_onPt (p : Nat) (f : PortSt → PortSt) (i : Nat) : (s.onPt p f).cx i = s.cx i := (rfl)
@[simp] theorem State.ptm_onPt (p : Nat) (f : PortSt → PortSt) (i : Nat) : (s.onPt p f).ptm i = s.ptm i := (rfl)
@[simp] theorem State.dm_onPt (p : Nat) (f : PortSt → PortSt) (i : Nat) : (s.onPt p f).dm i = s.dm i := (rfl)
@[simp] theorem State.unit_onPt (p : Nat) (f : PortSt → PortSt) (i : Nat) : (s.onPt p f).unit i = s.unit i := (rfl)
@[simp] theorem State.gen_onPt (p : Nat) (f : PortSt → PortSt) (i : Nat) : (s.onPt p f).gen i = s.gen i := (rfl)
@[simp] theorem State.role_onPt (p : Nat) (f : PortSt → PortSt) (i : Nat) : (s.onPt p f).role i = s.role i := (rfl)
@[simp] theorem State.rein_onPt (p : Nat) (f : PortSt → PortSt) (i : Nat) : (s.onPt p f).rein i = s.rein i := (rfl)
@[simp] theorem State.rd_onPtm (p : Nat) (f : PortTime → PortTime) (i : Nat) : (s.onPtm p f).rd i = s.rd i := (rfl)
@[simp] theorem State.cx_onPtm (p : Nat) (f : PortTime → PortTime) (i : Nat) : (s.onPtm p f).cx i = s.cx i := (rfl)
@[simp] theorem State.pt_onPtm (p : Nat) (f : PortTime → PortTime) (i : Nat) : (s.onPtm p f).pt i = s.pt i := (rfl)
@[simp] theorem State.dm_onPtm (p : Nat) (f : PortTime → PortTime) (i : Nat) : (s.onPtm p f).dm i = s.dm i := (rfl)
@[simp] theorem State.unit_onPtm (p : Nat) (f : PortTime → PortTime) (i : Nat) : (s.onPtm p f).unit i = s.unit i := (rfl)
@[simp] theorem State.gen_onPtm (p : Nat) (f : PortTime → PortTime) (i : Nat) : (s.onPtm p f).gen i = s.gen i := (rfl)
@[simp] theorem State.role_onPtm (p : Nat) (f : PortTime → PortTime) (i : Nat) : (s.onPtm p f).role i = s.role i := (rfl)
@[simp] theorem State.rein_onPtm (p : Nat) (f : PortTime → PortTime) (i : Nat) : (s.onPtm p f).rein i = s.rein i := (rfl)
@[simp] theorem State.rd_onDm (d : Nat) (f : DomSt → DomSt) (i : Nat) : (s.onDm d f).rd i = s.rd i := (rfl)
@[simp] theorem State.cx_onDm (d : Nat) (f : DomSt → DomSt) (i : Nat) : (s.onDm d f).cx i = s.cx i := (rfl)
@[simp] theorem State.pt_onDm (d : Nat) (f : DomSt → DomSt) (i : Nat) : (s.onDm d f).pt i = s.pt i := (rfl)
@[simp] theorem State.ptm_onDm (d : Nat) (f : DomSt → DomSt) (i : Nat) : (s.onDm d f).ptm i = s.ptm i := (rfl)
@[simp] theorem State.unit_onDm (d : Nat) (f : DomSt → DomSt) (i : Nat) : (s.onDm d f).unit i = s.unit i := (rfl)
@[simp] theorem State.gen_onDm (d : Nat) (f : DomSt → DomSt) (i : Nat) : (s.onDm d f).gen i = s.gen i := (rfl)
@[simp] theorem State.role_onDm (d : Nat) (f : DomSt → DomSt) (i : Nat) : (s.onDm d f).role i = s.role i := (rfl)
@[simp] theorem State.rein_onDm (d : Nat) (f : DomSt → DomSt) (i : Nat) : (s.onDm d f).rein i = s.rein i := (rfl)
@[simp] theorem State.rd_onMgt (f : Mgt → Mgt) (i : Nat) : (s.onMgt f).rd i = s.rd i := (rfl)
@[simp] theorem State.cx_onMgt (f : Mgt → Mgt) (i : Nat) : (s.onMgt f).cx i = s.cx i := (rfl)
@[simp] theorem State.pt_onMgt (f : Mgt → Mgt) (i : Nat) : (s.onMgt f).pt i = s.pt i := (rfl)
@[simp] theorem State.ptm_onMgt (f : Mgt → Mgt) (i : Nat) : (s.onMgt f).ptm i = s.ptm i := (rfl)
@[simp] theorem State.dm_onMgt (f : Mgt → Mgt) (i : Nat) : (s.onMgt f).dm i = s.dm i := (rfl)
@[simp] theorem State.unit_onMgt (f : Mgt → Mgt) (i : Nat) : (s.onMgt f).unit i = s.unit i := (rfl)
@[simp] theorem State.gen_onMgt (f : Mgt → Mgt) (i : Nat) : (s.onMgt f).gen i = s.gen i := (rfl)
@[simp] theorem State.role_onMgt (f : Mgt → Mgt) (i : Nat) : (s.onMgt f).role i = s.role i := (rfl)
@[simp] theorem State.rein_onMgt (f : Mgt → Mgt) (i : Nat) : (s.onMgt f).rein i = s.rein i := (rfl)
@[simp] theorem State.rd_onSw (f : Sw → Sw) (i : Nat) : (s.onSw f).rd i = s.rd i := (rfl)
@[simp] theorem State.cx_onSw (f : Sw → Sw) (i : Nat) : (s.onSw f).cx i = s.cx i := (rfl)
@[simp] theorem State.pt_onSw (f : Sw → Sw) (i : Nat) : (s.onSw f).pt i = s.pt i := (rfl)
@[simp] theorem State.ptm_onSw (f : Sw → Sw) (i : Nat) : (s.onSw f).ptm i = s.ptm i := (rfl)
@[simp] theorem State.dm_onSw (f : Sw → Sw) (i : Nat) : (s.onSw f).dm i = s.dm i := (rfl)
@[simp] theorem State.unit_onSw (f : Sw → Sw) (i : Nat) : (s.onSw f).unit i = s.unit i := (rfl)
@[simp] theorem State.gen_onSw (f : Sw → Sw) (i : Nat) : (s.onSw f).gen i = s.gen i := (rfl)
@[simp] theorem State.role_onSw (f : Sw → Sw) (i : Nat) : (s.onSw f).role i = s.role i := (rfl)
@[simp] theorem State.rein_onSw (f : Sw → Sw) (i : Nat) : (s.onSw f).rein i = s.rein i := (rfl)
@[simp] theorem State.rd_onTbl (f : Tables → Tables) (i : Nat) : (s.onTbl f).rd i = s.rd i := (rfl)
@[simp] theorem State.cx_onTbl (f : Tables → Tables) (i : Nat) : (s.onTbl f).cx i = s.cx i := (rfl)
@[simp] theorem State.pt_onTbl (f : Tables → Tables) (i : Nat) : (s.onTbl f).pt i = s.pt i := (rfl)
@[simp] theorem State.ptm_onTbl (f : Tables → Tables) (i : Nat) : (s.onTbl f).ptm i = s.ptm i := (rfl)
@[simp] theorem State.dm_onTbl (f : Tables → Tables) (i : Nat) : (s.onTbl f).dm i = s.dm i := (rfl)
@[simp] theorem State.unit_onTbl (f : Tables → Tables) (i : Nat) : (s.onTbl f).unit i = s.unit i := (rfl)
@[simp] theorem State.gen_onTbl (f : Tables → Tables) (i : Nat) : (s.onTbl f).gen i = s.gen i := (rfl)
@[simp] theorem State.role_onTbl (f : Tables → Tables) (i : Nat) : (s.onTbl f).role i = s.role i := (rfl)
@[simp] theorem State.rein_onTbl (f : Tables → Tables) (i : Nat) : (s.onTbl f).rein i = s.rein i := (rfl)
@[simp] theorem State.rd_onCyc (f : Cyc → Cyc) (i : Nat) : (s.onCyc f).rd i = s.rd i := (rfl)
@[simp] theorem State.cx_onCyc (f : Cyc → Cyc) (i : Nat) : (s.onCyc f).cx i = s.cx i := (rfl)
@[simp] theorem State.pt_onCyc (f : Cyc → Cyc) (i : Nat) : (s.onCyc f).pt i = s.pt i := (rfl)
@[simp] theorem State.ptm_onCyc (f : Cyc → Cyc) (i : Nat) : (s.onCyc f).ptm i = s.ptm i := (rfl)
@[simp] theorem State.dm_onCyc (f : Cyc → Cyc) (i : Nat) : (s.onCyc f).dm i = s.dm i := (rfl)
@[simp] theorem State.unit_onCyc (f : Cyc → Cyc) (i : Nat) : (s.onCyc f).unit i = s.unit i := (rfl)
@[simp] theorem State.gen_onCyc (f : Cyc → Cyc) (i : Nat) : (s.onCyc f).gen i = s.gen i := (rfl)
@[simp] theorem State.role_onCyc (f : Cyc → Cyc) (i : Nat) : (s.onCyc f).role i = s.role i := (rfl)
@[simp] theorem State.rein_onCyc (f : Cyc → Cyc) (i : Nat) : (s.onCyc f).rein i = s.rein i := (rfl)
@[simp] theorem State.rd_onClk (f : Clk → Clk) (i : Nat) : (s.onClk f).rd i = s.rd i := (rfl)
@[simp] theorem State.cx_onClk (f : Clk → Clk) (i : Nat) : (s.onClk f).cx i = s.cx i := (rfl)
@[simp] theorem State.pt_onClk (f : Clk → Clk) (i : Nat) : (s.onClk f).pt i = s.pt i := (rfl)
@[simp] theorem State.ptm_onClk (f : Clk → Clk) (i : Nat) : (s.onClk f).ptm i = s.ptm i := (rfl)
@[simp] theorem State.dm_onClk (f : Clk → Clk) (i : Nat) : (s.onClk f).dm i = s.dm i := (rfl)
@[simp] theorem State.unit_onClk (f : Clk → Clk) (i : Nat) : (s.onClk f).unit i = s.unit i := (rfl)
@[simp] theorem State.gen_onClk (f : Clk → Clk) (i : Nat) : (s.onClk f).gen i = s.gen i := (rfl)
@[simp] theorem State.role_onClk (f : Clk → Clk) (i : Nat) : (s.onClk f).role i = s.role i := (rfl)
@[simp] theorem State.rein_onClk (f : Clk → Clk) (i : Nat) : (s.onClk f).rein i = s.rein i := (rfl)
@[simp] theorem State.rd_onUnitSt (u : Nat) (f : IuSt → IuSt) (i : Nat) : (s.onUnitSt u f).rd i = s.rd i := (rfl)
@[simp] theorem State.cx_onUnitSt (u : Nat) (f : IuSt → IuSt) (i : Nat) : (s.onUnitSt u f).cx i = s.cx i := (rfl)
@[simp] theorem State.pt_onUnitSt (u : Nat) (f : IuSt → IuSt) (i : Nat) : (s.onUnitSt u f).pt i = s.pt i := (rfl)
@[simp] theorem State.ptm_onUnitSt (u : Nat) (f : IuSt → IuSt) (i : Nat) : (s.onUnitSt u f).ptm i = s.ptm i := (rfl)
@[simp] theorem State.dm_onUnitSt (u : Nat) (f : IuSt → IuSt) (i : Nat) : (s.onUnitSt u f).dm i = s.dm i := (rfl)
@[simp] theorem State.gen_onUnitSt (u : Nat) (f : IuSt → IuSt) (i : Nat) : (s.onUnitSt u f).gen i = s.gen i := (rfl)
@[simp] theorem State.role_onUnitSt (u : Nat) (f : IuSt → IuSt) (i : Nat) : (s.onUnitSt u f).role i = s.role i := (rfl)
@[simp] theorem State.rein_onUnitSt (u : Nat) (f : IuSt → IuSt) (i : Nat) : (s.onUnitSt u f).rein i = s.rein i := (rfl)
@[simp] theorem State.rd_onGen (g : Nat) (f : TgSt → TgSt) (i : Nat) : (s.onGen g f).rd i = s.rd i := (rfl)
@[simp] theorem State.cx_onGen (g : Nat) (f : TgSt → TgSt) (i : Nat) : (s.onGen g f).cx i = s.cx i := (rfl)
@[simp] theorem State.pt_onGen (g : Nat) (f : TgSt → TgSt) (i : Nat) : (s.onGen g f).pt i = s.pt i := (rfl)
@[simp] theorem State.ptm_onGen (g : Nat) (f : TgSt → TgSt) (i : Nat) : (s.onGen g f).ptm i = s.ptm i := (rfl)
@[simp] theorem State.dm_onGen (g : Nat) (f : TgSt → TgSt) (i : Nat) : (s.onGen g f).dm i = s.dm i := (rfl)
@[simp] theorem State.unit_onGen (g : Nat) (f : TgSt → TgSt) (i : Nat) : (s.onGen g f).unit i = s.unit i := (rfl)
@[simp] theorem State.role_onGen (g : Nat) (f : TgSt → TgSt) (i : Nat) : (s.onGen g f).role i = s.role i := (rfl)
@[simp] theorem State.rein_onGen (g : Nat) (f : TgSt → TgSt) (i : Nat) : (s.onGen g f).rein i = s.rein i := (rfl)
@[simp] theorem State.rd_drawn (i : Nat) : (s.drawn).rd i = s.rd i := (rfl)
@[simp] theorem State.cx_drawn (i : Nat) : (s.drawn).cx i = s.cx i := (rfl)
@[simp] theorem State.pt_drawn (i : Nat) : (s.drawn).pt i = s.pt i := (rfl)
@[simp] theorem State.ptm_drawn (i : Nat) : (s.drawn).ptm i = s.ptm i := (rfl)
@[simp] theorem State.dm_drawn (i : Nat) : (s.drawn).dm i = s.dm i := (rfl)
@[simp] theorem State.unit_drawn (i : Nat) : (s.drawn).unit i = s.unit i := (rfl)
@[simp] theorem State.gen_drawn (i : Nat) : (s.drawn).gen i = s.gen i := (rfl)
@[simp] theorem State.role_drawn (i : Nat) : (s.drawn).role i = s.role i := (rfl)
@[simp] theorem State.rein_drawn (i : Nat) : (s.drawn).rein i = s.rein i := (rfl)
@[simp] theorem State.rd_setPmc (m v : Nat) (i : Nat) : (s.setPmc m v).rd i = s.rd i := (rfl)
@[simp] theorem State.cx_setPmc (m v : Nat) (i : Nat) : (s.setPmc m v).cx i = s.cx i := (rfl)
@[simp] theorem State.pt_setPmc (m v : Nat) (i : Nat) : (s.setPmc m v).pt i = s.pt i := (rfl)
@[simp] theorem State.ptm_setPmc (m v : Nat) (i : Nat) : (s.setPmc m v).ptm i = s.ptm i := (rfl)
@[simp] theorem State.dm_setPmc (m v : Nat) (i : Nat) : (s.setPmc m v).dm i = s.dm i := (rfl)
@[simp] theorem State.unit_setPmc (m v : Nat) (i : Nat) : (s.setPmc m v).unit i = s.unit i := (rfl)
@[simp] theorem State.gen_setPmc (m v : Nat) (i : Nat) : (s.setPmc m v).gen i = s.gen i := (rfl)
@[simp] theorem State.role_setPmc (m v : Nat) (i : Nat) : (s.setPmc m v).role i = s.role i := (rfl)
@[simp] theorem State.rein_setPmc (m v : Nat) (i : Nat) : (s.setPmc m v).rein i = s.rein i := (rfl)

end Sys2Proof.Machine
end

