-- ==== Sys2Proof/Laws/Events.lean ====
section
/-! SUPPORT. What raising a source, counting, logging, receiving a command and answering it can change: one relation says it
once, and each shared operation stands in it. -/

namespace Sys2Proof.Machine

/-- `t` is `s` but for registers that `A` names and the note of the bits set in this tick, contexts, the holders' leases, the
PMU and the log. -/
structure Beside (A : Nat → Prop) (s t : State) : Prop where
  eq : t = { s with regs := t.regs, ctx := t.ctx, mgt := t.mgt, reins := t.reins, pmuFix := t.pmuFix, pmc := t.pmc, freeCtr := t.freeCtr,
                    setAt := t.setAt, setNow := t.setNow }
  rd : ∀ a, ¬ A a → t.rd a = s.rd a
  rein : ∀ r, (t.rein r).map (·.holder) = (s.rein r).map (·.holder)
  mgt : t.mgt = { s.mgt with log := t.mgt.log, logSeq := t.mgt.logSeq, logSecond := t.mgt.logSecond, logCount := t.mgt.logCount,
                             suppressed := t.mgt.suppressed, saved := t.mgt.saved, job := t.mgt.job }

/-- The event status registers of the eight contexts. -/
def EvtReg (a : Nat) : Prop := ∃ c j, c < 8 ∧ j < 8 ∧ a = Reg.evtStat c j

/-- The registers of the PMU that counting may set. -/
def PmuReg (a : Nat) : Prop :=
  (∃ m, m < 16 ∧ (a = Reg.pmcSel m ∨ a = Reg.pmuOvf m)) ∨ a = Reg.pmuSmpStat ∨ a = Reg.pmuSmpRawLo ∨ a = Reg.pmuSmpRawHi ∨
    a = Reg.pmuSmpPc

variable {A B : Nat → Prop} {s t u : State}

theorem Beside.refl (A : Nat → Prop) (s : State) : Beside A s s := ⟨rfl, fun _ _ => rfl, fun _ => rfl, rfl⟩

theorem Beside.trans (h : Beside A s t) (k : Beside A t u) : Beside A s u :=
  ⟨by rw [k.eq, h.eq], fun a ha => (k.rd a ha).trans (h.rd a ha), fun r => (k.rein r).trans (h.rein r), by rw [k.mgt, h.mgt]⟩

theorem Beside.mono (h : Beside A s t) (hab : ∀ a, A a → B a) : Beside B s t :=
  ⟨h.eq, fun a ha => h.rd a fun hA => ha (hab a hA), h.rein, h.mgt⟩

theorem Beside.ite {b : Prop} [Decidable b] (h : Beside A s t) (k : Beside A s u) : Beside A s (if b then t else u) := by
  split
  · exact h
  · exact k

theorem Beside.foldl {β : Type} (f : State → β → State) (l : List β) (hf : ∀ t, ∀ b ∈ l, Beside A t (f t b)) :
    ∀ s, Beside A s (l.foldl f s) := by
  induction l with
  | nil => exact fun s => Beside.refl A s
  | cons b l ih =>
    exact fun s => (hf s b (by simp)).trans (ih (fun t x hx => hf t x (by simp [hx])) (f s b))

theorem Beside.onCx (s : State) (c : Nat) (f : Ctx → Ctx) : Beside A s (s.onCx c f) := ⟨rfl, fun _ _ => rfl, fun _ => rfl, rfl⟩

theorem Beside.wr (s : State) (a : Nat) (v : Word) (ha : A a) : Beside A s (s.wr a v) :=
  ⟨rfl, fun b hb => by rw [State.rd_wr, if_neg]; rintro rfl; exact hb ha, fun _ => rfl, rfl⟩

theorem Beside.setFld (s : State) (a lo len v : Nat) (ha : A a) : Beside A s (s.setFld a lo len v) := Beside.wr s a _ ha

theorem Beside.stick (s : State) (a i : Nat) (ha : A a) : Beside A s (s.stick a i) :=
  ⟨rfl, fun b hb => by rw [State.rd_stick, if_neg]; rintro rfl; exact hb ha, fun _ => rfl, rfl⟩

theorem Beside.onMgt (s : State) (f : Mgt → Mgt)
    (hf : f s.mgt = { s.mgt with log := (f s.mgt).log, logSeq := (f s.mgt).logSeq, logSecond := (f s.mgt).logSecond,
                                 logCount := (f s.mgt).logCount, suppressed := (f s.mgt).suppressed, saved := (f s.mgt).saved,
                                 job := (f s.mgt).job }) : Beside A s (s.onMgt f) := ⟨rfl, fun _ _ => rfl, fun _ => rfl, hf⟩

theorem postMsg_beside (s : State) (c : Nat) : Beside A s (s.postMsg c) := by
  unfold State.postMsg
  exact Beside.ite (Beside.onCx _ _ _) (Beside.onCx _ _ _)

theorem saveState_keeps (m : Mgt) : m.saveState = { m with job := m.saveState.job } := by
  unfold Mgt.saveState
  split <;> rfl

theorem floorMark_beside (s : State) (i old new : Nat) : Beside A s (s.floorMark i old new) := by
  unfold State.floorMark
  refine Beside.ite (Beside.onMgt s _ ?_) (Beside.refl A s)
  simp only
  rw [saveState_keeps]

theorem eventFrame_beside (s : State) (c : Nat) : Beside A s (s.eventFrame c) := by
  unfold State.eventFrame
  split
  · exact Beside.refl A s
  · exact Beside.ite (Beside.onCx s _ _) (Beside.refl A s)

theorem deliver_beside (s : State) (c : Nat) (b : Bool) : Beside A s (s.deliver c b) := by
  unfold State.deliver
  exact Beside.ite (Beside.ite (postMsg_beside s c) (Beside.ite (eventFrame_beside s c) (Beside.refl A s))) (Beside.refl A s)

theorem raiseIn_beside (s : State) (n c : Nat) (hn : n < 256) (hc : c < 8) (h : ∀ a, EvtReg a → A a) : Beside A s (s.raiseIn n c) := by
  unfold State.raiseIn
  exact Beside.ite ((Beside.stick s _ _ (h _ ⟨_, _, hc, by omega, rfl⟩)).trans (deliver_beside _ _ _)) (Beside.refl A s)

theorem raiseBits_beside (s : State) (n : Nat) (hn : n < 256) (h : ∀ a, EvtReg a → A a) : Beside A s (s.raiseBits n) := by
  unfold State.raiseBits
  exact Beside.foldl _ _ (fun t c hc => Beside.ite (raiseIn_beside t n c hn (List.mem_range.mp hc) h) (Beside.refl A t)) s

theorem logOne_beside (s : State) (src code : Nat) (args : List Nat) : Beside A s (s.logOne src code args) := by
  unfold State.logOne
  exact Beside.ite (Beside.refl A s) (Beside.ite (Beside.onMgt s _ rfl) (Beside.onMgt s _ rfl))

theorem logRec_beside (s : State) (src code : Nat) (args : List Nat) (h : ∀ a, EvtReg a → A a) : Beside A s (s.logRec src code args) := by
  unfold State.logRec
  have b := logOne_beside (A := A) s src code args
  exact Beside.ite (Beside.ite (b.trans ((raiseBits_beside _ _ (by omega) h).trans (logOne_beside _ _ _ _)))
    (b.trans (raiseBits_beside _ _ (by omega) h))) b

theorem raiseAt_beside (s : State) (n : Nat) (w : Word) (u : Nat) (hn : n < 256) (h : ∀ a, EvtReg a → A a) :
    Beside A s (s.raiseAt n w u) := by
  unfold State.raiseAt
  split
  · exact (raiseBits_beside s n hn h).trans (logRec_beside _ _ _ _ h)
  · exact raiseBits_beside s n hn h

theorem raise_beside (s : State) (n : Nat) (hn : n < 256) (h : ∀ a, EvtReg a → A a) : Beside A s (s.raise n) :=
  raiseAt_beside s n 0 _ hn h

theorem raiseFw_beside (s : State) (n : Nat) (hn : n < 256) (h : ∀ a, EvtReg a → A a) : Beside A s (s.raiseFw n) :=
  Beside.ite (raise_beside s n hn h) (Beside.refl A s)

theorem raiseIf_beside (s : State) (b : Bool) (n : Nat) (hn : n < 256) (h : ∀ a, EvtReg a → A a) : Beside A s (s.raiseIf b n) :=
  Beside.ite (raise_beside s n hn h) (Beside.refl A s)

theorem count_beside (s : State) (a src : Nat) (hn : src < 256) (h : ∀ a, EvtReg a → A a) (ha : A a) : Beside A s (s.count a src) := by
  unfold State.count
  exact Beside.ite ((Beside.wr s _ _ ha).trans (raise_beside _ _ hn h)) (Beside.wr s _ _ ha)

theorem countP_beside (s : State) (a p : Nat) (hp : p < 192) (h : ∀ a, EvtReg a → A a) (ha : A a) : Beside A s (s.countP a p) :=
  count_beside s a _ (by omega) h ha

theorem setPmc_beside (s : State) (m v : Nat) : Beside A s (s.setPmc m v) := ⟨rfl, fun _ _ => rfl, fun _ => rfl, rfl⟩

theorem drawn_beside (s : State) : Beside A s s.drawn := ⟨rfl, fun _ _ => rfl, fun _ => rfl, rfl⟩

theorem sample_beside (s : State) (m : Nat) (h : ∀ a, PmuReg a → A a) : Beside A s (s.sample m) := by
  have h1 : A Reg.pmuSmpStat := h _ (by simp [PmuReg])
  have h2 : A Reg.pmuSmpRawLo := h _ (by simp [PmuReg])
  have h3 : A Reg.pmuSmpRawHi := h _ (by simp [PmuReg])
  have h4 : A Reg.pmuSmpPc := h _ (by simp [PmuReg])
  unfold State.sample
  refine Beside.ite (Beside.ite (Beside.setFld s _ _ _ _ h1) ?_) (Beside.refl A s)
  exact (((((Beside.setFld s _ _ _ _ h1).trans (Beside.stick _ _ _ h1)).trans (Beside.wr _ _ _ h2)).trans (Beside.wr _ _ _ h3)).trans
    (Beside.wr _ _ _ h4)).trans (drawn_beside _)

theorem pmcInc_beside (f : Nat) (s : State) (m : Nat) (hm : m < 16) (h : ∀ a, EvtReg a → A a) (h' : ∀ a, PmuReg a → A a) :
    Beside A s (State.pmcInc f s m) := by
  induction f generalizing s m with
  | zero => exact Beside.refl A s
  | succ f ih =>
    unfold State.pmcInc
    have hw : Beside A s (((s.setPmc m 0).stick (Reg.pmcSel m) 31).sample m) :=
      ((setPmc_beside s m 0).trans (Beside.stick _ _ _ (h' _ (Or.inl ⟨m, hm, Or.inl rfl⟩)))).trans (sample_beside _ _ h')
    refine Beside.ite (setPmc_beside s m _) ?_
    dsimp only
    split
    · next hc =>
      refine Beside.ite (hw.trans (ih _ _ ?_)) hw
      simp only [State.chained, Bool.and_eq_true, decide_eq_true_eq] at hc
      omega
    · exact hw.trans (raise_beside _ _ (by omega) h)

theorem fixInc_beside (s : State) (n : Nat) (hn : n < 512) (h : ∀ a, EvtReg a → A a) (h' : ∀ a, PmuReg a → A a) :
    Beside A s (s.fixInc n) := by
  unfold State.fixInc
  refine Beside.ite ⟨rfl, fun _ _ => rfl, fun _ => rfl, rfl⟩ ?_
  have h1 : Beside A s { s with pmuFix := Tab.set (fun _ => 0) s.pmuFix n 0 } := ⟨rfl, fun _ _ => rfl, fun _ => rfl, rfl⟩
  exact (h1.trans (Beside.stick _ _ _ (h' _ (Or.inl ⟨n / 32, by omega, Or.inr rfl⟩)))).trans (raise_beside _ _ (by omega) h)

theorem perf_beside (s : State) (n : Nat) (hn : n < 512) (h : ∀ a, EvtReg a → A a) (h' : ∀ a, PmuReg a → A a) :
    Beside A s (s.perf n) := by
  unfold State.perf
  exact (fixInc_beside s n hn h h').trans
    (Beside.foldl _ _ (fun t m hm => Beside.ite (pmcInc_beside _ t m (List.mem_range.mp hm) h h') (Beside.refl A t)) _)

/-- A renewal keeps every holder. -/
theorem renew_beside (s : State) (c : Nat) : Beside A s (s.renew c) := by
  refine ⟨rfl, fun _ _ => rfl, fun r => ?_, rfl⟩
  unfold State.rein State.renew
  generalize s.reins = l
  induction l with
  | nil => rfl
  | cons x l ih =>
    obtain ⟨j, v⟩ := x
    simp only [List.map_cons, Tab.get]
    split
    · cases v <;> simp; split <;> rfl
    · exact ih

theorem syncTail_beside (s : State) (c : Nat) (ha : A (Reg.hcxCqTail c)) : Beside A s (s.syncTail c) := by
  unfold State.syncTail
  exact Beside.ite (Beside.wr s _ _ ha) (Beside.refl A s)

theorem reply_beside (s : State) (c op tag st : Nat) (ps : List Nat) (d : Bool) (hc : c < 8) (h : ∀ a, EvtReg a → A a)
    (ha : A (Reg.hcxCqTail c)) :
    Beside A s (s.reply c op tag st ps d) := by
  unfold State.reply
  dsimp only
  refine Beside.ite ?_ ?_
  · exact Beside.ite (((Beside.onCx s _ _).trans (syncTail_beside _ _ ha)).trans (raise_beside _ _ (by omega) h))
      ((Beside.onCx s _ _).trans (syncTail_beside _ _ ha))
  · exact (Beside.onCx s _ _).trans (raise_beside _ _ (by omega) h)

theorem receive_beside (s : State) (h : CmdHdr) (op : Nat) (he : ∀ a, EvtReg a → A a) (hp : ∀ a, PmuReg a → A a)
    (ha : A (Reg.hcxCmdCount h.ctx)) : Beside A s (s.receive h op) := by
  have key : ∀ t, Beside A s t → Beside A s ((t.count (Reg.hcxCmdCount h.ctx) 242).perf 0x184) := fun t ht =>
    (ht.trans (count_beside t _ _ (by omega) he ha)).trans (perf_beside _ _ (by omega) he hp)
  unfold State.receive
  apply key
  split
  · exact (renew_beside s _).trans (Beside.onCx _ _ _)
  · exact Beside.ite (Beside.onCx s _ _) ((renew_beside s _).trans (Beside.onCx _ _ _))

theorem answerOk_beside (s : State) (h : CmdHdr) (op : Nat) (ps : List Nat) (hc : h.ctx < 8) (he : ∀ a, EvtReg a → A a)
    (ha : A (Reg.hcxCqTail h.ctx)) :
    Beside A s (s.answerOk h op ps) := by
  unfold State.answerOk
  exact Beside.ite (Beside.refl A s) (reply_beside s _ _ _ _ _ _ hc he ha)

end Sys2Proof.Machine
end

