-- ==== Sys2Proof/Laws/Commands.lean ====
section
/-! SUPPORT. How a command that is admitted ends, and what an event does while the block is up: the lemmas that statements about
`exec` cite in place of unfolding `cmd`, `event` and `onUnit`. -/

namespace Sys2Proof.Machine

open Host

/-- An admitted command ends as its own rules say. -/
theorem cmd_of_admitted {s : State} {h : CmdHdr} {op : Nat} {n : Need} {need : State → Need} {body : State → CmdEnd}
    (ha : Admitted s h op n) (hn : need (s.receive h op) = n) :
    s.cmd h op need body = .next (match body (s.receive h op) with
      | .refuse st ps => (s.receive h op).reply h.ctx op h.tag st ps false
      | .refuseWith st ps t => t.reply h.ctx op h.tag st ps false
      | .done ps t => t.answerOk h op ps
      | .accepted idx ps t =>
        ({ t with deferred := t.deferred ++ [{ ctx := h.ctx, op := op, tag := h.tag, idx := idx }] } : State).reply
          h.ctx op h.tag St.accepted ps false) := by
  obtain ⟨h1, h2, h3, h4, h5⟩ := ha
  have h6 : ((s.receive h op).bitAt Reg.mgtStat 1 && !recoveryAdmits h.ctx op) = false := by
    cases hb : (s.receive h op).bitAt Reg.mgtStat 1
    · rfl
    · simp [h5 hb]
  unfold State.cmd State.command
  rw [if_pos h1]
  simp only [h2, h3, hn, h4, h6]
  rfl

/-- An admitted command that ends with OK. -/
theorem cmd_done {s : State} {h : CmdHdr} {op : Nat} {n : Need} {need : State → Need} {body : State → CmdEnd} {ps : List Nat} {t : State}
    (ha : Admitted s h op n) (hn : need (s.receive h op) = n) (hb : body (s.receive h op) = .done ps t) :
    s.cmd h op need body = .next (t.answerOk h op ps) := by rw [cmd_of_admitted ha hn, hb]

/-- An admitted command that ends with ACCEPTED. -/
theorem cmd_accepted {s : State} {h : CmdHdr} {op idx : Nat} {n : Need} {need : State → Need} {body : State → CmdEnd} {ps : List Nat}
    {t : State} (ha : Admitted s h op n) (hn : need (s.receive h op) = n) (hb : body (s.receive h op) = .accepted idx ps t) :
    s.cmd h op need body = .next (({ t with deferred := t.deferred ++ [{ ctx := h.ctx, op := op, tag := h.tag, idx := idx }] } : State).reply
      h.ctx op h.tag St.accepted ps false) := by rw [cmd_of_admitted ha hn, hb]

/-- An admitted command that its own rules turn away. -/
theorem cmd_refused {s : State} {h : CmdHdr} {op st : Nat} {n : Need} {need : State → Need} {body : State → CmdEnd} {ps : List Nat}
    (ha : Admitted s h op n) (hn : need (s.receive h op) = n) (hb : body (s.receive h op) = .refuse st ps) :
    s.cmd h op need body = .next ((s.receive h op).reply h.ctx op h.tag st ps false) := by rw [cmd_of_admitted ha hn, hb]

/-- A command with parameters in its answer is always answered (R331). -/
theorem answerOk_of_ne (s : State) (h : CmdHdr) (op : Nat) {ps : List Nat} (hp : ps ≠ []) :
    s.answerOk h op ps = s.reply h.ctx op h.tag St.ok ps false := by
  cases ps with
  | nil => exact absurd rfl hp
  | cons a l => rfl

@[simp] theorem answerOk_cons (s : State) (h : CmdHdr) (op a : Nat) (ps : List Nat) :
    s.answerOk h op (a :: ps) = s.reply h.ctx op h.tag St.ok (a :: ps) false := rfl

/-- Every command of a context that exists ends in a next state. -/
theorem cmd_next {s : State} {h : CmdHdr} (hc : h.ctx < 8) (op : Nat) (need : State → Need) (body : State → CmdEnd) :
    ∃ t, s.cmd h op need body = .next t := ⟨_, if_pos hc⟩

/-- An admitted command whose answer has parameters. -/
theorem cmd_answers {s : State} {h : CmdHdr} {op : Nat} {n : Need} {need : State → Need} {body : State → CmdEnd} {ps : List Nat} {t : State}
    (ha : Admitted s h op n) (hn : need (s.receive h op) = n) (hb : body (s.receive h op) = .done ps t) (hp : ps ≠ []) :
    s.cmd h op need body = .next (t.reply h.ctx op h.tag St.ok ps false) := by rw [cmd_done ha hn hb, answerOk_of_ne _ _ _ hp]

/-- While the block is not up an event does nothing. -/
theorem event_of_not_up {s : State} (h : s.life ≠ .up) (f : State → State) : s.event f = s := by simp [State.event, State.live, h]

/-- While the block is up an event happens. -/
theorem event_of_up {s : State} (h : s.life = .up) (f : State → State) : s.event f = f s := by simp [State.event, State.live, h]

theorem live_of_up {s : State} (h : s.life = .up) : s.live = true := by simp [State.live, h]

theorem fwOn_iff {s : State} : s.fwOn = true ↔ s.life = .up ∧ s.mgt.fw = .ready := by simp [State.fwOn, State.live]

/-- A unit that exists. -/
theorem onUnit_of_lt {n i : Nat} (h : i < n) (t : State) : onUnit n i t = .next t := if_pos h

/-- A unit that does not exist stops the block. -/
theorem onUnit_of_le {n i : Nat} (h : n ≤ i) (t : State) : onUnit n i t = .fault .noSuchUnit := if_neg (by omega)

theorem onUnitS_of_lt {n i : Nat} (h : i < n) (t s : State) : onUnitS n i t s = t := if_pos h

/-- The first bad operand of a list whose tests all pass. -/
@[simp] theorem firstBad_nil : firstBad [] = none := rfl
theorem firstBad_cons (i : Nat) (b : Bool) (l : List (Nat × Bool)) : firstBad ((i, b) :: l) = if b then firstBad l else some i := rfl

end Sys2Proof.Machine
end

