-- ==== Sys2Proof/Laws/Kept.lean ====
section
/-! SUPPORT. What the invariants read (the roles, the process image) and the life of the module, and that each shared operation
keeps it: one lemma an operation, cited in place of unfolding it. -/

namespace Sys2Proof.Machine

set_option maxRecDepth 4000
set_option linter.unusedSimpArgs false
set_option linter.unusedTactic false
set_option linter.unreachableTactic false

open Host
/-- What the invariants read: the roles and the process image; and the life of the module. -/
def State.kept (s : State) : Tab Role × List Host.Cell × Life := (s.roles, s.cyc.image, s.life)

theorem kept_roles {s t : State} (h : t.kept = s.kept) : t.roles = s.roles := congrArg Prod.fst h
theorem kept_image {s t : State} (h : t.kept = s.kept) : t.cyc.image = s.cyc.image := congrArg (·.2.1) h
theorem kept_life {s t : State} (h : t.kept = s.kept) : t.life = s.life := congrArg (·.2.2) h

/-! The named updates. -/

@[simp] theorem wr_kept (s : State) (a : Nat) (v : Word) : (s.wr a v).kept = s.kept := (rfl)
@[simp] theorem setFld_kept (s : State) (a lo len v : Nat) : (s.setFld a lo len v).kept = s.kept := (rfl)
@[simp] theorem stick_kept (s : State) (a i : Nat) : (s.stick a i).kept = s.kept := (rfl)
@[simp] theorem stage_kept (s : State) (a : Nat) (v : Word) : (s.stage a v).kept = s.kept := (rfl)
@[simp] theorem onCx_kept (s : State) (c : Nat) (f : Ctx → Ctx) : (s.onCx c f).kept = s.kept := (rfl)
@[simp] theorem setRein_kept (s : State) (r : Nat) (v : Option Rein) : (s.setRein r v).kept = s.kept := (rfl)
@[simp] theorem onPt_kept (s : State) (p : Nat) (f : PortSt → PortSt) : (s.onPt p f).kept = s.kept := (rfl)
@[simp] theorem onPtm_kept (s : State) (p : Nat) (f : PortTime → PortTime) : (s.onPtm p f).kept = s.kept := (rfl)
@[simp] theorem onDm_kept (s : State) (d : Nat) (f : DomSt → DomSt) : (s.onDm d f).kept = s.kept := (rfl)
@[simp] theorem onMgt_kept (s : State) (f : Mgt → Mgt) : (s.onMgt f).kept = s.kept := (rfl)
@[simp] theorem onSw_kept (s : State) (f : Sw → Sw) : (s.onSw f).kept = s.kept := (rfl)
@[simp] theorem onTbl_kept (s : State) (f : Tables → Tables) : (s.onTbl f).kept = s.kept := (rfl)
@[simp] theorem onClk_kept (s : State) (f : Clk → Clk) : (s.onClk f).kept = s.kept := (rfl)
@[simp] theorem onUnitSt_kept (s : State) (u : Nat) (f : IuSt → IuSt) : (s.onUnitSt u f).kept = s.kept := (rfl)
@[simp] theorem onGen_kept (s : State) (g : Nat) (f : TgSt → TgSt) : (s.onGen g f).kept = s.kept := (rfl)
@[simp] theorem drawn_kept (s : State) : s.drawn.kept = s.kept := (rfl)
@[simp] theorem setPmc_kept (s : State) (m v : Nat) : (s.setPmc m v).kept = s.kept := (rfl)
@[simp] theorem onCyc_kept (s : State) (f : Cyc → Cyc) (h : (f s.cyc).image = s.cyc.image) : (s.onCyc f).kept = s.kept := by
  simp [State.kept, h]
/-! An update of one field that the invariants do not read. -/

@[simp] theorem with_pending_kept (s : State) (v : List Instr) : ({ s with pending := v } : State).kept = s.kept := (rfl)
@[simp] theorem with_raw_kept (s : State) (v : Raw) : ({ s with raw := v } : State).kept = s.kept := (rfl)
@[simp] theorem with_uptime_kept (s : State) (v : Nat) : ({ s with uptime := v } : State).kept = s.kept := (rfl)
@[simp] theorem with_epoch_kept (s : State) (v : Nat) : ({ s with epoch := v } : State).kept = s.kept := (rfl)
@[simp] theorem with_freeCtr_kept (s : State) (v : Nat) : ({ s with freeCtr := v } : State).kept = s.kept := (rfl)
@[simp] theorem with_regs_kept (s : State) (v : Tab Word) : ({ s with regs := v } : State).kept = s.kept := (rfl)
@[simp] theorem with_pendK_kept (s : State) (v : Tab Word) : ({ s with pendK := v } : State).kept = s.kept := (rfl)
@[simp] theorem with_pendF_kept (s : State) (v : Tab Word) : ({ s with pendF := v } : State).kept = s.kept := (rfl)
@[simp] theorem with_reins_kept (s : State) (v : Tab (Option Rein)) : ({ s with reins := v } : State).kept = s.kept := (rfl)
@[simp] theorem with_owners_kept (s : State) (v : Tab Nat) : ({ s with owners := v } : State).kept = s.kept := (rfl)
@[simp] theorem with_deferred_kept (s : State) (v : List Deferred) : ({ s with deferred := v } : State).kept = s.kept := (rfl)
@[simp] theorem with_pmuFix_kept (s : State) (v : Tab Nat) : ({ s with pmuFix := v } : State).kept = s.kept := (rfl)
@[simp] theorem with_boards_kept (s : State) (v : Tab (List Byte)) : ({ s with boards := v } : State).kept = s.kept := (rfl)
@[simp] theorem with_tim_kept (s : State) (v : Tim) : ({ s with tim := v } : State).kept = s.kept := (rfl)
@[simp] theorem with_tap_kept (s : State) (v : Tap) : ({ s with tap := v } : State).kept = s.kept := (rfl)

/-- A fold keeps what each of its steps keeps. -/
theorem foldl_kept {β : Type} (f : State → β → State) (l : List β) (s : State) (h : ∀ t b, (f t b).kept = t.kept) : (l.foldl f s).kept = s.kept := by
  induction l generalizing s with
  | nil => rfl
  | cons b l ih => rw [List.foldl_cons, ih, h]

/-- A fold that carries a value beside the state. -/
theorem foldl_fst_kept {β γ : Type} (f : State × γ → β → State × γ) (l : List β) (x : State × γ) (h : ∀ t b, (f t b).1.kept = t.1.kept) :
    (l.foldl f x).1.kept = x.1.kept := by
  induction l generalizing x with
  | nil => rfl
  | cons b l ih => rw [List.foldl_cons, ih, h]

/-! The operations, in the order of their files. -/

@[simp] theorem applyK_kept (s : State) (p : Nat → Bool) : (s.applyK p).kept = s.kept := by
  unfold State.applyK
  dsimp only
  rw [foldl_kept _ _ _ fun t b => wr_kept t _ _]
  rfl
@[simp] theorem dropK_kept (s : State) (p : Nat → Bool) : (State.dropK s p).kept = s.kept := by simp [State.dropK, apply_ite State.kept]
@[simp] theorem latch_kept (s : State) (c : Nat) (l : List (Nat × Word)) : (State.latch s c l).kept = s.kept := by simp [State.latch, apply_ite State.kept]
@[simp] theorem floorMark_kept (s : State) (i : Nat) (old : Nat) (new : Nat) : (State.floorMark s i old new).kept = s.kept := by simp [State.floorMark, apply_ite State.kept]
@[simp] theorem postMsg_kept (s : State) (c : Nat) : (State.postMsg s c).kept = s.kept := by simp [State.postMsg, apply_ite State.kept]
@[simp] theorem eventFrame_kept (s : State) (c : Nat) : (State.eventFrame s c).kept = s.kept := by
  unfold State.eventFrame
  repeat' first
    | (simp [apply_ite State.kept, foldl_kept]; done)
    | split
@[simp] theorem deliver_kept (s : State) (c : Nat) (before : Bool) : (State.deliver s c before).kept = s.kept := by simp [State.deliver, apply_ite State.kept]
@[simp] theorem raiseIn_kept (s : State) (n : Nat) (c : Nat) : (State.raiseIn s n c).kept = s.kept := by simp [State.raiseIn, apply_ite State.kept]
@[simp] theorem raiseBits_kept (s : State) (n : Nat) : (State.raiseBits s n).kept = s.kept := by simp [State.raiseBits, apply_ite State.kept, foldl_kept]
@[simp] theorem logOne_kept (s : State) (source : Nat) (code : Nat) (args : List Nat) : (State.logOne s source code args).kept = s.kept := by simp [State.logOne, apply_ite State.kept]
@[simp] theorem logRec_kept (s : State) (source : Nat) (code : Nat) (args : List Nat) : (State.logRec s source code args).kept = s.kept := by simp [State.logRec, apply_ite State.kept]
@[simp] theorem raiseAt_kept (s : State) (n : Nat) (stat : Word) (unit : Nat) : (State.raiseAt s n stat unit).kept = s.kept := by simp [State.raiseAt, apply_ite State.kept]
@[simp] theorem raise_kept (s : State) (n : Nat) : (State.raise s n).kept = s.kept := by simp [State.raise, apply_ite State.kept]
@[simp] theorem raiseFw_kept (s : State) (n : Nat) : (State.raiseFw s n).kept = s.kept := by simp [State.raiseFw, apply_ite State.kept]
@[simp] theorem raiseIf_kept (s : State) (b : Bool) (n : Nat) : (State.raiseIf s b n).kept = s.kept := by simp [State.raiseIf, apply_ite State.kept]
@[simp] theorem count_kept (s : State) (a : Nat) (src : Nat) : (State.count s a src).kept = s.kept := by simp [State.count, apply_ite State.kept]
@[simp] theorem countP_kept (s : State) (a : Nat) (p : Nat) : (State.countP s a p).kept = s.kept := by simp [State.countP, apply_ite State.kept]
@[simp] theorem countN_kept (s : State) (a : Nat) (src : Nat) (k : Nat) : (State.countN s a src k).kept = s.kept := by simp [State.countN, apply_ite State.kept]
@[simp] theorem sample_kept (s : State) (m : Nat) : (State.sample s m).kept = s.kept := by simp [State.sample, apply_ite State.kept]
@[simp] theorem pmcInc_kept (f : Nat) (s : State) (m : Nat) : (State.pmcInc f s m).kept = s.kept := by
  induction f generalizing s m with
  | zero => rfl
  | succ f ih =>
    unfold State.pmcInc
    dsimp only
    repeat' first
      | (simp [apply_ite State.kept, foldl_kept, ih]; done)
      | split
@[simp] theorem fixInc_kept (s : State) (n : Nat) : (State.fixInc s n).kept = s.kept := by simp [State.fixInc, apply_ite State.kept]
@[simp] theorem perf_kept (s : State) (n : Nat) : (State.perf s n).kept = s.kept := by simp [State.perf, apply_ite State.kept, foldl_kept]
@[simp] theorem setOwner_kept (s : State) (kind : Nat) (idx : Nat) (c : Nat) : (State.setOwner s kind idx c).kept = s.kept := by
  unfold State.setOwner
  repeat' first
    | (simp [apply_ite State.kept, foldl_kept]; done)
    | split
@[simp] theorem renew_kept (s : State) (c : Nat) : (State.renew s c).kept = s.kept := by simp [State.renew, apply_ite State.kept]
@[simp] theorem syncTail_kept (s : State) (c : Nat) : (State.syncTail s c).kept = s.kept := by simp [State.syncTail, apply_ite State.kept]
@[simp] theorem reply_kept (s : State) (c : Nat) (op : Nat) (tag : Nat) (status : Nat) (params : List Nat) (deferred : Bool) : (State.reply s c op tag status params deferred).kept = s.kept := by simp [State.reply, apply_ite State.kept]
@[simp] theorem complete_kept (s : State) (op : Nat) (idx : Nat) (status : Nat) (params : List Nat) : (State.complete s op idx status params).kept = s.kept := by
  unfold State.complete
  repeat' first
    | (simp [apply_ite State.kept, foldl_kept]; done)
    | split
@[simp] theorem receive_kept (s : State) (h : CmdHdr) (op : Nat) : (State.receive s h op).kept = s.kept := by
  unfold State.receive
  repeat' first
    | (simp [apply_ite State.kept, foldl_kept]; done)
    | split
@[simp] theorem answerOk_kept (s : State) (h : CmdHdr) (op : Nat) (ps : List Nat) : (State.answerOk s h op ps).kept = s.kept := by simp [State.answerOk, apply_ite State.kept]
theorem command_kept (s : State) (h : CmdHdr) (op : Nat) (need : State → Need) (body : State → CmdEnd)
    (hb : ∀ r, match body r with
      | .refuse _ _ => True
      | .refuseWith _ _ t => t.kept = r.kept
      | .done _ t => t.kept = r.kept
      | .accepted _ _ t => t.kept = r.kept) : (s.command h op need body).kept = s.kept := by
  have hr := hb (s.receive h op)
  unfold State.command
  split
  · rfl
  · dsimp only
    generalize hc : (s.receive h op).check h op (need (s.receive h op)) = x
    cases x with
    | some y => simp
    | none =>
      dsimp only
      split
      · simp
      · generalize body (s.receive h op) = e at hr
        cases e <;> simp_all
theorem onUnitS_kept (n i : Nat) (t s u : State) (ht : t.kept = u.kept) (hs : s.kept = u.kept) : (onUnitS n i t s).kept = u.kept := by
  simp only [onUnitS, apply_ite State.kept, ht, hs, ite_self]
theorem event_kept (s : State) (f : State → State) (hf : (f s).kept = s.kept) : (s.event f).kept = s.kept := by
  simp only [State.event, apply_ite State.kept, hf, ite_self]
@[simp] theorem armCause_kept (s : State) : s.armCause.kept = s.kept := by
  unfold State.armCause
  split <;> rfl
@[simp] theorem setHold_kept (s : State) (d : Nat) (on : Bool) : (State.setHold s d on).kept = s.kept := by simp [State.setHold, apply_ite State.kept]
@[simp] theorem setDomState_kept (s : State) (d : Nat) (n : Nat) : (State.setDomState s d n).kept = s.kept := by simp [State.setDomState, apply_ite State.kept]
@[simp] theorem setTrace_kept (s : State) (d : Nat) (tr : Bool) (fr : Bool) (ps : Bool) : (State.setTrace s d tr fr ps).kept = s.kept := by simp [State.setTrace, apply_ite State.kept]
@[simp] theorem rebase_kept (s : State) (d : Nat) (rate : Int) : (State.rebase s d rate).kept = s.kept := by simp [State.rebase, apply_ite State.kept]
@[simp] theorem firstLock_kept (s : State) (d : Nat) (up : Int) (r256 : Nat) (rate : Int) : (State.firstLock s d up r256 rate).kept = s.kept := by simp [State.firstLock, apply_ite State.kept]
@[simp] theorem measure_kept (s : State) (d : Nat) (theta : Int) (up : Int) (r256 : Nat) (tn : Nat) (td : Nat) : (State.measure s d theta up r256 tn td).kept = s.kept := by
  unfold State.measure
  dsimp only
  repeat' first
    | (simp [apply_ite State.kept, foldl_kept]; done)
    | split
@[simp] theorem loseUpstream_kept (s : State) (d : Nat) : (s.loseUpstream d).kept = s.kept := by
  unfold State.loseUpstream
  generalize s.domState d = n
  split <;> simp
@[simp] theorem setGmId_kept (s : State) (d : Nat) (gm : Nat) : (State.setGmId s d gm).kept = s.kept := by simp [State.setGmId, apply_ite State.kept]
@[simp] theorem setUtc_kept (s : State) (d : Nat) (off : Int) (valid : Bool) (l61 : Bool) (l59 : Bool) : (State.setUtc s d off valid l61 l59).kept = s.kept := by simp [State.setUtc, apply_ite State.kept]
@[simp] theorem slewDone_kept (s : State) : (State.slewDone s).kept = s.kept := by simp [State.slewDone, apply_ite State.kept]
@[simp] theorem slewTick_kept (s : State) : (State.slewTick s).kept = s.kept := by simp [State.slewTick, apply_ite State.kept]
theorem switchTo_kept (s : State) (d : Nat) (force : Bool) (t : State) (h : (State.switchTo s d force) = some t) : t.kept = s.kept := by
  unfold State.switchTo at h
  (try dsimp only at h)
  repeat' first
    | (simp at h; done)
    | (cases h; simp [apply_ite State.kept, foldl_kept]; done)
    | split at h
@[simp] theorem completeSwitch_kept (s : State) (status : Nat) (ps : List Nat) : (State.completeSwitch s status ps).kept = s.kept := by simp [State.completeSwitch, apply_ite State.kept]
@[simp] theorem cancelSwitch_kept (s : State) (why : Nat) : (State.cancelSwitch s why).kept = s.kept := by
  unfold State.cancelSwitch
  repeat' first
    | (simp [apply_ite State.kept, foldl_kept]; done)
    | split
@[simp] theorem notePhase_kept (s : State) (p : Nat) (r : RxStamp) : (State.notePhase s p r).kept = s.kept := by simp [State.notePhase, apply_ite State.kept]
@[simp] theorem clearHist_kept (s : State) (p : Nat) : (State.clearHist s p).kept = s.kept := by simp [State.clearHist, apply_ite State.kept]
@[simp] theorem offset_kept (s : State) (p : Nat) (d : Nat) (r : RespDom) (t4 : Int) (din : Int) : (State.offset s p d r t4 din).kept = s.kept := by simp [State.offset, apply_ite State.kept]
@[simp] theorem exchange_kept (s : State) (p : Nat) (m : RespMsg) (t4 : Int) : (State.exchange s p m t4).kept = s.kept := by simp [State.exchange, apply_ite State.kept]
@[simp] theorem follow_kept (s : State) (d : Nat) (m : InfoMsg) : (State.follow s d m).kept = s.kept := by simp [State.follow, apply_ite State.kept]
@[simp] theorem beGm_kept (s : State) (d : Nat) : (State.beGm s d).kept = s.kept := by simp [State.beGm, apply_ite State.kept]
@[simp] theorem beUp_kept (s : State) (d : Nat) (p : Nat) : (State.beUp s d p).kept = s.kept := by
  unfold State.beUp
  dsimp only
  repeat' first
    | (simp [apply_ite State.kept, foldl_kept]; done)
    | split
@[simp] theorem choose_kept (s : State) (d : Nat) (w : Nat) : (State.choose s d w).kept = s.kept := by simp [State.choose, apply_ite State.kept]
@[simp] theorem dropUpstream_kept (s : State) (p : Nat) : (State.dropUpstream s p).kept = s.kept := by simp [State.dropUpstream, apply_ite State.kept]
@[simp] theorem stopTime_kept (s : State) (p : Nat) : (State.stopTime s p).kept = s.kept := by simp [State.stopTime, apply_ite State.kept]
@[simp] theorem countTx_kept (s : State) (p : Nat) (b : List Byte) : (State.countTx s p b).kept = s.kept := by simp [State.countTx, apply_ite State.kept]
@[simp] theorem countRx_kept (s : State) (p : Nat) (n : Nat) (max : Nat) : (State.countRx s p n max).kept = s.kept := by simp [State.countRx, apply_ite State.kept]
@[simp] theorem countRxType_kept (s : State) (p : Nat) (b : List Byte) : (State.countRxType s p b).kept = s.kept := by simp [State.countRxType, apply_ite State.kept]
@[simp] theorem suspendedLost_kept (s : State) (p : Nat) : (s.suspendedLost p).kept = s.kept := by simp [State.suspendedLost]
@[simp] theorem tcEdit_kept (s : State) (f : Frm) (e : Nat) (b : List Byte) (ts : Nat) : (State.tcEdit s f e b ts).2.kept = s.kept := by
  unfold State.tcEdit
  dsimp only
  repeat' first
    | (simp [apply_ite State.kept, foldl_kept]; done)
    | split
@[simp] theorem ptpDepart_kept (s : State) (f : Frm) (e : Nat) (b : List Byte) (ts : Nat) : (State.ptpDepart s f e b ts).2.kept = s.kept := by
  unfold State.ptpDepart
  dsimp only
  repeat' first
    | (simp [apply_ite State.kept, foldl_kept]; done)
    | split
@[simp] theorem poolMark_kept (s : State) : (State.poolMark s).kept = s.kept := by simp [State.poolMark, apply_ite State.kept]
@[simp] theorem takeCells_kept (s : State) (n : Nat) : (State.takeCells s n).kept = s.kept := by simp [State.takeCells, apply_ite State.kept]
@[simp] theorem freeCells_kept (s : State) (n : Nat) : (State.freeCells s n).kept = s.kept := by simp [State.freeCells, apply_ite State.kept]
@[simp] theorem writePoolLow_kept (s : State) (v : Word) : (State.writePoolLow s v).kept = s.kept := by simp [State.writePoolLow, apply_ite State.kept]
@[simp] theorem setFrame_kept (s : State) (id : Nat) (f : Option Frm) : (State.setFrame s id f).kept = s.kept := by simp [State.setFrame, apply_ite State.kept]
@[simp] theorem advance_kept (s : State) (c : Nat) (r : Nat) (k : Nat) : (State.advance s c r k).kept = s.kept := by simp [State.advance, apply_ite State.kept]
@[simp] theorem ringMsg_kept (s : State) (c : Nat) (r : Nat) : (State.ringMsg s c r).kept = s.kept := by simp [State.ringMsg, apply_ite State.kept]
@[simp] theorem putTxBack_kept (s : State) (c : Nat) (r : Nat) (h : Nat) (k : Nat) (st : Nat) (stamp : Option (Raw × Byte)) : (State.putTxBack s c r h k st stamp).kept = s.kept := by simp [State.putTxBack, apply_ite State.kept, foldl_kept]
@[simp] theorem flushWb_kept (f : Nat) (s : State) (c r : Nat) : (State.flushWb f s c r).kept = s.kept := by
  induction f generalizing s with
  | zero => rfl
  | succ f ih =>
    unfold State.flushWb
    repeat' first
      | (simp [apply_ite State.kept, foldl_kept, ih]; done)
      | dsimp only
      | split
@[simp] theorem flushAll_kept (s : State) (c : Nat) (r : Nat) : (State.flushAll s c r).kept = s.kept := by simp [State.flushAll, apply_ite State.kept]
@[simp] theorem txStatus_kept (s : State) (key : Nat) (at_ : Nat) (st : Option Nat) (left : Option Nat) : (State.txStatus s key at_ st left).kept = s.kept := by simp [State.txStatus, apply_ite State.kept]
@[simp] theorem txGone_kept (s : State) (f : Frm) : (State.txGone s f).kept = s.kept := by
  unfold State.txGone
  repeat' first
    | (simp [apply_ite State.kept, foldl_kept]; done)
    | split
@[simp] theorem release_kept (s : State) (id : Nat) : (State.release s id).kept = s.kept := by
  unfold State.release
  repeat' first
    | (simp [apply_ite State.kept, foldl_kept]; done)
    | split
@[simp] theorem setVq_kept (s : State) (k : Nat) (l : List Copy) : (State.setVq s k l).kept = s.kept := by simp [State.setVq, apply_ite State.kept]
@[simp] theorem setSeg_kept (s : State) (q : Nat) (l : List Rec) : (State.setSeg s q l).kept = s.kept := by simp [State.setSeg, apply_ite State.kept]
@[simp] theorem addOcc_kept (s : State) (q : Nat) (n : Nat) : (State.addOcc s q n).kept = s.kept := by simp [State.addOcc, apply_ite State.kept]
@[simp] theorem subOcc_kept (s : State) (q : Nat) (n : Nat) : (State.subOcc s q n).kept = s.kept := by simp [State.subOcc, apply_ite State.kept]
@[simp] theorem countQ_kept (s : State) (a : Nat) : (State.countQ s a).kept = s.kept := by simp [State.countQ, apply_ite State.kept]
@[simp] theorem lastDrop_kept (s : State) (q : Nat) (cause : Nat) : (State.lastDrop s q cause).kept = s.kept := by simp [State.lastDrop, apply_ite State.kept]
@[simp] theorem refused_kept (s : State) (q : Nat) (cause : Nat) (multi : Bool) : (State.refused s q cause multi).kept = s.kept := by simp [State.refused, apply_ite State.kept]
@[simp] theorem fateSources_kept (s : State) (q : Nat) (f : Fate) : (State.fateSources s q f).kept = s.kept := by
  unfold State.fateSources
  repeat' first
    | (simp [apply_ite State.kept, foldl_kept]; done)
    | split
@[simp] theorem enqueue_kept (s : State) (f : Frm) (dests : List (Nat × Bool)) (multi : Bool) : (s.enqueue f dests multi).kept = s.kept := by
  have hq : ∀ (qs : List (Nat × Bool × Fate)), (qs.foldl (fun u x => match x.2.2 with
      | .refuse c => u.refused x.1 c multi
      | _ => u) (qs.foldl (fun u x => u.fateSources x.1 x.2.2) s)).kept = s.kept := by
    intro qs
    rw [foldl_kept, foldl_kept]
    · intro t b; simp
    · intro t b; split <;> simp
  unfold State.enqueue
  dsimp only
  split
  · exact hq _
  · rw [foldl_kept _ _ _ fun t b => perf_kept t _, foldl_kept _ _ _ fun t b => by simp, foldl_kept _ _ _ fun t b => by simp]
    simp only [onSw_kept, setFrame_kept, takeCells_kept]
    exact hq _
@[simp] theorem mgtSend_kept (s : State) (e : Nat) (vid : Option Nat) (untag : Bool) (job : PtpJob) (b : List Byte) : (State.mgtSend s e vid untag job b).kept = s.kept := by simp [State.mgtSend, apply_ite State.kept]
@[simp] theorem dropCopy_kept (s : State) (q : Nat) (c : Copy) : (State.dropCopy s q c).kept = s.kept := by
  unfold State.dropCopy
  repeat' first
    | (simp [apply_ite State.kept, foldl_kept]; done)
    | split
@[simp] theorem agedOut_kept (s : State) (q : Nat) (c : Copy) : (State.agedOut s q c).kept = s.kept := by simp [State.agedOut, apply_ite State.kept]
@[simp] theorem setStage_kept (s : State) (e : Nat) (l : List Staged) : (State.setStage s e l).kept = s.kept := by simp [State.setStage, apply_ite State.kept]
@[simp] theorem setLineCopy_kept (s : State) (e : Nat) (c : Option Staged) : (State.setLineCopy s e c).kept = s.kept := by simp [State.setLineCopy, apply_ite State.kept]
@[simp] theorem setOpen_kept (s : State) (e : Nat) (k : Option Nat) : (State.setOpen s e k).kept = s.kept := by simp [State.setOpen, apply_ite State.kept]
@[simp] theorem putLine_kept (s : State) (p : Nat) (r : List Beat × LineTx × Nat) : (State.putLine s p r).kept = s.kept := by simp [State.putLine, apply_ite State.kept]
@[simp] theorem wakeTx_kept (s : State) (p : Nat) : (State.wakeTx s p).kept = s.kept := by simp [State.wakeTx, apply_ite State.kept]
@[simp] theorem emit_kept (s : State) (p : Nat) (limit : Option Nat) (bs : List Beat) : (State.emit s p limit bs).kept = s.kept := by simp [State.emit, apply_ite State.kept]
@[simp] theorem resumeTx_kept (s : State) (p : Nat) : (State.resumeTx s p).kept = s.kept := by simp [State.resumeTx, apply_ite State.kept]
@[simp] theorem sent_kept (s : State) (e : Nat) (b : List Byte) (ending : Nat) (ts : Nat) (out : Option Nat) (cls : Nat) (hint : Nat) : (State.sent s e b ending ts out cls hint).kept = s.kept := by simp [State.sent, apply_ite State.kept]
@[simp] theorem unqueue_kept (s : State) (c : Staged) : (State.unqueue s c).kept = s.kept := by simp [State.unqueue, apply_ite State.kept]
@[simp] theorem cutLine_kept (s : State) (e reason : Nat) : (s.cutLine e reason).kept = s.kept := by
  unfold State.cutLine
  repeat' first
    | (simp [apply_ite State.kept, foldl_kept]; done)
    | split
@[simp] theorem purgeEgress_kept (s : State) (e : Nat) : (State.purgeEgress s e).kept = s.kept := by
  unfold State.purgeEgress
  repeat' first
    | (simp [apply_ite State.kept, foldl_kept]; done)
    | split
@[simp] theorem setRing_kept (s : State) (k : Nat) (l : List Copy) : (State.setRing s k l).kept = s.kept := by simp [State.setRing, apply_ite State.kept]
@[simp] theorem flushHeld_kept (s : State) (q : Nat) : (State.flushHeld s q).kept = s.kept := by simp [State.flushHeld, apply_ite State.kept, foldl_kept]
@[simp] theorem flushQueue_kept (s : State) (q : Nat) : (State.flushQueue s q).kept = s.kept := by simp [State.flushQueue, apply_ite State.kept, foldl_kept]
@[simp] theorem unstage_kept (s : State) (q : Nat) (r : Rec) (written : Bool) : (State.unstage s q r written).kept = s.kept := by
  unfold State.unstage
  dsimp only
  repeat' first
    | (simp [apply_ite State.kept, foldl_kept]; done)
    | split
@[simp] theorem flushSeg_kept (s : State) (q : Nat) : (State.flushSeg s q).kept = s.kept := by simp [State.flushSeg, apply_ite State.kept, foldl_kept]
@[simp] theorem flushEgress_kept (s : State) (e : Nat) : (State.flushEgress s e).kept = s.kept := by simp [State.flushEgress, apply_ite State.kept, foldl_kept]
@[simp] theorem putRxBack_kept (s : State) (c : Nat) (r : Nat) (j : Nat) (d : Desc) (back : List Byte) (data : List Byte) : (State.putRxBack s c r j d back data).kept = s.kept := by simp [State.putRxBack, apply_ite State.kept]
@[simp] theorem fillRx_kept (c r : Nat) (f : Frm) (len mark : Nat) (ds : List Desc) (j : Nat) (sop : Bool) (b : List Byte) (s : State) :
    (State.fillRx c r f len mark ds j sop b s).kept = s.kept := by
  induction ds generalizing j sop b s with
  | nil => rfl
  | cons d t ih =>
    unfold State.fillRx
    dsimp only
    split <;> rw [ih, putRxBack_kept]
@[simp] theorem rejectRx_kept (s : State) (c : Nat) (r : Nat) (k : Nat) : (State.rejectRx s c r k).kept = s.kept := by simp [State.rejectRx, apply_ite State.kept]
@[simp] theorem writeRx_kept (s : State) (c : Nat) (r : Nat) (k : Nat) (f : Frm) (full : List Byte) (b : List Byte) (trunc : Bool) : (State.writeRx s c r k f full b trunc).kept = s.kept := by simp [State.writeRx, apply_ite State.kept]
@[simp] theorem serveRing_kept (f : Nat) (s : State) (c r : Nat) : (State.serveRing f s c r).kept = s.kept := by
  induction f generalizing s with
  | zero => rfl
  | succ f ih =>
    unfold State.serveRing
    dsimp only
    repeat' first
      | (simp [apply_ite State.kept, foldl_kept, ih]; done)
      | split
@[simp] theorem serveAll_kept (s : State) (c : Nat) (r : Nat) : (State.serveAll s c r).kept = s.kept := by simp [State.serveAll, apply_ite State.kept]
@[simp] theorem toHost_kept (s : State) (e : Nat) (x : Copy) (f : Frm) : (State.toHost s e x f).kept = s.kept := by
  unfold State.toHost
  dsimp only
  repeat' first
    | (simp [apply_ite State.kept, foldl_kept]; done)
    | split
@[simp] theorem finish_kept (s : State) (k : Nat) (x : Copy) (ts : Nat) (out : Option Nat) : (State.finish s k x ts out).kept = s.kept := by
  unfold State.finish
  repeat' first
    | (simp [apply_ite State.kept, foldl_kept]; done)
    | split
@[simp] theorem startBeats_kept (s : State) (e : Nat) (c : Staged) : (State.startBeats s e c).kept = s.kept := by
  unfold State.startBeats
  repeat' first
    | (simp [apply_ite State.kept, foldl_kept]; done)
    | split
@[simp] theorem setGate_kept (s : State) (p : Nat) (g : Option (Nat × Byte)) : (State.setGate s p g).kept = s.kept := by simp [State.setGate, apply_ite State.kept]
@[simp] theorem setConn_kept (s : State) (e : Nat) (c : Option (Nat × Nat)) : (State.setConn s e c).kept = s.kept := by simp [State.setConn, apply_ite State.kept]
@[simp] theorem sendMsg_kept (s : State) (p : Nat) (ty : Nat) (ws : List Nat) : (State.sendMsg s p ty ws).kept = s.kept := by simp [State.sendMsg, apply_ite State.kept]
@[simp] theorem setDeficit_kept (s : State) (q : Nat) (v : Int) : (State.setDeficit s q v).kept = s.kept := by simp [State.setDeficit, apply_ite State.kept]
@[simp] theorem nextTurn_kept (s : State) (e : Nat) (c : Nat) : (State.nextTurn s e c).kept = s.kept := by simp [State.nextTurn, apply_ite State.kept]
@[simp] theorem drr_kept (ready : Nat → Bool) (f : Nat) (s : State) (e : Nat) : (State.drr ready f s e).1.kept = s.kept := by
  induction f generalizing s with
  | zero => rfl
  | succ f ih =>
    unfold State.drr
    dsimp only
    repeat' first
      | (simp [apply_ite State.kept, foldl_kept, ih]; done)
      | split
@[simp] theorem pickClass_kept (s : State) (e : Nat) (ready : Nat → Bool) : (State.pickClass s e ready).1.kept = s.kept := by
  unfold State.pickClass
  repeat' first
    | (simp [apply_ite State.kept, foldl_kept]; done)
    | split
@[simp] theorem grantOf_kept (s : State) (m : Match) (e : Nat) : (s.grantOf m e).1.kept = s.kept := by
  have h := pickClass_kept s e (s.headReady e)
  unfold State.grantOf
  split
  · rfl
  · split
    · rfl
    · split <;> (rename_i hx; rw [hx] at h; exact h)
@[simp] theorem iterate_kept (s : State) (m : Match) (first : Bool) : (s.iterate m first).1.kept = s.kept := by
  unfold State.iterate
  dsimp only
  rw [foldl_fst_kept, foldl_fst_kept]
  · intro t e
    have h := grantOf_kept t.1 m e
    split <;> (rename_i hx; rw [hx] at h; exact h)
  · intro t i
    split
    · rfl
    · split
      · rfl
      · split <;> simp
theorem select_kept (s : State) (k : Nat) (x : Copy) (rest : List Copy) (t : State) (h : (State.select s k x rest) = some t) : t.kept = s.kept := by
  unfold State.select at h
  (try dsimp only at h)
  repeat' first
    | (simp at h; done)
    | (cases h; simp [apply_ite State.kept, foldl_kept]; done)
    | split at h
@[simp] theorem moveCell_kept (s : State) (k : Nat) : (s.moveCell k).kept = s.kept := by
  unfold State.moveCell
  split
  · rfl
  · rename_i x rest hx
    dsimp only
    split
    · simp
    · rename_i t ht
      have h : t.kept = s.kept := by
        split at ht
        · exact select_kept _ _ _ _ _ ht
        · cases ht; rfl
      split
      · exact h
      · rw [← h]
        repeat' first
          | (simp; done)
          | split
@[simp] theorem ptpDecide_kept (s : State) (p : Nat) : (State.ptpDecide s p).kept = s.kept := by simp [State.ptpDecide, apply_ite State.kept]
@[simp] theorem ptpDecideAll_kept (s : State) : (State.ptpDecideAll s).kept = s.kept := by simp [State.ptpDecideAll, apply_ite State.kept, foldl_kept]
@[simp] theorem ptpSend_kept (s : State) (p : Nat) (job : PtpJob) (m : PtpOut) : (State.ptpSend s p job m).kept = s.kept := by simp [State.ptpSend, apply_ite State.kept]
@[simp] theorem takeSeq_kept (s : State) (p : Nat) (kind : PtpKind) (d : Nat) : (State.takeSeq s p kind d).kept = s.kept := by simp [State.takeSeq, apply_ite State.kept]
@[simp] theorem ptpSync_kept (s : State) (p : Nat) (d : Nat) (t1 : Int) (stamp : Nat) : (State.ptpSync s p d t1 stamp).kept = s.kept := by simp [State.ptpSync, apply_ite State.kept]
@[simp] theorem ptpAnnounce_kept (s : State) (p : Nat) (m : PtpMsg) : (State.ptpAnnounce s p m).kept = s.kept := by simp [State.ptpAnnounce, apply_ite State.kept, foldl_kept]
@[simp] theorem delayAnswer_kept (s : State) (p : Nat) (d : Nat) (m : PtpMsg) : (State.delayAnswer s p d m).kept = s.kept := by simp [State.delayAnswer, apply_ite State.kept]
@[simp] theorem pdelayAnswer_kept (s : State) (p : Nat) (d : Nat) (m : PtpMsg) : (State.pdelayAnswer s p d m).kept = s.kept := by simp [State.pdelayAnswer, apply_ite State.kept]
@[simp] theorem pdelayDone_kept (s : State) (p : Nat) (t1 : Nat) (t4 : Nat) (turn : Int) (t3 : Option Int) : (State.pdelayDone s p t1 t4 turn t3).kept = s.kept := by simp [State.pdelayDone, apply_ite State.kept]
@[simp] theorem ptpTake_kept (s : State) (p : Nat) (m : PtpMsg) : (State.ptpTake s p m).kept = s.kept := by
  unfold State.ptpTake
  dsimp only
  repeat' first
    | (simp [apply_ite State.kept, foldl_kept]; done)
    | split
@[simp] theorem sendSync_kept (s : State) (p : Nat) (d : Nat) : (State.sendSync s p d).kept = s.kept := by simp [State.sendSync, apply_ite State.kept]
@[simp] theorem sendFollowUp_kept (s : State) (p : Nat) (d : Nat) : (State.sendFollowUp s p d).kept = s.kept := by
  unfold State.sendFollowUp
  dsimp only
  repeat' first
    | (simp [apply_ite State.kept, foldl_kept]; done)
    | split
@[simp] theorem sendDelayReq_kept (s : State) (p : Nat) (d : Nat) : (State.sendDelayReq s p d).kept = s.kept := by simp [State.sendDelayReq, apply_ite State.kept]
@[simp] theorem sendPdelayReq_kept (s : State) (p : Nat) (d : Nat) : (State.sendPdelayReq s p d).kept = s.kept := by simp [State.sendPdelayReq, apply_ite State.kept]
@[simp] theorem sendPdelayFollowUp_kept (s : State) (p : Nat) (d : Nat) : (State.sendPdelayFollowUp s p d).kept = s.kept := by
  unfold State.sendPdelayFollowUp
  repeat' first
    | (simp [apply_ite State.kept, foldl_kept]; done)
    | split
@[simp] theorem countT_kept (s : State) (a : Nat) : (State.countT s a).kept = s.kept := by simp [State.countT, apply_ite State.kept]
@[simp] theorem setWay_kept (s : State) (i : Nat) (e : Option FdbEnt) : (State.setWay s i e).kept = s.kept := by simp [State.setWay, apply_ite State.kept]
@[simp] theorem scanTick_kept (s : State) : (State.scanTick s).kept = s.kept := by simp [State.scanTick, apply_ite State.kept]
@[simp] theorem destSet_kept (s : State) (p : Nat) (v : VlanEntry) (b : List Byte) : (State.destSet s p v b).1.kept = s.kept := by
  unfold State.destSet
  dsimp only
  repeat' first
    | (simp [apply_ite State.kept, foldl_kept]; done)
    | split
@[simp] theorem lookup_kept (s : State) (p : Nat) (sofCls : Nat) (hint : Nat) (cls : Option Nat) (b : List Byte) : (State.lookup s p sofCls hint cls b).1.kept = s.kept := by
  unfold State.lookup
  dsimp only
  repeat' first
    | (simp [apply_ite State.kept, foldl_kept]; done)
    | split
@[simp] theorem queueLearn_kept (s : State) (c : Nat) (r : LearnRec) : (State.queueLearn s c r).kept = s.kept := by simp [State.queueLearn, apply_ite State.kept]
@[simp] theorem learnRecord_kept (s : State) (r : LearnRec) : (State.learnRecord s r).kept = s.kept := by
  unfold State.learnRecord
  dsimp only
  repeat' first
    | (simp [apply_ite State.kept, foldl_kept]; done)
    | split
@[simp] theorem learn_kept (s : State) (p : Nat) (b : List Byte) : (State.learn s p b).kept = s.kept := by
  unfold State.learn
  dsimp only
  repeat' first
    | (simp [apply_ite State.kept, foldl_kept]; done)
    | split
@[simp] theorem removeWay_kept (s : State) (i : Nat) : (State.removeWay s i).kept = s.kept := by
  unfold State.removeWay
  repeat' first
    | (simp [apply_ite State.kept, foldl_kept]; done)
    | split
@[simp] theorem nextEpoch_kept (s : State) : (State.nextEpoch s).kept = s.kept := by simp [State.nextEpoch, apply_ite State.kept]
@[simp] theorem fdbInsert_kept (s : State) (o : FdbOp) : (State.fdbInsert s o).2.2.kept = s.kept := by
  unfold State.fdbInsert
  dsimp only
  repeat' first
    | (simp [apply_ite State.kept, foldl_kept]; done)
    | split
theorem fdbDelete_kept (s : State) (fid mac : Nat) (t : State) (h : s.fdbDelete fid mac = some t) : t.kept = s.kept := by
  obtain ⟨x, _, rfl⟩ := Option.map_eq_some_iff.mp h
  simp
@[simp] theorem flushWay_kept (s : State) (i : Nat) (e : FdbEnt) (ports : Word) : (s.flushWay i e ports).1.kept = s.kept := by
  unfold State.flushWay
  dsimp only
  repeat' first
    | (simp; done)
    | split
@[simp] theorem fdbFlush_kept (s : State) (ports : Word) (static : Bool) (fid : Nat) : (s.fdbFlush ports static fid).1.kept = s.kept := by
  unfold State.fdbFlush
  rw [foldl_fst_kept]
  intro t b
  repeat' first
    | (simp; done)
    | split
@[simp] theorem rehashWalk_kept (s : State) : s.rehashWalk.kept = s.kept := by
  unfold State.rehashWalk
  rw [foldl_kept]
  intro t b
  dsimp only
  repeat' first
    | (simp; done)
    | split
@[simp] theorem unbind_kept (s : State) (c : Nat) : (State.unbind s c).kept = s.kept := by
  unfold State.unbind
  repeat' first
    | (simp [apply_ite State.kept, foldl_kept]; done)
    | split
@[simp] theorem setStreamP_kept (s : State) (n : Nat) (e : StreamEntry) : (State.setStreamP s n e).kept = s.kept := by simp [State.setStreamP, apply_ite State.kept]
@[simp] theorem restoreStreams_kept (s : State) : s.restoreStreams.kept = s.kept := by
  unfold State.restoreStreams
  split <;> rfl
@[simp] theorem setProtState_kept (s : State) (q : Nat) (n : Nat) : (State.setProtState s q n).kept = s.kept := by simp [State.setProtState, apply_ite State.kept]
@[simp] theorem protFlip_kept (s : State) (q : Nat) : (State.protFlip s q).kept = s.kept := by simp [State.protFlip, apply_ite State.kept, foldl_kept]
@[simp] theorem protJudge_kept (s : State) (q : Nat) : (State.protJudge s q).kept = s.kept := by simp [State.protJudge, apply_ite State.kept]
@[simp] theorem agedRecords_kept (s : State) (e : FdbEnt) : (s.agedRecords e).kept = s.kept := by
  unfold State.agedRecords
  dsimp only
  split
  · rw [foldl_kept]
    intro t c
    split <;> simp
  · split <;> simp
@[simp] theorem ageVisit_kept (s : State) (i : Nat) : (State.ageVisit s i).kept = s.kept := by
  unfold State.ageVisit
  repeat' first
    | (simp [apply_ite State.kept, foldl_kept]; done)
    | split
@[simp] theorem writeShadow_kept (s : State) (v : Word) : (State.writeShadow s v).kept = s.kept := by simp [State.writeShadow, apply_ite State.kept]
@[simp] theorem mmLog_kept (s : State) (table : Nat) (index : Nat) (bad : Bool) (live : Nat) (shadow : Nat) : (State.mmLog s table index bad live shadow).kept = s.kept := by simp [State.mmLog, apply_ite State.kept]
@[simp] theorem compareUnit_kept (s : State) : (State.compareUnit s).kept = s.kept := by simp [State.compareUnit, apply_ite State.kept, foldl_kept]
@[simp] theorem onOslot_kept (s : State) (n : Nat) (f : OutSt → OutSt) : (State.onOslot s n f).kept = s.kept := by simp [State.onOslot, apply_ite State.kept]
@[simp] theorem onIslot_kept (s : State) (bank : Nat) (n : Nat) (f : InSt → InSt) : (State.onIslot s bank n f).kept = s.kept := by simp [State.onIslot, apply_ite State.kept]
@[simp] theorem restoreCycle_kept (s : State) : (State.restoreCycle s).kept = s.kept := by simp [State.restoreCycle, apply_ite State.kept]
@[simp] theorem setEngine_kept (s : State) (n : Nat) : (State.setEngine s n).kept = s.kept := by simp [State.setEngine, apply_ite State.kept]
@[simp] theorem cancelCommit_kept (s : State) (why : Nat) : (State.cancelCommit s why).kept = s.kept := by
  unfold State.cancelCommit
  repeat' first
    | (simp [apply_ite State.kept, foldl_kept]; done)
    | split
@[simp] theorem genLost_kept (s : State) (g : Nat) (host : Bool) : (State.genLost s g host).kept = s.kept := by simp [State.genLost, apply_ite State.kept]
@[simp] theorem cycleEpoch_kept (s : State) : (State.cycleEpoch s).kept = s.kept := by simp [State.cycleEpoch, apply_ite State.kept]
@[simp] theorem iuDisarm_kept (s : State) (u : Nat) : (State.iuDisarm s u).kept = s.kept := by simp [State.iuDisarm, apply_ite State.kept]
@[simp] theorem iuArm_kept (s : State) (u : Nat) : (State.iuArm s u).kept = s.kept := by simp [State.iuArm, apply_ite State.kept]
@[simp] theorem iuQueue_kept (s : State) (u : Nat) (ovf : Bool) (exp : Bool) (start : Nat × Nat × Nat) (stop : Option (Nat × Nat)) : (State.iuQueue s u ovf exp start stop).kept = s.kept := by simp [State.iuQueue, apply_ite State.kept]
@[simp] theorem wr64_kept (s : State) (lo : Nat) (hi : Nat) (v : Nat) : (State.wr64 s lo hi v).kept = s.kept := by simp [State.wr64, apply_ite State.kept]
@[simp] theorem tgShow_kept (s : State) (g : Nat) : (State.tgShow s g).kept = s.kept := by simp [State.tgShow, apply_ite State.kept]
@[simp] theorem tgDisarm_kept (s : State) (g : Nat) (host : Bool) : (State.tgDisarm s g host).kept = s.kept := by simp [State.tgDisarm, apply_ite State.kept]
@[simp] theorem tgTest_kept (s : State) (g : Nat) : (s.tgTest g).1.kept = s.kept := by
  simp only [State.tgTest, apply_ite Prod.fst, apply_ite State.kept]
  generalize hd : dueIn (s.tgRaw g / 256) s.now = d
  simp
@[simp] theorem tgStart_kept (s : State) (g : Nat) : (State.tgStart s g).1.kept = s.kept := by simp [State.tgStart, apply_ite State.kept]
@[simp] theorem tgLoad_kept (s : State) (g : Nat) (net : Bool) (dest : Nat) (target : Nat) (fine : Nat) (period : Nat) (count : Nat) (width : Nat) : (State.tgLoad s g net dest target fine period count width).kept = s.kept := by simp [State.tgLoad, apply_ite State.kept]
@[simp] theorem writeTgCtrl_kept (s : State) (g : Nat) (v : Word) : (State.writeTgCtrl s g v).kept = s.kept := by simp [State.writeTgCtrl, apply_ite State.kept]
@[simp] theorem writeGen_kept (s : State) (g : Nat) (a : Nat) (v : Word) : (State.writeGen s g a v).kept = s.kept := by simp [State.writeGen, apply_ite State.kept]
@[simp] theorem armByGen_kept (s : State) (g : Nat) : (State.armByGen s g).kept = s.kept := by simp [State.armByGen, apply_ite State.kept, foldl_kept]
@[simp] theorem tgDone_kept (s : State) (g : Nat) : (State.tgDone s g).kept = s.kept := by simp [State.tgDone, apply_ite State.kept]
@[simp] theorem tgFire_kept (s : State) (g : Nat) : (State.tgFire s g).kept = s.kept := by
  unfold State.tgFire
  repeat' first
    | (simp [apply_ite State.kept, foldl_kept]; done)
    | split
@[simp] theorem disarmAll_kept (s : State) : (State.disarmAll s).kept = s.kept := by simp [State.disarmAll, apply_ite State.kept, foldl_kept]
@[simp] theorem reconvert_kept (s : State) : (State.reconvert s).kept = s.kept := by simp [State.reconvert, apply_ite State.kept, foldl_kept]
@[simp] theorem loadPeriod_kept (s : State) (g : Nat) (per : Nat) (next : Int) : (State.loadPeriod s g per next).kept = s.kept := by simp [State.loadPeriod, apply_ite State.kept]
@[simp] theorem freePin_kept (s : State) (n : Nat) : (State.freePin s n).kept = s.kept := by simp [State.freePin, apply_ite State.kept]
@[simp] theorem freePins_kept (s : State) (funcs : List Nat) (index : Nat) : (s.freePins funcs index).kept = s.kept := by
  unfold State.freePins
  rw [foldl_kept]
  intro t f
  split <;> simp
@[simp] theorem freeResource_kept (s : State) (kind : Nat) (i : Nat) : (State.freeResource s kind i).kept = s.kept := by simp [State.freeResource, apply_ite State.kept]
@[simp] theorem writeBridle_kept (s : State) (n : Nat) (v : Word) : (State.writeBridle s n v).kept = s.kept := by simp [State.writeBridle, apply_ite State.kept]
@[simp] theorem abortUpdate_kept (s : State) : (State.abortUpdate s).kept = s.kept := by
  unfold State.abortUpdate
  repeat' first
    | (simp [apply_ite State.kept, foldl_kept]; done)
    | split
@[simp] theorem discardStaged_kept (s : State) (r : Nat) : (State.discardStaged s r).kept = s.kept := by simp [State.discardStaged, apply_ite State.kept]
@[simp] theorem loseRein_kept (s : State) (r : Nat) : (State.loseRein s r).kept = s.kept := by
  unfold State.loseRein
  repeat' first
    | (simp [apply_ite State.kept, foldl_kept]; done)
    | split
@[simp] theorem breakReins_kept (s : State) (c : Nat) : (State.breakReins s c).kept = s.kept := by simp [State.breakReins, apply_ite State.kept, foldl_kept]
@[simp] theorem resetRings_kept (s : State) (c : Nat) : (s.resetRings c).kept = s.kept := by
  unfold State.resetRings
  dsimp only [List.foldl]
  simp only [with_regs_kept, onCx_kept]
  have h : ∀ (u : State) (k : Nat) (l : List Copy), (l.foldl (fun v x => match v.sw.frame x.id with
      | some f => v.dropCopy (8 * hostPort c + f.cls) x
      | none => v) (u.setRing k [])).kept = u.kept := by
    intro u k l
    rw [foldl_kept]
    · simp
    · intro t b
      split <;> simp
  exact (h _ _ _).trans (h _ _ _)
@[simp] theorem ctxReset_kept (s : State) (c : Nat) (rings : Bool) : (State.ctxReset s c rings).kept = s.kept := by simp [State.ctxReset, apply_ite State.kept, foldl_kept]
@[simp] theorem doorbell_kept (s : State) (c : Nat) (v : Word) : (State.doorbell s c v).kept = s.kept := by simp [State.doorbell, apply_ite State.kept]
@[simp] theorem cqHead_kept (s : State) (c : Nat) (v : Word) : (State.cqHead s c v).kept = s.kept := by simp [State.cqHead, apply_ite State.kept]
@[simp] theorem cause_kept (s : State) (n : Nat) : (State.cause s n).kept = s.kept := by simp [State.cause, apply_ite State.kept]
@[simp] theorem fwRestart_kept (s : State) (cause : Nat) : (State.fwRestart s cause).kept = s.kept := by simp [State.fwRestart, apply_ite State.kept, foldl_kept]
@[simp] theorem epochReset_kept (s : State) : (State.epochReset s).kept = s.kept := by
  unfold State.epochReset
  dsimp only
  repeat' first
    | (simp [apply_ite State.kept, foldl_kept]; done)
    | split
@[simp] theorem handTo_kept (s : State) (b : Bool) : (State.handTo s b).kept = s.kept := by simp [State.handTo, apply_ite State.kept]
@[simp] theorem storeErase_kept (s : State) (sec : Nat) : (State.storeErase s sec).kept = s.kept := by simp [State.storeErase, apply_ite State.kept]
@[simp] theorem portErr_kept (s : State) (p : Nat) (a : Nat) (i : Nat) : (State.portErr s p a i).kept = s.kept := by simp [State.portErr, apply_ite State.kept]
@[simp] theorem setLine_kept (s : State) (p : Nat) (n : Nat) : (State.setLine s p n).kept = s.kept := by simp [State.setLine, apply_ite State.kept]
@[simp] theorem lineErr_kept (s : State) (a : Nat) (p : Nat) : (State.lineErr s a p).kept = s.kept := by simp [State.lineErr, apply_ite State.kept]
@[simp] theorem resetBound_kept (s : State) (p : Nat) : (State.resetBound s p).kept = s.kept := by simp [State.resetBound, apply_ite State.kept]
@[simp] theorem applyF_kept (s : State) (p : Nat) : (State.applyF s p).kept = s.kept := by simp [State.applyF, apply_ite State.kept, foldl_kept]
@[simp] theorem writeF_kept (s : State) (p : Nat) (a : Nat) (v : Word) : (State.writeF s p a v).kept = s.kept := by simp [State.writeF, apply_ite State.kept]
@[simp] theorem leaveUp_kept (s : State) (p : Nat) : (State.leaveUp s p).kept = s.kept := by simp [State.leaveUp, apply_ite State.kept]
@[simp] theorem enterUp_kept (s : State) (p : Nat) : (State.enterUp s p).kept = s.kept := by simp [State.enterUp, apply_ite State.kept]
@[simp] theorem tryAcquire_kept (s : State) (p : Nat) : (State.tryAcquire s p).kept = s.kept := by simp [State.tryAcquire, apply_ite State.kept]
@[simp] theorem toLos_kept (s : State) (p : Nat) : (State.toLos s p).kept = s.kept := by simp [State.toLos, apply_ite State.kept]
@[simp] theorem restart_kept (s : State) (p : Nat) : (State.restart s p).kept = s.kept := by simp [State.restart, apply_ite State.kept]
@[simp] theorem synRestart_kept (s : State) (g : Nat) (fam : Nat) : (State.synRestart s g fam).kept = s.kept := by simp [State.synRestart, apply_ite State.kept, foldl_kept]
@[simp] theorem freeLaser_kept (s : State) (p : Nat) : (State.freeLaser s p).kept = s.kept := by simp [State.freeLaser, apply_ite State.kept]
@[simp] theorem bringUp_kept (s : State) (p : Nat) : (s.bringUp p).kept = s.kept := by
  simp [State.bringUp, apply_ite State.kept]
@[simp] theorem writePhyCtrl_kept (s : State) (p : Nat) (v : Word) : (State.writePhyCtrl s p v).kept = s.kept := by simp [State.writePhyCtrl, apply_ite State.kept]
@[simp] theorem loadBoard_kept (s : State) (p : Nat) (fam : Nat) : (State.loadBoard s p fam).kept = s.kept := by simp [State.loadBoard, apply_ite State.kept]
@[simp] theorem portCommit_kept (s : State) (p : Nat) : (State.portCommit s p).kept = s.kept := by simp [State.portCommit, apply_ite State.kept]
@[simp] theorem sendHalter_kept (s : State) (p : Nat) (ask : Bool) : (State.sendHalter s p ask).kept = s.kept := by simp [State.sendHalter, apply_ite State.kept]
@[simp] theorem setMm_kept (s : State) (p : Nat) (i : Nat) (v : Bool) : (State.setMm s p i v).kept = s.kept := by simp [State.setMm, apply_ite State.kept]
@[simp] theorem takeHalter_kept (s : State) (p : Nat) (ws : List Nat) : (State.takeHalter s p ws).kept = s.kept := by simp [State.takeHalter, apply_ite State.kept, foldl_kept]
@[simp] theorem haltersDue_kept (s : State) (ask : Bool) : (State.haltersDue s ask).kept = s.kept := by simp [State.haltersDue, apply_ite State.kept, foldl_kept]
@[simp] theorem setFill_kept (s : State) (p : Nat) (fill : Nat) : (State.setFill s p fill).kept = s.kept := by simp [State.setFill, apply_ite State.kept]
@[simp] theorem strayData_kept (s : State) (p : Nat) : (State.strayData s p).kept = s.kept := by simp [State.strayData, apply_ite State.kept]
@[simp] theorem judgeBeat_kept (s : State) (p : Nat) (b : Beat) (place : Place) : (State.judgeBeat s p b place).kept = s.kept := by simp [State.judgeBeat, apply_ite State.kept]
@[simp] theorem loadDelays_kept (s : State) (p : Nat) : (State.loadDelays s p).kept = s.kept := by simp [State.loadDelays, apply_ite State.kept]
@[simp] theorem moveDelays_kept (s : State) : (State.moveDelays s).kept = s.kept := by simp [State.moveDelays, apply_ite State.kept, foldl_kept]
@[simp] theorem applyMode_kept (s : State) (p : Nat) (m : PortMode) : (State.applyMode s p m).kept = s.kept := by simp [State.applyMode, apply_ite State.kept]
@[simp] theorem senseOptics_kept (s : State) (opt : List (Nat × Nat × Nat)) : (s.senseOptics opt).kept = s.kept := by
  unfold State.senseOptics
  rw [foldl_kept]
  intro t p
  dsimp only
  repeat' first
    | (simp; done)
    | split
@[simp] theorem countBad_kept (s : State) (p : Nat) (v : Verdict) : (State.countBad s p v).kept = s.kept := by
  unfold State.countBad
  repeat' first
    | (simp [apply_ite State.kept, foldl_kept]; done)
    | split
@[simp] theorem lineBusy_kept (s : State) (e : Nat) (n : Nat) : (State.lineBusy s e n).kept = s.kept := by simp [State.lineBusy, apply_ite State.kept]
@[simp] theorem endBad_kept (s : State) (e : Nat) (b : List Byte) (reason : Nat) (ts : Nat) (cls : Nat) (hint : Nat) : (State.endBad s e b reason ts cls hint).kept = s.kept := by simp [State.endBad, apply_ite State.kept]
@[simp] theorem passed_kept (s : State) (e : Nat) : (State.passed s e).kept = s.kept := by simp [State.passed, apply_ite State.kept]
@[simp] theorem cutCopy_kept (s : State) (p : Nat) (e : Nat) (f : Frm) (x : RxFrame) (v : Verdict) (long_ : Bool) (untag : Bool) : (State.cutCopy s p e f x v long_ untag).kept = s.kept := by simp [State.cutCopy, apply_ite State.kept]
@[simp] theorem refuseOnly_kept (s : State) (f : Frm) (dests : List Nat) (multi : Bool) : (s.refuseOnly f dests multi).kept = s.kept := by
  unfold State.refuseOnly
  rw [foldl_kept]
  intro t e
  dsimp only
  split <;> simp
@[simp] theorem bestEffort_kept (s : State) (p : Nat) (v : Verdict) (r : Res) (f : Frm) (x : RxFrame) : (State.bestEffort s p v r f x).kept = s.kept := by
  unfold State.bestEffort
  repeat' first
    | (simp [apply_ite State.kept, foldl_kept]; done)
    | split
@[simp] theorem preempt_kept (s : State) (e : Nat) (n : Nat) : (State.preempt s e n).kept = s.kept := by
  unfold State.preempt
  repeat' first
    | (simp [apply_ite State.kept, foldl_kept]; done)
    | split
@[simp] theorem sendC7_kept (s : State) (e : Nat) (b : List Byte) (ts : Nat) (hint : Nat) : (State.sendC7 s e b ts hint).kept = s.kept := by simp [State.sendC7, apply_ite State.kept]
@[simp] theorem directC7_kept (s : State) (p : Nat) (e : Nat) (f : Frm) (x : RxFrame) (v : Verdict) (long_ : Bool) (started : Bool) : (State.directC7 s p e f x v long_ started).kept = s.kept := by simp [State.directC7, apply_ite State.kept]
@[simp] theorem scheduled_kept (s : State) (p : Nat) (v : Verdict) (r : Res) (f : Frm) (x : RxFrame) : (State.scheduled s p v r f x).kept = s.kept := by
  unfold State.scheduled
  repeat' first
    | (simp [apply_ite State.kept, foldl_kept]; done)
    | split
@[simp] theorem sampleRx_kept (s : State) (p : Nat) (cls : Nat) (v : Verdict) (x : RxFrame) : (State.sampleRx s p cls v x).kept = s.kept := by
  unfold State.sampleRx
  dsimp only
  repeat' first
    | (simp [apply_ite State.kept, foldl_kept]; done)
    | split
@[simp] theorem lostResume_kept (s : State) (p : Nat) (x : RxFrame) : (State.lostResume s p x).kept = s.kept := by
  unfold State.lostResume
  repeat' first
    | (simp; done)
    | dsimp only
    | split
@[simp] theorem rxDone_kept (s : State) (p : Nat) : (State.rxDone s p).kept = s.kept := by simp [State.rxDone, apply_ite State.kept]
@[simp] theorem hostPtp_kept (s : State) (p : Nat) (x : RxFrame) : (s.hostPtp p x).kept = s.kept := by
  unfold State.hostPtp
  repeat' first
    | (simp [apply_ite State.kept, foldl_kept]; done)
    | split
@[simp] theorem carrierEnd_kept (s : State) (p : Nat) : (State.carrierEnd s p).kept = s.kept := by simp [State.carrierEnd, apply_ite State.kept]
@[simp] theorem receiveFrame_kept (s : State) (p : Nat) (y : RxFrame) : (s.receiveFrame p y).kept = s.kept := by
  unfold State.receiveFrame
  extract_lets native x t1 t2 hint sof mx n v b t3 t4 mine seen l cls t5 t6 t7 t8
  have h1 : t1.kept = s.kept := by simp [t1, apply_ite State.kept]
  have h2 : t2.kept = s.kept := by simp [t2, h1, apply_ite State.kept]
  have h4 : t4.kept = s.kept := by simp [t4, t3, h2, apply_ite State.kept]
  have hl : l.1.kept = s.kept := by
    simp only [l]
    split <;> simp [h4]
  have h7 : t7.kept = s.kept := by simp [t7, t6, t5, hl, apply_ite State.kept]
  clear_value t7 l
  have h8 : t8.kept = s.kept := by
    simp only [t8]
    split
    · exact h7
    · repeat' first
        | (simp [h7]; done)
        | split
  rw [rxDone_kept]
  split
  · rw [carrierEnd_kept]; exact h8
  · exact h8
@[simp] theorem txWb_kept (s : State) (c : Nat) (r : Nat) (w : TxWb) : (State.txWb s c r w).kept = s.kept := by simp [State.txWb, apply_ite State.kept]
@[simp] theorem txEnter_kept (s : State) (c r h : Nat) (ds : List Desc) : (s.txEnter c r h ds).1.kept = s.kept := by
  unfold State.txEnter
  split
  · rfl
  · dsimp only
    split
    · simp
    · split
      · simp
      · split <;> simp [apply_ite State.kept]
@[simp] theorem serveTx_kept (f : Nat) (s : State) (c r : Nat) : (State.serveTx f s c r).kept = s.kept := by
  induction f generalizing s with
  | zero => rfl
  | succ f ih =>
    unfold State.serveTx
    dsimp only
    repeat' first
      | (simp [apply_ite State.kept, foldl_kept, ih]; done)
      | split
@[simp] theorem serveTxAll_kept (s : State) (c : Nat) (r : Nat) : (State.serveTxAll s c r).kept = s.kept := by simp [State.serveTxAll, apply_ite State.kept]
@[simp] theorem ringTail_kept (s : State) (c r : Nat) (v : Word) (posted : List Desc) : (s.ringTail c r v posted).kept = s.kept := by
  unfold State.ringTail
  extract_lets n k got t1 t2
  have h : t2.kept = s.kept := rfl
  clear_value t2
  split <;> simp [h]
@[simp] theorem ringCtl_kept (s : State) (c : Nat) (r : Nat) (v : Word) : (State.ringCtl s c r v).kept = s.kept := by simp [State.ringCtl, apply_ite State.kept]
@[simp] theorem cellSlot_kept (s : State) : (State.cellSlot s).kept = s.kept := by simp [State.cellSlot, apply_ite State.kept, foldl_kept]
@[simp] theorem markLeft_kept (s : State) (f : Frm) (ts : Nat) : (s.markLeft f ts).kept = s.kept := by
  unfold State.markLeft
  split <;> simp
@[simp] theorem dropStaged_kept (s : State) (c : Staged) : (State.dropStaged s c).kept = s.kept := by simp [State.dropStaged, apply_ite State.kept]
@[simp] theorem startLine_kept (s : State) (e : Nat) (ts : Nat) : (State.startLine s e ts).kept = s.kept := by
  unfold State.startLine
  repeat' first
    | (simp [apply_ite State.kept, foldl_kept]; done)
    | split
theorem sendBuffered_kept (s : State) (e : Nat) (ts : Nat) (t : State) (h : (State.sendBuffered s e ts) = some t) : t.kept = s.kept := by
  unfold State.sendBuffered at h
  (try dsimp only at h)
  repeat' first
    | (simp at h; done)
    | (cases h; simp [apply_ite State.kept, foldl_kept]; done)
    | split at h
@[simp] theorem mSent_kept (s : State) (e : Nat) (ts : Nat) : (State.mSent s e ts).kept = s.kept := by
  unfold State.mSent
  repeat' first
    | (simp [apply_ite State.kept, foldl_kept]; done)
    | split
@[simp] theorem onMtx_kept (s : State) (e : Nat) (f : MTx → MTx) : (State.onMtx s e f).kept = s.kept := by simp [State.onMtx, apply_ite State.kept]
theorem sweepList_kept (drop : State → Copy → List Copy → State) (hd : ∀ t x r, (drop t x r).kept = t.kept) (l : List Copy) (s : State) :
    (sweepList drop l s).kept = s.kept := by
  induction l generalizing s with
  | nil => rfl
  | cons x r ih => simp [sweepList, apply_ite State.kept, ih, hd]
@[simp] theorem popSeg_kept (s : State) (q : Nat) (r : Rec) (rest : List Rec) : (State.popSeg s q r rest).kept = s.kept := by simp [State.popSeg, apply_ite State.kept]
@[simp] theorem flushDram_kept (s : State) : (State.flushDram s).kept = s.kept := by simp [State.flushDram, apply_ite State.kept, foldl_kept]
@[simp] theorem arbCommit_kept (s : State) : (State.arbCommit s).kept = s.kept := by simp [State.arbCommit, apply_ite State.kept]
@[simp] theorem swcCommit_kept (s : State) : (State.swcCommit s).kept = s.kept := by simp [State.swcCommit, apply_ite State.kept, foldl_kept]
@[simp] theorem writeSample_kept (s : State) (p : Nat) (v : Word) : (State.writeSample s p v).kept = s.kept := by simp [State.writeSample, apply_ite State.kept]
@[simp] theorem stageFld_kept (s : State) (a : Nat) (lo : Nat) (len : Nat) (v : Nat) : (State.stageFld s a lo len v).kept = s.kept := by simp [State.stageFld, apply_ite State.kept]
@[simp] theorem batch_kept (s : State) (ops : List FdbOp) : (s.batch ops).1.kept = s.kept := by
  unfold State.batch
  dsimp only
  rw [foldl_fst_kept, foldl_fst_kept]
  · intro t o
    split
    · rfl
    · exact fdbInsert_kept _ _
  · intro t y
    split
    · rfl
    · split
      · rename_i hx; exact fdbDelete_kept _ _ _ _ hx
      · rfl
@[simp] theorem onRef_kept (s : State) (i : Nat) (f : RefSt → RefSt) : (State.onRef s i f).kept = s.kept := by simp [State.onRef, apply_ite State.kept]
@[simp] theorem setDac_kept (s : State) (v : Int) : (State.setDac s v).kept = s.kept := by simp [State.setDac, apply_ite State.kept]
@[simp] theorem setDpll_kept (s : State) (n : Nat) : (State.setDpll s n).kept = s.kept := by simp [State.setDpll, apply_ite State.kept]
@[simp] theorem refreshHold_kept (s : State) : (State.refreshHold s).kept = s.kept := by simp [State.refreshHold, apply_ite State.kept]
@[simp] theorem untrack_kept (s : State) : (State.untrack s).kept = s.kept := by simp [State.untrack, apply_ite State.kept]
@[simp] theorem holdDac_kept (s : State) : (State.holdDac s).kept = s.kept := by simp [State.holdDac, apply_ite State.kept]
@[simp] theorem enterHoldover_kept (s : State) : (State.enterHoldover s).kept = s.kept := by simp [State.enterHoldover, apply_ite State.kept]
@[simp] theorem enterFreerun_kept (s : State) : (State.enterFreerun s).kept = s.kept := by simp [State.enterFreerun, apply_ite State.kept]
@[simp] theorem startTracking_kept (s : State) (i : Nat) (b : Int) (pass : Option Int) : (State.startTracking s i b pass).kept = s.kept := by simp [State.startTracking, apply_ite State.kept]
@[simp] theorem startSwitch_kept (s : State) (i : Nat) : (State.startSwitch s i).kept = s.kept := by simp [State.startSwitch, apply_ite State.kept]
@[simp] theorem applySel_kept (s : State) (changed : Bool) : (State.applySel s changed).kept = s.kept := by
  unfold State.applySel
  repeat' first
    | (simp [apply_ite State.kept, foldl_kept]; done)
    | split
@[simp] theorem disqualify_kept (s : State) (i : Nat) (cause : Nat) : (State.disqualify s i cause).kept = s.kept := by
  unfold State.disqualify
  dsimp only
  repeat' first
    | (simp [apply_ite State.kept, foldl_kept]; done)
    | split
@[simp] theorem refAbsent_kept (s : State) (i : Nat) : (State.refAbsent s i).kept = s.kept := by simp [State.refAbsent, apply_ite State.kept]
@[simp] theorem qualifyRef_kept (s : State) (i : Nat) (m : RefMeas) : (s.qualifyRef i m).kept = s.kept := by
  unfold State.qualifyRef
  extract_lets f1 hit l f64 t1 t2 t3 t4 t5 u n need t6
  have h3 : t3.kept = s.kept := by simp [t3, t2, t1, apply_ite State.kept]
  have h5 : t5.kept = s.kept := by simp [t5, t4, h3, apply_ite State.kept]
  clear_value t5
  simp [u, t6, h5, apply_ite State.kept]
@[simp] theorem disagreeRefs_kept (s : State) : (State.disagreeRefs s).kept = s.kept := by simp [State.disagreeRefs, apply_ite State.kept, foldl_kept]
@[simp] theorem holdSecond_kept (s : State) : (State.holdSecond s).kept = s.kept := by simp [State.holdSecond, apply_ite State.kept]
theorem oven_kept (s : State) (f : State → State) (hf : (f s).kept = s.kept) : (s.oven f).kept = s.kept := by
  simp only [State.oven, apply_ite State.kept, hf, ite_self]
@[simp] theorem bindSlot_kept (s : State) (i : Nat) (port : Nat) : (State.bindSlot s i port).kept = s.kept := by simp [State.bindSlot, apply_ite State.kept]
@[simp] theorem writeClkSel_kept (s : State) (v : Word) : (State.writeClkSel s v).kept = s.kept := by simp [State.writeClkSel, apply_ite State.kept]
@[simp] theorem onPend_kept (s : State) (f : Sched → Sched) : (State.onPend s f).kept = s.kept := by simp [State.onPend, apply_ite State.kept]
@[simp] theorem newSchedule_kept (s : State) (hash per : Word) : (s.newSchedule hash per).kept = s.kept := by
  unfold State.newSchedule
  dsimp only
  split
  · rfl
  · simp only [haltersDue_kept, wr_kept]
    rw [foldl_kept _ _ _ fun t b => onPt_kept t b _]
    rfl
@[simp] theorem bindGen_kept (s : State) (g : Nat) : (State.bindGen s g).kept = s.kept := by
  unfold State.bindGen
  repeat' first
    | (simp [apply_ite State.kept, foldl_kept]; done)
    | split
@[simp] theorem setEn_kept (s : State) (en : Bool) : (State.setEn s en).kept = s.kept := by simp [State.setEn, apply_ite State.kept]
@[simp] theorem applyCommit_kept (s : State) (hash : Word) (k : Option Int) : (State.applyCommit s hash k).kept = s.kept := by
  unfold State.applyCommit
  dsimp only
  repeat' first
    | (simp [apply_ite State.kept, foldl_kept]; done)
    | split
@[simp] theorem swapBanks_kept (s : State) (k : Int) : (State.swapBanks s k).kept = s.kept := by simp [State.swapBanks, apply_ite State.kept]
@[simp] theorem boundary_kept (s : State) (k : Int) : (State.boundary s k).kept = s.kept := by simp [State.boundary, apply_ite State.kept]
@[simp] theorem commitAt_kept (s : State) (k : Int) : (s.commitAt k).kept = s.kept := by
  unfold State.commitAt
  repeat' first
    | (simp; done)
    | split
@[simp] theorem cycleStart_kept (s : State) (k : Int) : (s.cycleStart k).kept = s.kept := by
  unfold State.cycleStart
  extract_lets t1 t2 t3 t4
  have h2 : t2.kept = s.kept := by
    simp only [t2]
    rw [foldl_kept _ _ _ fun u p => by split <;> simp]
    simp [t1]
  simp [t4, t3, h2, apply_ite State.kept]
@[simp] theorem fire_kept (s : State) (g : Nat) : (State.fire s g).kept = s.kept := by simp [State.fire, apply_ite State.kept]
@[simp] theorem captureSlot_kept (s : State) (y : Sched) (slot : Nat) (target : Int) : (State.captureSlot s y slot target).kept = s.kept := by simp [State.captureSlot, apply_ite State.kept]
@[simp] theorem blockCopy_kept (s : State) (slot : Nat) (p : Nat) : (State.blockCopy s slot p).kept = s.kept := by simp [State.blockCopy, apply_ite State.kept]
@[simp] theorem launchOn_kept (s : State) (slot : Nat) (p : Nat) (c : OSlotCfg) (e : StreamEntry) (b : List Byte) (target : Int) (at_ : Int) : (State.launchOn s slot p c e b target at_).kept = s.kept := by simp [State.launchOn, apply_ite State.kept]
@[simp] theorem launchQueued_kept (s : State) (slot : Nat) (e : StreamEntry) (sid : Nat) (ports : List Nat) (multi : Bool) (b : List Byte) (ts : Raw) : (State.launchQueued s slot e sid ports multi b ts).kept = s.kept := by simp [State.launchQueued, apply_ite State.kept, foldl_kept]
@[simp] theorem launchFrom_kept (s : State) (slot : Nat) (x : Capture) (lines : List LineEdge) : (State.launchFrom s slot x lines).kept = s.kept := by simp [State.launchFrom, apply_ite State.kept, foldl_kept]
@[simp] theorem loadRegs_kept (s : State) (c : Cfg) : (State.loadRegs s c).kept = s.kept := by simp [State.loadRegs, apply_ite State.kept, foldl_kept]
@[simp] theorem bootPort_kept (s : State) (c : Cfg) (p : Nat) : (State.bootPort s c p).kept = s.kept := by
  unfold State.bootPort
  dsimp only
  repeat' first
    | (simp [apply_ite State.kept, foldl_kept]; done)
    | split
@[simp] theorem bootCycle_kept (s : State) (c : Cfg) : (State.bootCycle s c).kept = s.kept := by
  unfold State.bootCycle
  repeat' first
    | (simp [apply_ite State.kept]; done)
    | dsimp only
    | split
@[simp] theorem loadConfig_kept (s : State) : s.loadConfig.kept = s.kept := by
  unfold State.loadConfig
  extract_lets c t0 t1 t2 t3 t4 t5 t6 t7 t8 t9 t10
  have h2 : t2.kept = s.kept := loadRegs_kept _ _
  have h3 : t3.kept = s.kept := by
    rw [← h2]
    exact foldl_kept _ _ _ fun u x => by simp
  have h4 : t4.kept = s.kept := by
    rw [← h3]
    exact foldl_kept _ _ _ fun u e => fdbInsert_kept _ _
  have h7 : t7.kept = s.kept := by
    rw [← h4]
    exact foldl_kept _ _ _ fun u x => by simp
  have h8 : t8.kept = s.kept := by
    rw [← h7]
    refine foldl_kept _ _ _ fun u d => ?_
    split <;> simp
  have h9 : t9.kept = s.kept := by
    rw [← h8]
    exact (onMgt_kept _ _).trans (foldl_kept _ _ _ fun u i => by simp)
  exact (foldl_kept _ _ _ fun u p => bootPort_kept u _ p).trans ((bootCycle_kept _ _).trans h9)
@[simp] theorem deliverPacket_kept (s : State) (c : Nat) (bs : List Byte) (exact : Bool) : (State.deliverPacket s c bs exact).kept = s.kept := by simp [State.deliverPacket, apply_ite State.kept]
@[simp] theorem inBand_kept (s : State) (c : Nat) (p : Nat) (f : List Byte) : (State.inBand s c p f).kept = s.kept := by simp [State.inBand, apply_ite State.kept]
@[simp] theorem inBandFrame_kept (s : State) (c : Nat) (m : InBandOut) (packet : List Byte) : (State.inBandFrame s c m packet).kept = s.kept := by simp [State.inBandFrame, apply_ite State.kept]
@[simp] theorem sendOut_kept (s : State) (c : Nat) : (State.sendOut s c).kept = s.kept := by simp [State.sendOut, apply_ite State.kept, foldl_kept]
@[simp] theorem mgtTick_kept (s : State) : (State.mgtTick s).kept = s.kept := by simp [State.mgtTick, apply_ite State.kept]
@[simp] theorem resetPcie_kept (s : State) : (State.resetPcie s).kept = s.kept := by simp [State.resetPcie, apply_ite State.kept, foldl_kept]
@[simp] theorem setUpd_kept (s : State) (n : Nat) (got : Nat) : (State.setUpd s n got).kept = s.kept := by simp [State.setUpd, apply_ite State.kept]
@[simp] theorem setWinners_kept (s : State) : (State.setWinners s).kept = s.kept := by simp [State.setWinners, apply_ite State.kept]
@[simp] theorem finishJob_kept (s : State) (j : StoreJob) : (State.finishJob s j).kept = s.kept := by
  unfold State.finishJob
  repeat' first
    | (simp [apply_ite State.kept, foldl_kept]; done)
    | split
@[simp] theorem loadSaved_kept (s : State) : s.loadSaved.kept = s.kept := by
  unfold State.loadSaved
  dsimp only
  rw [foldl_kept _ _ _ fun t b => onCx_kept t b _]
  rfl
@[simp] theorem badBank_kept (s : State) (sec : Nat) (v0 v1 : Bool) : (s.badBank sec v0 v1).kept = s.kept := by
  simp [State.badBank, apply_ite State.kept]
@[simp] theorem badBanks_kept (s : State) : (State.badBanks s).kept = s.kept := by simp [State.badBanks, apply_ite State.kept]
@[simp] theorem becomeReady_kept (s : State) : (State.becomeReady s).kept = s.kept := by simp [State.becomeReady, apply_ite State.kept]
@[simp] theorem scan_kept (s : State) (ir : Nat) (out : List Nat) : (State.scan s ir out).kept = s.kept := by simp [State.scan, apply_ite State.kept]
@[simp] theorem sense_kept (s : State) (a : Nat) (r : Reading) : (State.sense s a r).kept = s.kept := by
  unfold State.sense
  repeat' first
    | (simp [apply_ite State.kept, foldl_kept]; done)
    | split
@[simp] theorem senseRail_kept (s : State) (i : Nat) (r : Reading) : (State.senseRail s i r).kept = s.kept := by
  unfold State.senseRail
  repeat' first
    | (simp [apply_ite State.kept, foldl_kept]; done)
    | split
@[simp] theorem senseOven_kept (s : State) (r : Reading) : (State.senseOven s r).kept = s.kept := by
  unfold State.senseOven
  repeat' first
    | (simp [apply_ite State.kept, foldl_kept]; done)
    | split
@[simp] theorem calStale_kept (s : State) : (State.calStale s).kept = s.kept := by simp [State.calStale, apply_ite State.kept, foldl_kept]
@[simp] theorem domReset_kept (s : State) (d : Nat) : (State.domReset s d).kept = s.kept := by
  unfold State.domReset
  dsimp only
  repeat' first
    | (simp [apply_ite State.kept, foldl_kept]; done)
    | split
theorem timeMsg_kept (s : State) (p kind : Nat) (ws : List Nat) (f : State → State) (hf : (f s).kept = s.kept) :
    (s.timeMsg p kind ws f).kept = s.kept := by
  unfold State.timeMsg
  repeat' first
    | exact hf
    | (simp; done)
    | split
@[simp] theorem selectUpstream_kept (s : State) (dom : Nat) : (State.selectUpstream s dom).kept = s.kept := by
  unfold State.selectUpstream
  repeat' first
    | (simp [apply_ite State.kept, foldl_kept]; done)
    | split
@[simp] theorem readPair_kept (s : State) (c : Nat) (a : Nat) (v : Nat) : (State.readPair s c a v).1.kept = s.kept := by simp [State.readPair, apply_ite State.kept]
@[simp] theorem popLearn_kept (s : State) (c : Nat) (q : Nat) : (State.popLearn s c q).1.kept = s.kept := by
  unfold State.popLearn
  repeat' first
    | (simp [apply_ite State.kept, foldl_kept]; done)
    | split
@[simp] theorem popResult_kept (s : State) (c : Nat) (u : Nat) : (State.popResult s c u).1.kept = s.kept := by
  unfold State.popResult
  repeat' first
    | (simp [apply_ite State.kept, foldl_kept]; done)
    | split
@[simp] theorem readRow_kept (s : State) (c : Nat) (a : Nat) (r : Row) (i : Nat) (j : Nat) : (State.readRow s c a r i j).1.kept = s.kept := by
  unfold State.readRow
  repeat' first
    | (simp [apply_ite State.kept, foldl_kept]; done)
    | split
@[simp] theorem busRead_kept (s : State) (c : Nat) (a : Nat) : (State.busRead s c a).1.kept = s.kept := by
  unfold State.busRead
  repeat' first
    | (simp [apply_ite State.kept, foldl_kept]; done)
    | split
@[simp] theorem fastTime_kept (s : State) (c : Nat) (off : Nat) : (State.fastTime s c off).1.kept = s.kept := by
  unfold State.fastTime
  repeat' first
    | (simp [apply_ite State.kept, foldl_kept]; done)
    | split
@[simp] theorem userCounters_kept (s : State) (c : Nat) (off : Nat) : (State.userCounters s c off).1.kept = s.kept := by
  unfold State.userCounters
  dsimp only
  repeat' first
    | (simp [apply_ite State.kept, foldl_kept]; done)
    | split
@[simp] theorem bar2Read_kept (s : State) (c : Nat) (off : Nat) : (State.bar2Read s c off).1.kept = s.kept := by
  unfold State.bar2Read
  repeat' first
    | (simp [apply_ite State.kept, foldl_kept]; done)
    | split
@[simp] theorem took_kept (c : Nat) (x : State × Word) : (State.took c x).kept = x.1.kept := rfl
@[simp] theorem access_kept (s : State) (c a : Nat) : (s.access c a).kept = s.kept := by
  unfold State.access
  rw [took_kept]
  split
  · exact busRead_kept s c a
  · exact bar2Read_kept s c _
theorem bothWords_kept (s : State) (lo : Option Word) (a : Nat) (v : Word) (put : State → Nat → Word → State)
    (hp : ∀ t b w, (put t b w).kept = t.kept) : (s.bothWords lo a v put).kept = s.kept := by
  unfold State.bothWords
  split <;> simp [hp]
@[simp] theorem writeIuCtrl_kept (s : State) (u : Nat) (v : Word) : (State.writeIuCtrl s u v).kept = s.kept := by simp [State.writeIuCtrl, apply_ite State.kept]
@[simp] theorem writeLineCtrl_kept (s : State) (p : Nat) (v : Word) : (State.writeLineCtrl s p v).kept = s.kept := by simp [State.writeLineCtrl, apply_ite State.kept]
@[simp] theorem writeCapAdv_kept (s : State) (p : Nat) (v : Word) : (State.writeCapAdv s p v).kept = s.kept := by simp [State.writeCapAdv, apply_ite State.kept]
@[simp] theorem writePmcSel_kept (s : State) (m : Nat) (v : Word) : (State.writePmcSel s m v).kept = s.kept := by simp [State.writePmcSel, apply_ite State.kept]
@[simp] theorem writePmcCnt_kept (s : State) (m : Nat) (lo : Option Word) (v : Word) : (State.writePmcCnt s m lo v).kept = s.kept := by simp [State.writePmcCnt, apply_ite State.kept]
@[simp] theorem writeMask_kept (s : State) (c : Nat) (j : Nat) (v : Word) : (State.writeMask s c j v).kept = s.kept := by simp [State.writeMask, apply_ite State.kept]
@[simp] theorem rearm_kept (s : State) (c : Nat) : (State.rearm s c).kept = s.kept := by simp [State.rearm, apply_ite State.kept]
@[simp] theorem writeRow_kept (s : State) (c a : Nat) (r : Row) (i j : Nat) (lo : Option Word) (v : Word) :
    (s.writeRow c a r i j lo v).kept = s.kept := by
  unfold State.writeRow
  dsimp only
  split <;> first
    | (simp [apply_ite State.kept]; done)
    | (simp only [apply_ite State.kept, bothWords_kept _ _ _ _ _ fun t b w => wr_kept t b _, ite_self]; done)
    | exact bothWords_kept _ _ _ _ _ fun t b w => writeGen_kept t i b w
@[simp] theorem busReads_kept (s : State) (c a n : Nat) : (s.busReads c a n).1.kept = s.kept := by
  induction n generalizing s a with
  | zero => rfl
  | succ n ih => simp only [State.busReads]; rw [ih, busRead_kept]
@[simp] theorem perfN_kept (s : State) (n k : Nat) : (s.perfN n k).kept = s.kept := by
  induction k with
  | zero => rfl
  | succ k ih => rw [State.perfN, perf_kept, ih]
@[simp] theorem mclkTick_kept (s : State) : (State.mclkTick s).kept = s.kept := by simp [State.mclkTick, apply_ite State.kept]
@[simp] theorem perfTick_kept (s : State) : (State.perfTick s).kept = s.kept := by simp [State.perfTick, apply_ite State.kept, foldl_kept]
@[simp] theorem tick_kept (s : State) : s.tick.kept = s.kept := by
  unfold State.tick
  dsimp only
  split
  · simp
  · simp
  · split
    · exact (with_raw_kept s.mclkTick.drawn _).trans (by simp)
    · simp
  · simp

end Sys2Proof.Machine
end

