-- ==== Sys2Proof/Laws/Outcomes.lean ====
section
/-! SUPPORT. What a next state of a command keeps: one lemma a meaning, for every meaning but those that write a role, the
process image or the life of the module, and the register writes. -/

namespace Sys2Proof.Machine

set_option maxRecDepth 4000
set_option linter.unusedSimpArgs false
set_option linter.unusedTactic false
set_option linter.unreachableTactic false

open Host
/-- A next state of the outcome keeps what the invariants read. -/
def OutKept (s : State) (o : Outcome State Fault Refusal) : Prop := ∀ t, o = .next t → t.kept = s.kept

theorem next_keeps {s t : State} (h : t.kept = s.kept) : OutKept s (.next t) := fun u hu => by cases hu; exact h

theorem fault_keeps {s : State} (f : Fault) : OutKept s (.fault f) := fun u hu => by cases hu

theorem onUnit_keeps {s t : State} {n i : Nat} (h : t.kept = s.kept) : OutKept s (onUnit n i t) := by
  unfold onUnit
  split
  · exact next_keeps h
  · exact fault_keeps _

/-- The end of a command keeps what the invariants read of the state it started from. -/
def EndKept (r : State) (e : CmdEnd) : Prop :=
  match e with
  | .refuse _ _ => True
  | .refuseWith _ _ t => t.kept = r.kept
  | .done _ t => t.kept = r.kept
  | .accepted _ _ t => t.kept = r.kept

@[simp] theorem endKept_refuse (r : State) (st : Nat) (ps : List Nat) : EndKept r (.refuse st ps) = True := rfl
@[simp] theorem endKept_refuseWith (r t : State) (st : Nat) (ps : List Nat) : EndKept r (.refuseWith st ps t) = (t.kept = r.kept) := rfl
@[simp] theorem endKept_done (r t : State) (ps : List Nat) : EndKept r (.done ps t) = (t.kept = r.kept) := rfl
@[simp] theorem endKept_accepted (r t : State) (i : Nat) (ps : List Nat) : EndKept r (.accepted i ps t) = (t.kept = r.kept) := rfl
@[simp] theorem staging_keeps (r t : State) (h : t.kept = r.kept) : EndKept r (r.staging t) := by
  unfold State.staging
  split <;> simp [h]
@[simp] theorem commitOr_keeps (r t : State) (b : Nat) (h : t.kept = r.kept) : EndKept r (commitOr b t) := by
  unfold commitOr
  split <;> simp [h]

@[simp] theorem commit_keeps (r : State) (k : Nat) (share : Option Word) (hash : Word) (imm : Bool) : EndKept r (r.commit k share hash imm) := by
  unfold State.commit
  repeat' first
    | (simp; done)
    | dsimp only
    | split

@[simp] theorem bind_keeps (r : State) (c port vid mac : Nat) : EndKept r (r.bind c port vid mac) := by
  unfold State.bind
  repeat' first
    | (simp; done)
    | dsimp only
    | split

@[simp] theorem armSwitch_keeps (r : State) (sec : Option Nat) (force : Bool) : EndKept r (r.armSwitch sec force) := by
  unfold State.armSwitch
  repeat' first
    | (simp; done)
    | dsimp only
    | split

@[simp] theorem armAnew_keeps (r : State) (g : Nat) (net : Bool) (dest target fine period count width : Nat) :
    EndKept r (r.armAnew g net dest target fine period count width) := by
  unfold State.armAnew
  repeat' first
    | (simp; done)
    | dsimp only
    | split

theorem cmd_keeps {s : State} {h : CmdHdr} {op : Nat} {need : State → Need} {body : State → CmdEnd}
    (hb : ∀ r, EndKept r (body r)) : OutKept s (s.cmd h op need body) := by
  unfold State.cmd
  split
  · exact next_keeps (command_kept s h op need body hb)
  · exact fault_keeps _


theorem execLossOfSignal_kept (port : Nat) (s : State) : OutKept s (execLossOfSignal port s) := by
  unfold execLossOfSignal
  refine onUnit_keeps (event_kept _ _ ?_)
  repeat' first
    | (simp [apply_ite State.kept, foldl_kept]; done)
    | split
theorem execSignalDetect_kept (port : Nat) (s : State) : OutKept s (execSignalDetect port s) := by
  unfold execSignalDetect
  refine onUnit_keeps (event_kept _ _ ?_)
  repeat' first
    | (simp [apply_ite State.kept, foldl_kept]; done)
    | split
theorem execReceiverSettled_kept (port : Nat) (s : State) : OutKept s (execReceiverSettled port s) := by
  unfold execReceiverSettled
  refine onUnit_keeps (event_kept _ _ ?_)
  repeat' first
    | (simp [apply_ite State.kept, foldl_kept]; done)
    | split
theorem execReceiverSettleTimeout_kept (port : Nat) (s : State) : OutKept s (execReceiverSettleTimeout port s) := by
  unfold execReceiverSettleTimeout
  refine onUnit_keeps (event_kept _ _ ?_)
  repeat' first
    | (simp [apply_ite State.kept, foldl_kept]; done)
    | split
theorem execMarkReceive_kept (port : Nat) (seq : Nat) (gap : Nat) (s : State) : OutKept s (execMarkReceive port seq gap s) := by
  unfold execMarkReceive
  refine onUnit_keeps (event_kept _ _ ?_)
  repeat' first
    | (simp [apply_ite State.kept, foldl_kept]; done)
    | dsimp only
    | split
theorem execMissedMark_kept (port : Nat) (s : State) : OutKept s (execMissedMark port s) := by
  unfold execMissedMark
  refine onUnit_keeps (event_kept _ _ ?_)
  repeat' first
    | (simp [apply_ite State.kept, foldl_kept]; done)
    | split
theorem execMarkSend_kept (port : Nat) (s : State) : OutKept s (execMarkSend port s) := by
  unfold execMarkSend
  refine onUnit_keeps (event_kept _ _ ?_)
  repeat' first
    | (simp [apply_ite State.kept, foldl_kept]; done)
    | split
theorem execCrumbDue_kept (port : Nat) (s : State) : OutKept s (execCrumbDue port s) := by
  unfold execCrumbDue
  refine onUnit_keeps (event_kept _ _ ?_)
  repeat' first
    | (simp [apply_ite State.kept, foldl_kept]; done)
    | dsimp only
    | split
theorem execCrumbForced_kept (port : Nat) (s : State) : OutKept s (execCrumbForced port s) := by
  unfold execCrumbForced
  refine onUnit_keeps (event_kept _ _ ?_)
  repeat' first
    | (simp [apply_ite State.kept, foldl_kept]; done)
    | split
theorem execCrumbDelete_kept (port : Nat) (fill : Nat) (s : State) : OutKept s (execCrumbDelete port fill s) := by
  unfold execCrumbDelete
  refine onUnit_keeps (event_kept _ _ ?_)
  repeat' first
    | (simp [apply_ite State.kept, foldl_kept]; done)
    | dsimp only
    | split
theorem execCrumbInsert_kept (port : Nat) (fill : Nat) (s : State) : OutKept s (execCrumbInsert port fill s) := by
  unfold execCrumbInsert
  refine onUnit_keeps (event_kept _ _ ?_)
  repeat' first
    | (simp [apply_ite State.kept, foldl_kept]; done)
    | dsimp only
    | split
theorem execElasticOverrun_kept (port : Nat) (fill : Nat) (s : State) : OutKept s (execElasticOverrun port fill s) := by
  unfold execElasticOverrun
  refine onUnit_keeps (event_kept _ _ ?_)
  repeat' first
    | (simp [apply_ite State.kept, foldl_kept]; done)
    | dsimp only
    | split
theorem execFillCrumbAbort_kept (port : Nat) (s : State) : OutKept s (execFillCrumbAbort port s) := by
  unfold execFillCrumbAbort
  refine onUnit_keeps (event_kept _ _ ?_)
  repeat' first
    | (simp [apply_ite State.kept, foldl_kept]; done)
    | split
theorem execControlBeatDiscard_kept (port : Nat) (line : List Bool) (place : Place) (s : State) : OutKept s (execControlBeatDiscard port line place s) := by
  unfold execControlBeatDiscard
  refine onUnit_keeps (event_kept _ _ ?_)
  repeat' first
    | (simp [apply_ite State.kept, foldl_kept]; done)
    | dsimp only
    | split
theorem execPreemptReceive_kept (port : Nat) (open_ : Option (Nat × Nat)) (s : State) : OutKept s (execPreemptReceive port open_ s) := by
  unfold execPreemptReceive
  refine onUnit_keeps (event_kept _ _ ?_)
  repeat' first
    | (simp [apply_ite State.kept, foldl_kept]; done)
    | dsimp only
    | split
theorem execResumeReceive_kept (port : Nat) (s : State) : OutKept s (execResumeReceive port s) := by
  unfold execResumeReceive
  refine onUnit_keeps (event_kept _ _ ?_)
  repeat' first
    | (simp [apply_ite State.kept, foldl_kept]; done)
    | split
theorem execDozeEntry_kept (port : Nat) (s : State) : OutKept s (execDozeEntry port s) := by
  unfold execDozeEntry
  refine onUnit_keeps (event_kept _ _ ?_)
  repeat' first
    | (simp [apply_ite State.kept, foldl_kept]; done)
    | split
theorem execDozeReceive_kept (port : Nat) (s : State) : OutKept s (execDozeReceive port s) := by
  unfold execDozeReceive
  refine onUnit_keeps (event_kept _ _ ?_)
  repeat' first
    | (simp [apply_ite State.kept, foldl_kept]; done)
    | split
theorem execDozeWake_kept (port : Nat) (s : State) : OutKept s (execDozeWake port s) := by
  unfold execDozeWake
  refine onUnit_keeps (event_kept _ _ ?_)
  repeat' first
    | (simp [apply_ite State.kept, foldl_kept]; done)
    | split
theorem execTrainAlignment_kept (port : Nat) (aligned : Bool) (s : State) : OutKept s (execTrainAlignment port aligned s) := by
  unfold execTrainAlignment
  refine onUnit_keeps (event_kept _ _ ?_)
  repeat' first
    | (simp [apply_ite State.kept, foldl_kept]; done)
    | split
theorem execHalterSend_kept (port : Nat) (s : State) : OutKept s (execHalterSend port s) := by
  unfold execHalterSend
  refine onUnit_keeps (event_kept _ _ ?_)
  repeat' first
    | (simp [apply_ite State.kept, foldl_kept]; done)
    | dsimp only
    | split
theorem execHalterPeriodic_kept (port : Nat) (s : State) : OutKept s (execHalterPeriodic port s) := by
  unfold execHalterPeriodic
  refine onUnit_keeps (event_kept _ _ ?_)
  repeat' first
    | (simp [apply_ite State.kept, foldl_kept]; done)
    | split
theorem execHalterReceive_kept (port : Nat) (words : List Nat) (s : State) : OutKept s (execHalterReceive port words s) := by
  unfold execHalterReceive
  refine onUnit_keeps (event_kept _ _ ?_)
  repeat' first
    | (simp [apply_ite State.kept, foldl_kept]; done)
    | split
theorem execHalterTimeout_kept (port : Nat) (s : State) : OutKept s (execHalterTimeout port s) := by
  unfold execHalterTimeout
  refine onUnit_keeps (event_kept _ _ ?_)
  repeat' first
    | (simp [apply_ite State.kept, foldl_kept]; done)
    | split
theorem execMessageDiscard_kept (port : Nat) (beats : List Beat) (s : State) : OutKept s (execMessageDiscard port beats s) := by
  unfold execMessageDiscard
  refine onUnit_keeps (event_kept _ _ ?_)
  repeat' first
    | (simp [apply_ite State.kept, foldl_kept]; done)
    | dsimp only
    | split
theorem execStdBlockLockChange_kept (port : Nat) (locked : Bool) (s : State) : OutKept s (execStdBlockLockChange port locked s) := by
  unfold execStdBlockLockChange
  refine onUnit_keeps (event_kept _ _ ?_)
  repeat' first
    | (simp [apply_ite State.kept, foldl_kept]; done)
    | split
theorem execSgmiiInbandWord_kept (port : Nat) (linkUp : Bool) (speed : Nat) (s : State) : OutKept s (execSgmiiInbandWord port linkUp speed s) := by
  unfold execSgmiiInbandWord
  refine onUnit_keeps (event_kept _ _ ?_)
  repeat' first
    | (simp [apply_ite State.kept, foldl_kept]; done)
    | split
theorem execPortHalterGet_kept (h : CmdHdr) (port : Nat) (s : State) : OutKept s (execPortHalterGet h port s) := by
  unfold execPortHalterGet
  refine cmd_keeps fun r => ?_
  repeat' first
    | (simp [apply_ite State.kept, foldl_kept]; done)
    | split
theorem execPortLineExpertSet_kept (h : CmdHdr) (port : Nat) (preemptEn : Bool) (dozeEn : Bool) (dozeIdle : Nat) (capMask : Nat) (s : State) : OutKept s (execPortLineExpertSet h port preemptEn dozeEn dozeIdle capMask s) := by
  unfold execPortLineExpertSet
  refine cmd_keeps fun r => ?_
  repeat' first
    | (simp [apply_ite State.kept, foldl_kept]; done)
    | split
theorem execPortSet_kept (h : CmdHdr) (port : Nat) (mode : Nat) (flags : Nat) (s : State) : OutKept s (execPortSet h port mode flags s) := by
  unfold execPortSet
  refine cmd_keeps fun r => ?_
  repeat' first
    | (simp [apply_ite State.kept, foldl_kept]; done)
    | split
theorem execPortQualityGet_kept (h : CmdHdr) (port : Nat) (s : State) : OutKept s (execPortQualityGet h port s) := by
  unfold execPortQualityGet
  refine cmd_keeps fun r => ?_
  repeat' first
    | (simp [apply_ite State.kept, foldl_kept]; done)
    | split
theorem execPortEqExpertSet_kept (h : CmdHdr) (port : Nat) (tx : Word) (rx : Word) (dig : Word) (s : State) : OutKept s (execPortEqExpertSet h port tx rx dig s) := by
  unfold execPortEqExpertSet
  refine cmd_keeps fun r => ?_
  repeat' first
    | (simp [apply_ite State.kept, foldl_kept]; done)
    | split
theorem execCfgBoardSet_kept (h : CmdHdr) (entry : List Byte) (s : State) : OutKept s (execCfgBoardSet h entry s) := by
  unfold execCfgBoardSet
  refine cmd_keeps fun r => ?_
  repeat' first
    | (simp [apply_ite State.kept, foldl_kept]; done)
    | split
theorem execLaserFault_kept (port : Nat) (s : State) : OutKept s (execLaserFault port s) := by
  unfold execLaserFault
  refine onUnit_keeps (event_kept _ _ ?_)
  repeat' first
    | (simp [apply_ite State.kept, foldl_kept]; done)
    | split
theorem execQualityUpdate_kept (port : Nat) (q : Quality) (s : State) : OutKept s (execQualityUpdate port q s) := by
  unfold execQualityUpdate
  refine onUnit_keeps (event_kept _ _ ?_)
  repeat' first
    | (simp [apply_ite State.kept, foldl_kept]; done)
    | split
theorem execMPortEntersUp_kept (port : Nat) (s : State) : OutKept s (execMPortEntersUp port s) := by
  unfold execMPortEntersUp
  refine onUnit_keeps (event_kept _ _ ?_)
  repeat' first
    | (simp [apply_ite State.kept, foldl_kept]; done)
    | split
theorem execSegmentFault_kept (port : Nat) (s : State) : OutKept s (execSegmentFault port s) := by
  unfold execSegmentFault
  refine onUnit_keeps (event_kept _ _ ?_)
  repeat' first
    | (simp [apply_ite State.kept, foldl_kept]; done)
    | split
theorem execSegmentRetry_kept (port : Nat) (intact : Bool) (s : State) : OutKept s (execSegmentRetry port intact s) := by
  unfold execSegmentRetry
  refine onUnit_keeps (event_kept _ _ ?_)
  repeat' first
    | (simp [apply_ite State.kept, foldl_kept]; done)
    | split
theorem execFrameReceive_kept (port : Nat) (frame : RxFrame) (s : State) : OutKept s (execFrameReceive port frame s) := by
  unfold execFrameReceive
  refine onUnit_keeps (event_kept _ _ ?_)
  repeat' first
    | (simp [apply_ite State.kept, foldl_kept]; done)
    | split
theorem execPortFrameSet_kept (h : CmdHdr) (port : Nat) (maxfrm : Nat) (ctEn : Bool) (s : State) : OutKept s (execPortFrameSet h port maxfrm ctEn s) := by
  unfold execPortFrameSet
  refine cmd_keeps fun r => ?_
  repeat' first
    | (simp [apply_ite State.kept, foldl_kept]; done)
    | split
theorem execHcxRingTailWrite_kept (c ring : Nat) (value : Word) (posted : List Desc) (s : State) : OutKept s (execHcxRingTailWrite c ring value posted s) := by
  unfold execHcxRingTailWrite
  split
  · refine onUnit_keeps (event_kept _ _ ?_)
    repeat' first
      | (simp [apply_ite State.kept, foldl_kept]; done)
      | dsimp only
      | split
  · exact fault_keeps _
theorem execTxRingTimeout_kept (c ring : Nat) (s : State) : OutKept s (execTxRingTimeout c ring s) := by
  unfold execTxRingTimeout
  split
  · refine onUnit_keeps (event_kept _ _ ?_)
    repeat' first
      | (simp [apply_ite State.kept, foldl_kept]; done)
      | dsimp only
      | split
  · exact fault_keeps _
theorem execRingDmaError_kept (c ring : Nat) (s : State) : OutKept s (execRingDmaError c ring s) := by
  unfold execRingDmaError
  split
  · refine onUnit_keeps (event_kept _ _ ?_)
    repeat' first
      | (simp [apply_ite State.kept, foldl_kept]; done)
      | dsimp only
      | split
  · exact fault_keeps _
theorem execTxTimestampWriteback_kept (c ring : Nat) (s : State) : OutKept s (execTxTimestampWriteback c ring s) := by
  unfold execTxTimestampWriteback
  split
  · refine onUnit_keeps (event_kept _ _ ?_)
    repeat' first
      | (simp [apply_ite State.kept, foldl_kept]; done)
      | dsimp only
      | split
  · exact fault_keeps _
theorem execCellSlot_kept (s : State) : OutKept s (execCellSlot s) := by
  unfold execCellSlot
  refine next_keeps (event_kept _ _ ?_)
  repeat' first
    | (simp [apply_ite State.kept, foldl_kept]; done)
    | split
theorem execFrameTransmit_kept (port : Nat) (preempting : Bool) (ts : Raw) (sub : Byte) (s : State) : OutKept s (execFrameTransmit port preempting ts sub s) := by
  unfold execFrameTransmit
  refine onUnit_keeps (event_kept _ _ ?_)
  dsimp only
  split
  · rfl
  · split
    · simp
    · split
      · rename_i hu
        repeat' first
          | exact sendBuffered_kept _ _ _ _ hu
          | (cases hu; done)
          | split at hu
      · split <;> simp
theorem execMPortTxAttempt_kept (port : Nat) (carrier : Bool) (s : State) : OutKept s (execMPortTxAttempt port carrier s) := by
  unfold execMPortTxAttempt
  refine onUnit_keeps (event_kept _ _ ?_)
  repeat' first
    | (simp [apply_ite State.kept, foldl_kept]; done)
    | split
theorem execMPortCollision_kept (port : Nat) (bitTimes : Nat) (s : State) : OutKept s (execMPortCollision port bitTimes s) := by
  unfold execMPortCollision
  refine onUnit_keeps (event_kept _ _ ?_)
  repeat' first
    | (simp [apply_ite State.kept, foldl_kept]; done)
    | split
theorem execMPortBackoffExpiry_kept (port : Nat) (s : State) : OutKept s (execMPortBackoffExpiry port s) := by
  unfold execMPortBackoffExpiry
  refine onUnit_keeps (event_kept _ _ ?_)
  repeat' first
    | (simp [apply_ite State.kept, foldl_kept]; done)
    | split
theorem execHeadSweep_kept (s : State) : OutKept s (execHeadSweep s) := by
  unfold execHeadSweep
  refine next_keeps (event_kept _ _ ?_)
  dsimp only
  rw [foldl_kept, foldl_kept]
  · intro u k
    exact sweepList_kept _ (fun v x rest => by simp) _ _
  · intro u j
    rw [serveAll_kept]
    exact sweepList_kept _ (fun v x rest => by simp) _ _
theorem execOverflowRecordWrite_kept (s : State) : OutKept s (execOverflowRecordWrite s) := by
  unfold execOverflowRecordWrite
  refine next_keeps (event_kept _ _ ?_)
  repeat' first
    | (simp [apply_ite State.kept, foldl_kept]; done)
    | split
theorem execDramReturn_kept (queue : Nat) (hdr : List Byte) (s : State) : OutKept s (execDramReturn queue hdr s) := by
  unfold execDramReturn
  refine onUnit_keeps (event_kept _ _ ?_)
  repeat' first
    | (simp [apply_ite State.kept, foldl_kept]; done)
    | dsimp only
    | split
theorem execDramReadyChange_kept (ready : Bool) (s : State) : OutKept s (execDramReadyChange ready s) := by
  unfold execDramReadyChange
  refine next_keeps (event_kept _ _ ?_)
  repeat' first
    | (simp [apply_ite State.kept, foldl_kept]; done)
    | split
theorem execDramSlotDraw_kept (active : BitVec 6) (s : State) : OutKept s (execDramSlotDraw active s) := by
  unfold execDramSlotDraw
  refine next_keeps (event_kept _ _ ?_)
  dsimp only
  generalize lottery _ _ _ = w
  split
  · simp
  · rw [foldl_kept _ _ _ fun v i => by simp [apply_ite State.kept]]
    simp
theorem execArbCommitApply_kept (s : State) : OutKept s (execArbCommitApply s) := by
  unfold execArbCommitApply
  refine next_keeps (event_kept _ _ ?_)
  repeat' first
    | (simp [apply_ite State.kept, foldl_kept]; done)
    | split
theorem execBufferEccError_kept (what : BufEcc) (s : State) : OutKept s (execBufferEccError what s) := by
  unfold execBufferEccError
  refine next_keeps (event_kept _ _ ?_)
  repeat' first
    | (simp [apply_ite State.kept, foldl_kept]; done)
    | split
theorem execSwcQueueSet_kept (h : CmdHdr) (port : Nat) (profile : Nat) (s : State) : OutKept s (execSwcQueueSet h port profile s) := by
  unfold execSwcQueueSet
  refine cmd_keeps fun r => ?_
  repeat' first
    | (simp [apply_ite State.kept, foldl_kept]; done)
    | split
theorem execSwcPcpSet_kept (h : CmdHdr) (port : Nat) (classes : List Nat) (defPcp : Nat) (s : State) : OutKept s (execSwcPcpSet h port classes defPcp s) := by
  unfold execSwcPcpSet
  refine cmd_keeps fun r => ?_
  repeat' first
    | (simp [apply_ite State.kept, foldl_kept]; done)
    | dsimp only
    | split
theorem execSwcSampleSet_kept (h : CmdHdr) (port : Nat) (n : Nat) (dest : Nat) (s : State) : OutKept s (execSwcSampleSet h port n dest s) := by
  unfold execSwcSampleSet
  refine cmd_keeps fun r => ?_
  repeat' first
    | (simp [apply_ite State.kept, foldl_kept]; done)
    | split
theorem execSwcStatsGet_kept (h : CmdHdr) (port : Nat) (s : State) : OutKept s (execSwcStatsGet h port s) := by
  unfold execSwcStatsGet
  refine cmd_keeps fun r => ?_
  repeat' first
    | (simp [apply_ite State.kept, foldl_kept]; done)
    | split
theorem execSwcQueueExpertSet_kept (h : CmdHdr) (port : Nat) (cls : Nat) (floor : Nat) (alpha : Nat) (spillThr : Nat) (spillEn : Bool) (dramMax : Nat) (quantum : Nat) (s : State) : OutKept s (execSwcQueueExpertSet h port cls floor alpha spillThr spillEn dramMax quantum s) := by
  unfold execSwcQueueExpertSet
  refine cmd_keeps fun r => ?_
  repeat' first
    | (simp [apply_ite State.kept, foldl_kept]; done)
    | split
theorem execSwcGlobalExpertSet_kept (h : CmdHdr) (headroom : Nat) (ageSram : Nat) (ageDram : Nat) (ageC6 : Nat) (stage : Nat) (ret : Nat) (poolLow : Nat) (s : State) : OutKept s (execSwcGlobalExpertSet h headroom ageSram ageDram ageC6 stage ret poolLow s) := by
  unfold execSwcGlobalExpertSet
  refine cmd_keeps fun r => ?_
  repeat' first
    | (simp [apply_ite State.kept, foldl_kept]; done)
    | split
theorem execSwcArbExpertSet_kept (h : CmdHdr) (tickets : List Nat) (seed : Word) (s : State) : OutKept s (execSwcArbExpertSet h tickets seed s) := by
  unfold execSwcArbExpertSet
  refine cmd_keeps fun r => ?_
  simp [foldl_kept]
theorem execFdbInsert_kept (h : CmdHdr) (op : FdbOp) (s : State) : OutKept s (execFdbInsert h op s) := by
  unfold execFdbInsert
  refine cmd_keeps fun r => ?_
  have h := fdbInsert_kept r { op with delete := false }
  dsimp only at h ⊢
  split
  · exact (nextEpoch_kept _).trans h
  · simp
theorem execFdbDelete_kept (h : CmdHdr) (fid mac : Nat) (s : State) : OutKept s (execFdbDelete h fid mac s) := by
  unfold execFdbDelete
  refine cmd_keeps fun r => ?_
  split
  · rename_i u hu
    simp [fdbDelete_kept _ _ _ _ hu]
  · simp
theorem execFdbLookup_kept (h : CmdHdr) (fid : Nat) (mac : Nat) (s : State) : OutKept s (execFdbLookup h fid mac s) := by
  unfold execFdbLookup
  refine cmd_keeps fun r => ?_
  repeat' first
    | (simp [apply_ite State.kept, foldl_kept]; done)
    | split
theorem execFdbFlush_kept (h : CmdHdr) (port : Nat) (static : Bool) (fid : Nat) (s : State) : OutKept s (execFdbFlush h port static fid s) := by
  unfold execFdbFlush
  refine cmd_keeps fun r => ?_
  have h := fdbFlush_kept r (if port = 0xFF then r.portsOwned h.ctx else portBit port) static fid
  split <;> (rename_i hx; rw [hx] at h; simp [h])
theorem execFdbBatch_kept (h : CmdHdr) (ops : List FdbOp) (s : State) : OutKept s (execFdbBatch h ops s) := by
  unfold execFdbBatch
  refine cmd_keeps fun r => ?_
  repeat' first
    | (simp [apply_ite State.kept, foldl_kept]; done)
    | split
theorem execLearnSet_kept (h : CmdHdr) (port : Nat) (en : Bool) (max : Nat) (s : State) : OutKept s (execLearnSet h port en max s) := by
  unfold execLearnSet
  refine cmd_keeps fun r => ?_
  repeat' first
    | (simp [apply_ite State.kept, foldl_kept]; done)
    | split
theorem execFdbAgeSet_kept (h : CmdHdr) (time : Nat) (s : State) : OutKept s (execFdbAgeSet h time s) := by
  unfold execFdbAgeSet
  refine cmd_keeps fun r => ?_
  repeat' first
    | (simp [apply_ite State.kept, foldl_kept]; done)
    | split
theorem execLearnRead_kept (h : CmdHdr) (max : Nat) (s : State) : OutKept s (execLearnRead h max s) := by
  unfold execLearnRead
  refine cmd_keeps fun r => ?_
  repeat' first
    | (simp [apply_ite State.kept, foldl_kept]; done)
    | split
theorem execVlanSet_kept (h : CmdHdr) (vid : Nat) (entry : VlanEntry) (pvidPorts : Word) (s : State) : OutKept s (execVlanSet h vid entry pvidPorts s) := by
  unfold execVlanSet
  refine cmd_keeps fun r => ?_
  repeat' first
    | (simp [apply_ite State.kept, foldl_kept]; done)
    | split
theorem execFdbRehash_kept (h : CmdHdr) (seed : Word) (s : State) : OutKept s (execFdbRehash h seed s) := by
  unfold execFdbRehash
  refine cmd_keeps fun r => ?_
  repeat' first
    | (simp [apply_ite State.kept, foldl_kept]; done)
    | split
theorem execRehashWalkEnd_kept (s : State) : OutKept s (execRehashWalkEnd s) := by
  unfold execRehashWalkEnd
  refine next_keeps (event_kept _ _ ?_)
  repeat' first
    | (simp [apply_ite State.kept, foldl_kept]; done)
    | split
theorem execStreamSet_kept (h : CmdHdr) (index : Nat) (entry : StreamEntry) (s : State) : OutKept s (execStreamSet h index entry s) := by
  unfold execStreamSet
  refine cmd_keeps fun r => ?_
  repeat' first
    | (simp [apply_ite State.kept, foldl_kept]; done)
    | split
theorem execStreamDelete_kept (h : CmdHdr) (index : Nat) (s : State) : OutKept s (execStreamDelete h index s) := by
  unfold execStreamDelete
  refine cmd_keeps fun r => ?_
  repeat' first
    | (simp [apply_ite State.kept, foldl_kept]; done)
    | split
theorem execStreamGet_kept (h : CmdHdr) (index : Nat) (pendingBank : Bool) (s : State) : OutKept s (execStreamGet h index pendingBank s) := by
  unfold execStreamGet
  refine cmd_keeps fun r => ?_
  repeat' first
    | (simp [apply_ite State.kept, foldl_kept]; done)
    | split
theorem execProtSet_kept (h : CmdHdr) (pair : Nat) (primary : Nat) (alternate : Nat) (enable : Bool) (revertive : Bool) (wtr : Nat) (s : State) : OutKept s (execProtSet h pair primary alternate enable revertive wtr s) := by
  unfold execProtSet
  refine cmd_keeps fun r => ?_
  repeat' first
    | (simp [apply_ite State.kept, foldl_kept]; done)
    | split
theorem execProtGet_kept (h : CmdHdr) (pair : Nat) (s : State) : OutKept s (execProtGet h pair s) := by
  unfold execProtGet
  refine cmd_keeps fun r => ?_
  repeat' first
    | (simp [apply_ite State.kept, foldl_kept]; done)
    | split
theorem execProtRevert_kept (h : CmdHdr) (pair : Nat) (s : State) : OutKept s (execProtRevert h pair s) := by
  unfold execProtRevert
  refine cmd_keeps fun r => ?_
  repeat' first
    | (simp [apply_ite State.kept, foldl_kept]; done)
    | split
theorem execProtSwitch_kept (pair : Nat) (s : State) : OutKept s (execProtSwitch pair s) := by
  unfold execProtSwitch
  refine onUnit_keeps (event_kept _ _ ?_)
  repeat' first
    | (simp [apply_ite State.kept, foldl_kept]; done)
    | split
theorem execProtWtrReturn_kept (pair : Nat) (s : State) : OutKept s (execProtWtrReturn pair s) := by
  unfold execProtWtrReturn
  refine onUnit_keeps (event_kept _ _ ?_)
  repeat' first
    | (simp [apply_ite State.kept, foldl_kept]; done)
    | split
theorem execShadowWrite_kept (h : CmdHdr) (table : Nat) (first : Nat) (entries : List Nat) (s : State) : OutKept s (execShadowWrite h table first entries s) := by
  unfold execShadowWrite
  refine cmd_keeps fun r => ?_
  repeat' first
    | (simp [apply_ite State.kept, foldl_kept]; done)
    | split
theorem execShadowCtrl_kept (h : CmdHdr) (mode : Nat) (pace : Nat) (s : State) : OutKept s (execShadowCtrl h mode pace s) := by
  unfold execShadowCtrl
  refine cmd_keeps fun r => ?_
  repeat' first
    | (simp [apply_ite State.kept, foldl_kept]; done)
    | split
theorem execShadowLogGet_kept (h : CmdHdr) (max : Nat) (s : State) : OutKept s (execShadowLogGet h max s) := by
  unfold execShadowLogGet
  refine cmd_keeps fun r => ?_
  repeat' first
    | (simp [apply_ite State.kept, foldl_kept]; done)
    | split
theorem execShadowCompareUnit_kept (s : State) : OutKept s (execShadowCompareUnit s) := by
  unfold execShadowCompareUnit
  refine next_keeps (event_kept _ _ ?_)
  repeat' first
    | (simp [apply_ite State.kept, foldl_kept]; done)
    | split
theorem execAgeScanVisit_kept (index : Nat) (s : State) : OutKept s (execAgeScanVisit index s) := by
  unfold execAgeScanVisit
  refine onUnit_keeps (event_kept _ _ ?_)
  repeat' first
    | (simp [apply_ite State.kept, foldl_kept]; done)
    | split
theorem execLearnFilterExpiry_kept (s : State) : OutKept s (execLearnFilterExpiry s) := by
  unfold execLearnFilterExpiry
  refine next_keeps (event_kept _ _ ?_)
  repeat' first
    | (simp [apply_ite State.kept, foldl_kept]; done)
    | split
theorem execTableEccError_kept (what : TblEcc) (s : State) : OutKept s (execTableEccError what s) := by
  unfold execTableEccError
  refine next_keeps (event_kept _ _ ?_)
  repeat' first
    | (simp [apply_ite State.kept, foldl_kept]; done)
    | split
theorem execReferenceQualification_kept (meas : List (Option RefMeas)) (s : State) : OutKept s (execReferenceQualification meas s) := by
  unfold execReferenceQualification
  refine next_keeps (event_kept _ _ ?_)
  dsimp only
  rw [applySel_kept, holdSecond_kept, disagreeRefs_kept, foldl_kept]
  intro v i
  repeat' first
    | (simp; done)
    | split
theorem execReferenceLost_kept (index : Nat) (s : State) : OutKept s (execReferenceLost index s) := by
  unfold execReferenceLost
  refine onUnit_keeps (event_kept _ _ ?_)
  repeat' first
    | (simp [apply_ite State.kept, foldl_kept]; done)
    | split
theorem execAutoDecision_kept (s : State) : OutKept s (execAutoDecision s) := by
  unfold execAutoDecision
  refine next_keeps (event_kept _ _ ?_)
  repeat' first
    | (simp [apply_ite State.kept, foldl_kept]; done)
    | split
theorem execRselChange_kept (pins : BitVec 3) (s : State) : OutKept s (execRselChange pins s) := by
  unfold execRselChange
  refine next_keeps (event_kept _ _ ?_)
  repeat' first
    | (simp [apply_ite State.kept, foldl_kept]; done)
    | split
theorem execDpllComparison_kept (errPs : Int) (freqOk : Bool) (s : State) : OutKept s (execDpllComparison errPs freqOk s) := by
  unfold execDpllComparison
  refine next_keeps (event_kept _ _ ?_)
  repeat' first
    | (simp [apply_ite State.kept, foldl_kept]; done)
    | split
theorem execReferenceSwitchDone_kept (mean : Int) (s : State) : OutKept s (execReferenceSwitchDone mean s) := by
  unfold execReferenceSwitchDone
  refine next_keeps (event_kept _ _ ?_)
  repeat' first
    | (simp [apply_ite State.kept, foldl_kept]; done)
    | split
theorem execOvenReady_kept  (s : State) : OutKept s (execOvenReady  s) := by
  unfold execOvenReady
  refine next_keeps (oven_kept _ _ ?_)
  dsimp only
  split
  · rfl
  · split
    · simp
    · rw [foldl_kept]
      · simp
      · intro v d
        repeat' first
          | (simp [apply_ite State.kept]; done)
          | split
theorem execOvenOor_kept (oor : Bool) (s : State) : OutKept s (execOvenOor oor s) := by
  unfold execOvenOor
  refine next_keeps (oven_kept _ _ ?_)
  simp [apply_ite State.kept]
theorem execOvenWarmFail_kept (s : State) : OutKept s (execOvenWarmFail s) := by
  unfold execOvenWarmFail
  refine next_keeps ?_
  repeat' first
    | (simp [apply_ite State.kept, foldl_kept]; done)
    | split
theorem execSynthLock_kept (n : Nat) (band : Nat) (phase : Nat) (s : State) : OutKept s (execSynthLock n band phase s) := by
  unfold execSynthLock
  refine onUnit_keeps ?_
  repeat' first
    | (simp [apply_ite State.kept, foldl_kept]; done)
    | dsimp only
    | split
theorem execSynthLockRetry_kept (n : Nat) (s : State) : OutKept s (execSynthLockRetry n s) := by
  unfold execSynthLockRetry
  refine onUnit_keeps (event_kept _ _ ?_)
  repeat' first
    | (simp [apply_ite State.kept, foldl_kept]; done)
    | split
theorem execLineSynthUnlock_kept (n : Nat) (s : State) : OutKept s (execLineSynthUnlock n s) := by
  unfold execLineSynthUnlock
  refine onUnit_keeps (event_kept _ _ ?_)
  repeat' first
    | (simp [apply_ite State.kept, foldl_kept]; done)
    | split
theorem execCoreSynthUnlock_kept (s : State) : OutKept s (execCoreSynthUnlock s) := by
  unfold execCoreSynthUnlock
  refine next_keeps (event_kept _ _ ?_)
  repeat' first
    | (simp [apply_ite State.kept, foldl_kept]; done)
    | split
theorem execDramSynthUnlock_kept (s : State) : OutKept s (execDramSynthUnlock s) := by
  unfold execDramSynthUnlock
  refine next_keeps (event_kept _ _ ?_)
  repeat' first
    | (simp [apply_ite State.kept, foldl_kept]; done)
    | split
theorem execClkRefSet_kept (h : CmdHdr) (index : Nat) (rank : Nat) (freq : Nat) (port : Option Nat) (s : State) : OutKept s (execClkRefSet h index rank freq port s) := by
  unfold execClkRefSet
  refine cmd_keeps fun r => ?_
  repeat' first
    | (simp [apply_ite State.kept, foldl_kept]; done)
    | split
theorem execClkSelect_kept (h : CmdHdr) (mode : Nat) (index : Nat) (s : State) : OutKept s (execClkSelect h mode index s) := by
  unfold execClkSelect
  refine cmd_keeps fun r => ?_
  repeat' first
    | (simp [apply_ite State.kept, foldl_kept]; done)
    | split
theorem execClkStatusGet_kept (h : CmdHdr) (s : State) : OutKept s (execClkStatusGet h s) := by
  unfold execClkStatusGet
  refine cmd_keeps fun r => ?_
  repeat' first
    | (simp [apply_ite State.kept, foldl_kept]; done)
    | split
theorem execClkSwitchSet_kept (h : CmdHdr) (phaseMode : Nat) (wtr : Nat) (disagree : Nat) (s : State) : OutKept s (execClkSwitchSet h phaseMode wtr disagree s) := by
  unfold execClkSwitchSet
  refine cmd_keeps fun r => ?_
  repeat' first
    | (simp [apply_ite State.kept, foldl_kept]; done)
    | split
theorem execClkDpllExpertSet_kept (h : CmdHdr) (bw : Nat) (fastAcq : Bool) (s : State) : OutKept s (execClkDpllExpertSet h bw fastAcq s) := by
  unfold execClkDpllExpertSet
  refine cmd_keeps fun r => ?_
  repeat' first
    | (simp [apply_ite State.kept, foldl_kept]; done)
    | split
theorem execClkSynExpertSet_kept (h : CmdHdr) (syn : Nat) (action : Nat) (force : Bool) (s : State) : OutKept s (execClkSynExpertSet h syn action force s) := by
  unfold execClkSynExpertSet
  refine cmd_keeps fun r => ?_
  repeat' first
    | (simp [apply_ite State.kept, foldl_kept]; done)
    | split
theorem execCycTableSet_kept (h : CmdHdr) (port : Nat) (entries : List (Nat × GateEntry)) (s : State) : OutKept s (execCycTableSet h port entries s) := by
  unfold execCycTableSet
  refine cmd_keeps fun r => ?_
  repeat' first
    | (simp [apply_ite State.kept, foldl_kept]; done)
    | split
theorem execCycOslotSet_kept (h : CmdHdr) (slot : Nat) (cfg : OSlotCfg) (template : List Byte) (s : State) : OutKept s (execCycOslotSet h slot cfg template s) := by
  unfold execCycOslotSet
  refine cmd_keeps fun r => ?_
  repeat' first
    | (simp [apply_ite State.kept, foldl_kept]; done)
    | split
theorem execCycIslotSet_kept (h : CmdHdr) (slot : Nat) (cfg : ISlotCfg) (s : State) : OutKept s (execCycIslotSet h slot cfg s) := by
  unfold execCycIslotSet
  refine cmd_keeps fun r => ?_
  repeat' first
    | (simp [apply_ite State.kept, foldl_kept]; done)
    | split
theorem execCycPeriodStage_kept (h : CmdHdr) (period : Nat) (s : State) : OutKept s (execCycPeriodStage h period s) := by
  unfold execCycPeriodStage
  refine cmd_keeps fun r => ?_
  repeat' first
    | (simp [apply_ite State.kept, foldl_kept]; done)
    | split
theorem execCycDiscard_kept (h : CmdHdr) (streams : Bool) (s : State) : OutKept s (execCycDiscard h streams s) := by
  unfold execCycDiscard
  refine cmd_keeps fun r => ?_
  repeat' first
    | (simp [apply_ite State.kept, foldl_kept]; done)
    | split
theorem execCycStageGet_kept (h : CmdHdr) (s : State) : OutKept s (execCycStageGet h s) := by
  unfold execCycStageGet
  refine cmd_keeps fun r => ?_
  repeat' first
    | (simp [apply_ite State.kept, foldl_kept]; done)
    | split
theorem execCycStatusGet_kept (h : CmdHdr) (s : State) : OutKept s (execCycStatusGet h s) := by
  unfold execCycStatusGet
  refine cmd_keeps fun r => ?_
  repeat' first
    | (simp [apply_ite State.kept, foldl_kept]; done)
    | split
theorem execCycStartSet_kept (h : CmdHdr) (gen : Nat) (timing : Option (Nat × Int)) (s : State) : OutKept s (execCycStartSet h gen timing s) := by
  unfold execCycStartSet
  refine cmd_keeps fun r => ?_
  repeat' first
    | (simp [apply_ite State.kept, foldl_kept]; done)
    | split
theorem execCycGenAutoArm_kept (s : State) : OutKept s (execCycGenAutoArm s) := by
  unfold execCycGenAutoArm
  refine next_keeps (event_kept _ _ ?_)
  repeat' first
    | (simp [apply_ite State.kept, foldl_kept]; done)
    | split
theorem execCycleCommit_kept (h : CmdHdr) (k : Nat) (share : Word) (hash : Word) (immediate : Bool) (s : State) : OutKept s (execCycleCommit h k share hash immediate s) := by
  unfold execCycleCommit
  refine cmd_keeps fun r => ?_
  repeat' first
    | (simp [apply_ite State.kept, foldl_kept]; done)
    | split
theorem execCycleCommitForce_kept (h : CmdHdr) (k : Nat) (hash : Word) (immediate : Bool) (s : State) : OutKept s (execCycleCommitForce h k hash immediate s) := by
  unfold execCycleCommitForce
  refine cmd_keeps fun r => ?_
  repeat' first
    | (simp [apply_ite State.kept, foldl_kept]; done)
    | split
theorem execCycleCancel_kept (h : CmdHdr) (s : State) : OutKept s (execCycleCancel h s) := by
  unfold execCycleCancel
  refine cmd_keeps fun r => ?_
  repeat' first
    | (simp [apply_ite State.kept, foldl_kept]; done)
    | split
theorem execCommitMismatchCheck_kept (s : State) : OutKept s (execCommitMismatchCheck s) := by
  unfold execCommitMismatchCheck
  refine next_keeps (event_kept _ _ ?_)
  repeat' first
    | (simp [apply_ite State.kept, foldl_kept]; done)
    | split
theorem execCycleStart_kept (s : State) : OutKept s (execCycleStart s) := by
  unfold execCycleStart
  refine next_keeps (event_kept _ _ ?_)
  repeat' first
    | (simp [apply_ite State.kept, foldl_kept]; done)
    | split
theorem execGateEntryStart_kept (port : Nat) (index : Nat) (s : State) : OutKept s (execGateEntryStart port index s) := by
  unfold execGateEntryStart
  refine onUnit_keeps (event_kept _ _ ?_)
  repeat' first
    | (simp [apply_ite State.kept, foldl_kept]; done)
    | split
theorem execGateEntryEnd_kept (port : Nat) (s : State) : OutKept s (execGateEntryEnd port s) := by
  unfold execGateEntryEnd
  refine onUnit_keeps (event_kept _ _ ?_)
  repeat' first
    | (simp; done)
    | dsimp only
    | split
theorem execReservedConnectionSetup_kept (port : Nat) (index : Nat) (s : State) : OutKept s (execReservedConnectionSetup port index s) := by
  unfold execReservedConnectionSetup
  refine onUnit_keeps (event_kept _ _ ?_)
  repeat' first
    | (simp [apply_ite State.kept, foldl_kept]; done)
    | split
theorem execLaunchCapture_kept (slot : Nat) (s : State) : OutKept s (execLaunchCapture slot s) := by
  unfold execLaunchCapture
  refine onUnit_keeps (event_kept _ _ ?_)
  repeat' first
    | (simp [apply_ite State.kept, foldl_kept]; done)
    | split
theorem execLaunch_kept (slot : Nat) (lines : List LineEdge) (s : State) : OutKept s (execLaunch slot lines s) := by
  unfold execLaunch
  refine onUnit_keeps (event_kept _ _ ?_)
  repeat' first
    | (simp [apply_ite State.kept, foldl_kept]; done)
    | dsimp only
    | split
theorem execCycPiRead_kept (h : CmdHdr) (inbound : Bool) (slot : Nat) (offset : Nat) (len : Nat) (s : State) : OutKept s (execCycPiRead h inbound slot offset len s) := by
  unfold execCycPiRead
  refine cmd_keeps fun r => ?_
  repeat' first
    | (simp [apply_ite State.kept, foldl_kept]; done)
    | split
theorem execTioClaim_kept (h : CmdHdr) (pin func index : Nat) (pol term : Bool) (s : State) : OutKept s (execTioClaim h pin func index pol term s) := by
  unfold execTioClaim
  refine cmd_keeps fun r => ?_
  repeat' first
    | (simp; done)
    | dsimp only
    | split
theorem execTioRelease_kept (h : CmdHdr) (pin : Nat) (s : State) : OutKept s (execTioRelease h pin s) := by
  unfold execTioRelease
  refine cmd_keeps fun r => ?_
  repeat' first
    | (simp [apply_ite State.kept, foldl_kept]; done)
    | split
theorem execTioStatusGet_kept (h : CmdHdr) (s : State) : OutKept s (execTioStatusGet h s) := by
  unfold execTioStatusGet
  refine cmd_keeps fun r => ?_
  repeat' first
    | (simp [apply_ite State.kept, foldl_kept]; done)
    | split
theorem execIuAlloc_kept (h : CmdHdr) (s : State) : OutKept s (execIuAlloc h s) := by
  unfold execIuAlloc
  refine cmd_keeps fun r => ?_
  repeat' first
    | (simp; done)
    | dsimp only
    | split
theorem execIuFree_kept (h : CmdHdr) (unit : Nat) (s : State) : OutKept s (execIuFree h unit s) := by
  unfold execIuFree
  refine cmd_keeps fun r => ?_
  repeat' first
    | (simp [apply_ite State.kept, foldl_kept]; done)
    | split
theorem execIuSet_kept (h : CmdHdr) (unit : Nat) (cfg : Word) (window : Word) (s : State) : OutKept s (execIuSet h unit cfg window s) := by
  unfold execIuSet
  refine cmd_keeps fun r => ?_
  repeat' first
    | (simp [apply_ite State.kept, foldl_kept]; done)
    | split
theorem execIuArm_kept (h : CmdHdr) (unit : Nat) (s : State) : OutKept s (execIuArm h unit s) := by
  unfold execIuArm
  refine cmd_keeps fun r => ?_
  repeat' first
    | (simp [apply_ite State.kept, foldl_kept]; done)
    | split
theorem execIuRead_kept (h : CmdHdr) (unit : Nat) (max : Nat) (s : State) : OutKept s (execIuRead h unit max s) := by
  unfold execIuRead
  refine cmd_keeps fun r => ?_
  repeat' first
    | (simp [apply_ite State.kept, foldl_kept]; done)
    | split
theorem execIuCalibrate_kept (h : CmdHdr) (unit : Nat) (s : State) : OutKept s (execIuCalibrate h unit s) := by
  unfold execIuCalibrate
  refine cmd_keeps fun r => ?_
  repeat' first
    | (simp [apply_ite State.kept, foldl_kept]; done)
    | split
theorem execIuCalibrationEnd_kept (unit : Nat) (inlStart : Nat) (inlStop : Nat) (temp : Nat) (s : State) : OutKept s (execIuCalibrationEnd unit inlStart inlStop temp s) := by
  unfold execIuCalibrationEnd
  refine onUnit_keeps ?_
  repeat' first
    | (simp [apply_ite State.kept, foldl_kept]; done)
    | split
theorem execIuStartEdge_kept (unit : Nat) (edge : Raw) (k : Nat) (s : State) : OutKept s (execIuStartEdge unit edge k s) := by
  unfold execIuStartEdge
  refine onUnit_keeps (event_kept _ _ ?_)
  repeat' first
    | (simp [apply_ite State.kept, foldl_kept]; done)
    | split
theorem execIuStopEdge_kept (unit : Nat) (edge : Raw) (k : Nat) (s : State) : OutKept s (execIuStopEdge unit edge k s) := by
  unfold execIuStopEdge
  refine onUnit_keeps (event_kept _ _ ?_)
  repeat' first
    | (simp [apply_ite State.kept, foldl_kept]; done)
    | split
theorem execIuConversionDone_kept (unit : Nat) (s : State) : OutKept s (execIuConversionDone unit s) := by
  unfold execIuConversionDone
  refine onUnit_keeps (event_kept _ _ ?_)
  repeat' first
    | (simp [apply_ite State.kept, foldl_kept]; done)
    | split
theorem execIuDeadTimeEnd_kept (unit : Nat) (s : State) : OutKept s (execIuDeadTimeEnd unit s) := by
  unfold execIuDeadTimeEnd
  refine onUnit_keeps (event_kept _ _ ?_)
  repeat' first
    | (simp [apply_ite State.kept, foldl_kept]; done)
    | split
theorem execIuGateEdge_kept (unit : Nat) (active : Bool) (s : State) : OutKept s (execIuGateEdge unit active s) := by
  unfold execIuGateEdge
  refine onUnit_keeps (event_kept _ _ ?_)
  repeat' first
    | (simp [apply_ite State.kept, foldl_kept]; done)
    | split
theorem execIuWindowExpiry_kept (unit : Nat) (s : State) : OutKept s (execIuWindowExpiry unit s) := by
  unfold execIuWindowExpiry
  refine onUnit_keeps (event_kept _ _ ?_)
  repeat' first
    | (simp [apply_ite State.kept, foldl_kept]; done)
    | split
theorem execIuStopOverflow_kept (unit : Nat) (s : State) : OutKept s (execIuStopOverflow unit s) := by
  unfold execIuStopOverflow
  refine onUnit_keeps (event_kept _ _ ?_)
  repeat' first
    | (simp [apply_ite State.kept, foldl_kept]; done)
    | split
theorem execTgAlloc_kept (h : CmdHdr) (s : State) : OutKept s (execTgAlloc h s) := by
  unfold execTgAlloc
  refine cmd_keeps fun r => ?_
  repeat' first
    | (simp; done)
    | dsimp only
    | split
theorem execTgFree_kept (h : CmdHdr) (gen : Nat) (s : State) : OutKept s (execTgFree h gen s) := by
  unfold execTgFree
  refine cmd_keeps fun r => ?_
  repeat' first
    | (simp [apply_ite State.kept, foldl_kept]; done)
    | split
theorem execTgArm_kept (h : CmdHdr) (gen : Nat) (sec : Nat) (ns : Nat) (frac : Nat) (period : Nat) (count : Nat) (width : Nat) (dest : Nat) (s : State) : OutKept s (execTgArm h gen sec ns frac period count width dest s) := by
  unfold execTgArm
  refine cmd_keeps fun r => ?_
  repeat' first
    | (simp [apply_ite State.kept, foldl_kept]; done)
    | split
theorem execTgExpertSet_kept (h : CmdHdr) (gen : Nat) (target : Raw) (fine : Nat) (period : Nat) (count : Nat) (width : Nat) (dest : Nat) (s : State) : OutKept s (execTgExpertSet h gen target fine period count width dest s) := by
  unfold execTgExpertSet
  refine cmd_keeps fun r => ?_
  repeat' first
    | (simp [apply_ite State.kept, foldl_kept]; done)
    | split
theorem execTgDisarm_kept (h : CmdHdr) (gen : Nat) (s : State) : OutKept s (execTgDisarm h gen s) := by
  unfold execTgDisarm
  refine cmd_keeps fun r => ?_
  repeat' first
    | (simp [apply_ite State.kept, foldl_kept]; done)
    | split
theorem execTgStatusGet_kept (h : CmdHdr) (gen : Nat) (s : State) : OutKept s (execTgStatusGet h gen s) := by
  unfold execTgStatusGet
  refine cmd_keeps fun r => ?_
  repeat' first
    | (simp [apply_ite State.kept, foldl_kept]; done)
    | split
theorem execTgFire_kept (gen : Nat) (s : State) : OutKept s (execTgFire gen s) := by
  unfold execTgFire
  refine onUnit_keeps (event_kept _ _ ?_)
  repeat' first
    | (simp [apply_ite State.kept, foldl_kept]; done)
    | split
theorem execTgPulseEnd_kept (gen : Nat) (s : State) : OutKept s (execTgPulseEnd gen s) := by
  unfold execTgPulseEnd
  refine onUnit_keeps (event_kept _ _ ?_)
  repeat' first
    | (simp [apply_ite State.kept, foldl_kept]; done)
    | split
theorem execTargetReconvert_kept (s : State) : OutKept s (execTargetReconvert s) := by
  unfold execTargetReconvert
  refine next_keeps (event_kept _ _ ?_)
  repeat' first
    | (simp [apply_ite State.kept, foldl_kept]; done)
    | split
theorem execCtxNop_kept (h : CmdHdr) (s : State) : OutKept s (execCtxNop h s) := by
  unfold execCtxNop
  refine cmd_keeps fun r => ?_
  repeat' first
    | (simp [apply_ite State.kept, foldl_kept]; done)
    | split
theorem execLevelSet_kept (h : CmdHdr) (level : Nat) (complement : Nat) (s : State) : OutKept s (execLevelSet h level complement s) := by
  unfold execLevelSet
  refine cmd_keeps fun r => ?_
  repeat' first
    | (simp [apply_ite State.kept, foldl_kept]; done)
    | split
theorem execCtxGet_kept (h : CmdHdr) (target : Nat) (s : State) : OutKept s (execCtxGet h target s) := by
  unfold execCtxGet
  refine cmd_keeps fun r => ?_
  repeat' first
    | (simp [apply_ite State.kept, foldl_kept]; done)
    | split
theorem execCtxBind_kept (h : CmdHdr) (target : Nat) (port : Nat) (vid : Nat) (mac : Nat) (unbind : Bool) (s : State) : OutKept s (execCtxBind h target port vid mac unbind s) := by
  unfold execCtxBind
  refine cmd_keeps fun r => ?_
  dsimp only
  repeat' first
    | (simp [apply_ite State.kept, foldl_kept]; done)
    | split
theorem execCtxKeySet_kept (h : CmdHdr) (target : Nat) (key : List Byte) (s : State) : OutKept s (execCtxKeySet h target key s) := by
  unfold execCtxKeySet
  refine cmd_keeps fun r => ?_
  repeat' first
    | (simp [apply_ite State.kept, foldl_kept]; done)
    | split
theorem execCtxReset_kept (h : CmdHdr) (target : Nat) (s : State) : OutKept s (execCtxReset h target s) := by
  unfold execCtxReset
  refine cmd_keeps fun r => ?_
  repeat' first
    | (simp [apply_ite State.kept, foldl_kept]; done)
    | split
theorem execReinTake_kept (h : CmdHdr) (lease : Nat) (reins : List Nat) (s : State) : OutKept s (execReinTake h lease reins s) := by
  unfold execReinTake
  refine cmd_keeps fun r => ?_
  repeat' first
    | (simp [apply_ite State.kept, foldl_kept]; done)
    | split
theorem execReinDrop_kept (h : CmdHdr) (reins : List Nat) (s : State) : OutKept s (execReinDrop h reins s) := by
  unfold execReinDrop
  refine cmd_keeps fun r => ?_
  repeat' first
    | (simp [apply_ite State.kept, foldl_kept]; done)
    | split
theorem execReinGet_kept (h : CmdHdr) (s : State) : OutKept s (execReinGet h s) := by
  unfold execReinGet
  refine cmd_keeps fun r => ?_
  repeat' first
    | (simp [apply_ite State.kept, foldl_kept]; done)
    | split
theorem execOwnSet_kept (h : CmdHdr) (kind : Nat) (first : Nat) (count : Nat) (owner : Nat) (s : State) : OutKept s (execOwnSet h kind first count owner s) := by
  unfold execOwnSet
  refine cmd_keeps fun r => ?_
  repeat' first
    | (simp [apply_ite State.kept, foldl_kept]; done)
    | split
theorem execOwnGet_kept (h : CmdHdr) (kind : Nat) (first : Nat) (count : Nat) (s : State) : OutKept s (execOwnGet h kind first count s) := by
  unfold execOwnGet
  refine cmd_keeps fun r => ?_
  repeat' first
    | (simp [apply_ite State.kept, foldl_kept]; done)
    | split
theorem execReinBreak_kept (h : CmdHdr) (reins : List Nat) (s : State) : OutKept s (execReinBreak h reins s) := by
  unfold execReinBreak
  refine cmd_keeps fun r => ?_
  repeat' first
    | (simp [apply_ite State.kept, foldl_kept]; done)
    | split
theorem execLeaseExpiry_kept  (s : State) : OutKept s (execLeaseExpiry  s) := by
  unfold execLeaseExpiry
  refine next_keeps ?_
  split
  · rw [foldl_kept]
    intro t r
    repeat' first
      | (simp; done)
      | split
  · rfl
theorem execHcxDoorbell_kept (c : Nat) (value : Word) (s : State) : OutKept s (execHcxDoorbell c value s) := by
  unfold execHcxDoorbell
  refine onUnit_keeps (event_kept _ _ ?_)
  repeat' first
    | (simp [apply_ite State.kept, foldl_kept]; done)
    | split
theorem execSqEntryRead_kept (c : Nat) (slot : List Byte) (s : State) : OutKept s (execSqEntryRead c slot s) := by
  unfold execSqEntryRead
  refine onUnit_keeps ?_
  repeat' first
    | (simp [apply_ite State.kept, foldl_kept]; done)
    | split
theorem execCqSlotFreed_kept (c : Nat) (head : Word) (s : State) : OutKept s (execCqSlotFreed c head s) := by
  unfold execCqSlotFreed
  refine onUnit_keeps (event_kept _ _ ?_)
  repeat' first
    | (simp [apply_ite State.kept, foldl_kept]; done)
    | split
theorem execQueueDmaError_kept (c : Nat) (onReply : Bool) (s : State) : OutKept s (execQueueDmaError c onReply s) := by
  unfold execQueueDmaError
  refine onUnit_keeps (event_kept _ _ ?_)
  repeat' first
    | (simp [apply_ite State.kept, foldl_kept]; done)
    | split
theorem execSpiWrite_kept (c : Nat) (bytes : List Byte) (s : State) : OutKept s (execSpiWrite c bytes s) := by
  unfold execSpiWrite
  refine onUnit_keeps (event_kept _ _ ?_)
  repeat' first
    | (simp [apply_ite State.kept, foldl_kept]; done)
    | split
theorem execSpiRead_kept (c : Nat) (clocked : Nat) (s : State) : OutKept s (execSpiRead c clocked s) := by
  unfold execSpiRead
  refine onUnit_keeps (event_kept _ _ ?_)
  repeat' first
    | (simp [apply_ite State.kept, foldl_kept]; done)
    | split
theorem execSpiStatus_kept (c : Nat) (s : State) : OutKept s (execSpiStatus c s) := by
  unfold execSpiStatus
  refine onUnit_keeps (event_kept _ _ ?_)
  repeat' first
    | (simp [apply_ite State.kept, foldl_kept]; done)
    | split
theorem execSpiReset_kept (c : Nat) (second : Byte) (s : State) : OutKept s (execSpiReset c second s) := by
  unfold execSpiReset
  refine onUnit_keeps (event_kept _ _ ?_)
  repeat' first
    | (simp [apply_ite State.kept, foldl_kept]; done)
    | split
theorem execSpiVoidTransaction_kept (c : Nat) (s : State) : OutKept s (execSpiVoidTransaction c s) := by
  unfold execSpiVoidTransaction
  refine onUnit_keeps (event_kept _ _ ?_)
  repeat' first
    | (simp [apply_ite State.kept, foldl_kept]; done)
    | split
theorem execInBandCommandFrame_kept (port : Nat) (frame : List Byte) (s : State) : OutKept s (execInBandCommandFrame port frame s) := by
  unfold execInBandCommandFrame
  refine onUnit_keeps ?_
  repeat' first
    | (simp; done)
    | dsimp only
    | split
theorem execEventFrameRepeat_kept (c : Nat) (s : State) : OutKept s (execEventFrameRepeat c s) := by
  unfold execEventFrameRepeat
  refine onUnit_keeps ?_
  repeat' first
    | (simp [apply_ite State.kept, foldl_kept]; done)
    | split
theorem execPcieFlr_kept (c : Nat) (s : State) : OutKept s (execPcieFlr c s) := by
  unfold execPcieFlr
  refine onUnit_keeps (event_kept _ _ ?_)
  repeat' first
    | (simp [apply_ite State.kept, foldl_kept]; done)
    | split
theorem execPcieLinkLoss_kept (s : State) : OutKept s (execPcieLinkLoss s) := by
  unfold execPcieLinkLoss
  refine next_keeps (event_kept _ _ ?_)
  repeat' first
    | (simp [apply_ite State.kept, foldl_kept]; done)
    | split
theorem execPerstNAssert_kept (s : State) : OutKept s (execPerstNAssert s) := by
  unfold execPerstNAssert
  refine next_keeps (event_kept _ _ ?_)
  repeat' first
    | (simp [apply_ite State.kept, foldl_kept]; done)
    | split
theorem execSysGet_kept (h : CmdHdr) (s : State) : OutKept s (execSysGet h s) := by
  unfold execSysGet
  refine cmd_keeps fun r => ?_
  repeat' first
    | (simp [apply_ite State.kept, foldl_kept]; done)
    | split
theorem execSensorGet_kept (h : CmdHdr) (s : State) : OutKept s (execSensorGet h s) := by
  unfold execSensorGet
  refine cmd_keeps fun r => ?_
  repeat' first
    | (simp [apply_ite State.kept, foldl_kept]; done)
    | split
theorem execFreeze_kept (h : CmdHdr) (s : State) : OutKept s (execFreeze h s) := by
  unfold execFreeze
  refine cmd_keeps fun r => ?_
  repeat' first
    | (simp [apply_ite State.kept, foldl_kept]; done)
    | split
theorem execUpdateBegin_kept (h : CmdHdr) (length : Nat) (s : State) : OutKept s (execUpdateBegin h length s) := by
  unfold execUpdateBegin
  refine cmd_keeps fun r => ?_
  repeat' first
    | (simp [apply_ite State.kept, foldl_kept]; done)
    | split
theorem execUpdateEraseDone_kept (s : State) : OutKept s (execUpdateEraseDone s) := by
  unfold execUpdateEraseDone
  refine next_keeps ?_
  repeat' first
    | (simp [apply_ite State.kept, foldl_kept]; done)
    | split
theorem execUpdateData_kept (h : CmdHdr) (offset : Nat) (data : List Byte) (s : State) : OutKept s (execUpdateData h offset data s) := by
  unfold execUpdateData
  refine cmd_keeps fun r => ?_
  repeat' first
    | (simp [apply_ite State.kept, foldl_kept]; done)
    | split
theorem execUpdateCommit_kept (h : CmdHdr) (restart : Bool) (s : State) : OutKept s (execUpdateCommit h restart s) := by
  unfold execUpdateCommit
  refine cmd_keeps fun r => ?_
  repeat' first
    | (simp [apply_ite State.kept, foldl_kept]; done)
    | split
theorem execUpdateVerifyDone_kept (sigOk : Bool) (s : State) : OutKept s (execUpdateVerifyDone sigOk s) := by
  unfold execUpdateVerifyDone
  refine next_keeps ?_
  repeat' first
    | (simp [apply_ite State.kept, foldl_kept]; done)
    | split
theorem execUpdateAbort_kept (h : CmdHdr) (s : State) : OutKept s (execUpdateAbort h s) := by
  unfold execUpdateAbort
  refine cmd_keeps fun r => ?_
  repeat' first
    | (simp [apply_ite State.kept, foldl_kept]; done)
    | split
theorem execUpdateStatusGet_kept (h : CmdHdr) (s : State) : OutKept s (execUpdateStatusGet h s) := by
  unfold execUpdateStatusGet
  refine cmd_keeps fun r => ?_
  repeat' first
    | (simp [apply_ite State.kept, foldl_kept]; done)
    | split
theorem execCfgSave_kept (h : CmdHdr) (s : State) : OutKept s (execCfgSave h s) := by
  unfold execCfgSave
  refine cmd_keeps fun r => ?_
  repeat' first
    | (simp [apply_ite State.kept, foldl_kept]; done)
    | split
theorem execCfgFactory_kept (h : CmdHdr) (s : State) : OutKept s (execCfgFactory h s) := by
  unfold execCfgFactory
  refine cmd_keeps fun r => ?_
  repeat' first
    | (simp [apply_ite State.kept, foldl_kept]; done)
    | split
theorem execStoreStatusGet_kept (h : CmdHdr) (s : State) : OutKept s (execStoreStatusGet h s) := by
  unfold execStoreStatusGet
  refine cmd_keeps fun r => ?_
  repeat' first
    | (simp [apply_ite State.kept, foldl_kept]; done)
    | split
theorem execStoreWriteDone_kept (s : State) : OutKept s (execStoreWriteDone s) := by
  unfold execStoreWriteDone
  refine next_keeps ?_
  repeat' first
    | (simp [apply_ite State.kept, foldl_kept]; done)
    | split
theorem execSavedStateHourlyWrite_kept (s : State) : OutKept s (execSavedStateHourlyWrite s) := by
  unfold execSavedStateHourlyWrite
  refine next_keeps ?_
  repeat' first
    | (simp [apply_ite State.kept, foldl_kept]; done)
    | split
theorem execLogRead_kept (h : CmdHdr) (first : Nat) (max : Nat) (s : State) : OutKept s (execLogRead h first max s) := by
  unfold execLogRead
  refine cmd_keeps fun r => ?_
  repeat' first
    | (simp [apply_ite State.kept, foldl_kept]; done)
    | split
theorem execLogSet_kept (h : CmdHdr) (mask : BitVec 256) (s : State) : OutKept s (execLogSet h mask s) := by
  unfold execLogSet
  refine cmd_keeps fun r => ?_
  repeat' first
    | (simp [apply_ite State.kept, foldl_kept]; done)
    | split
theorem execLogSuppressReport_kept (s : State) : OutKept s (execLogSuppressReport s) := by
  unfold execLogSuppressReport
  refine next_keeps ?_
  repeat' first
    | (simp [apply_ite State.kept, foldl_kept]; done)
    | split
theorem execBoot_kept (sigOk0 sigOk1 : Bool) (s : State) : OutKept s (execBoot sigOk0 sigOk1 s) := by
  unfold execBoot
  refine next_keeps ?_
  repeat' first
    | (simp; done)
    | dsimp only
    | split
theorem execFirmwareReady_kept (s : State) : OutKept s (execFirmwareReady s) := by
  unfold execFirmwareReady
  refine next_keeps ?_
  repeat' first
    | (simp [apply_ite State.kept, foldl_kept]; done)
    | split
theorem execBootConfirm_kept (s : State) : OutKept s (execBootConfirm s) := by
  unfold execBootConfirm
  refine next_keeps ?_
  repeat' first
    | (simp [apply_ite State.kept, foldl_kept]; done)
    | split
theorem execFirmwareStop_kept (s : State) : OutKept s (execFirmwareStop s) := by
  unfold execFirmwareStop
  refine next_keeps ?_
  repeat' first
    | (simp [apply_ite State.kept, foldl_kept]; done)
    | split
theorem execWatchdogRestart_kept (s : State) : OutKept s (execWatchdogRestart s) := by
  unfold execWatchdogRestart
  refine next_keeps ?_
  repeat' first
    | (simp [apply_ite State.kept, foldl_kept]; done)
    | split
theorem execFrzNAssert_kept (ns : Nat) (s : State) : OutKept s (execFrzNAssert ns s) := by
  unfold execFrzNAssert
  refine next_keeps (event_kept _ _ ?_)
  repeat' first
    | (simp [apply_ite State.kept, foldl_kept]; done)
    | split
theorem execFeedPresenceChange_kept (feed : Nat) (mv : Nat) (s : State) : OutKept s (execFeedPresenceChange feed mv s) := by
  unfold execFeedPresenceChange
  refine onUnit_keeps ?_
  repeat' first
    | (simp [apply_ite State.kept, foldl_kept]; done)
    | split
theorem execFeedLockout_kept (feed : Nat) (s : State) : OutKept s (execFeedLockout feed s) := by
  unfold execFeedLockout
  refine onUnit_keeps ?_
  repeat' first
    | (simp [apply_ite State.kept, foldl_kept]; done)
    | split
theorem execFeedLockoutEnd_kept (feed : Nat) (s : State) : OutKept s (execFeedLockoutEnd feed s) := by
  unfold execFeedLockoutEnd
  refine onUnit_keeps ?_
  repeat' first
    | (simp [apply_ite State.kept, foldl_kept]; done)
    | split
theorem execFeedForce_kept (h : CmdHdr) (sel : Nat) (s : State) : OutKept s (execFeedForce h sel s) := by
  unfold execFeedForce
  refine cmd_keeps fun r => ?_
  repeat' first
    | (simp [apply_ite State.kept, foldl_kept]; done)
    | split
theorem execTapBypass_kept (s : State) : OutKept s (execTapBypass s) := by
  unfold execTapBypass
  refine next_keeps ?_
  repeat' first
    | (simp [apply_ite State.kept, foldl_kept]; done)
    | split
theorem execTapExtest_kept (s : State) : OutKept s (execTapExtest s) := by
  unfold execTapExtest
  refine next_keeps ?_
  repeat' first
    | (simp [apply_ite State.kept, foldl_kept]; done)
    | split
theorem execTapIdcode_kept (s : State) : OutKept s (execTapIdcode s) := by
  unfold execTapIdcode
  refine next_keeps ?_
  repeat' first
    | (simp [apply_ite State.kept, foldl_kept]; done)
    | split
theorem execTapSamplePreload_kept (s : State) : OutKept s (execTapSamplePreload s) := by
  unfold execTapSamplePreload
  refine next_keeps ?_
  repeat' first
    | (simp [apply_ite State.kept, foldl_kept]; done)
    | split
theorem execTapFrzStatus_kept (s : State) : OutKept s (execTapFrzStatus s) := by
  unfold execTapFrzStatus
  refine next_keeps ?_
  repeat' first
    | (simp [apply_ite State.kept, foldl_kept]; done)
    | split
theorem execTapWaferRead_kept (bits : Nat) (s : State) : OutKept s (execTapWaferRead bits s) := by
  unfold execTapWaferRead
  refine next_keeps ?_
  repeat' first
    | (simp [apply_ite State.kept, foldl_kept]; done)
    | split
theorem execTapMemAddr_kept (addr : Word) (s : State) : OutKept s (execTapMemAddr addr s) := by
  unfold execTapMemAddr
  refine next_keeps ?_
  repeat' first
    | (simp [apply_ite State.kept, foldl_kept]; done)
    | split
theorem execTapMemRead_kept (words : Nat) (s : State) : OutKept s (execTapMemRead words s) := by
  unfold execTapMemRead
  refine next_keeps ?_
  repeat' first
    | (simp [apply_ite State.kept, foldl_kept]; done)
    | split
theorem execSensorRead_kept (r : Sensors) (s : State) : OutKept s (execSensorRead r s) := by
  unfold execSensorRead
  refine next_keeps ?_
  repeat' first
    | (simp [apply_ite State.kept, foldl_kept]; done)
    | split
theorem execTimeGet_kept (h : CmdHdr) (s : State) : OutKept s (execTimeGet h s) := by
  unfold execTimeGet
  refine cmd_keeps fun r => ?_
  repeat' first
    | (simp [apply_ite State.kept, foldl_kept]; done)
    | split
theorem execTimeDomSet_kept (h : CmdHdr) (dom : Nat) (number : Nat) (profile : Nat) (s : State) : OutKept s (execTimeDomSet h dom number profile s) := by
  unfold execTimeDomSet
  refine cmd_keeps fun r => ?_
  dsimp only
  repeat' first
    | (simp [apply_ite State.kept, foldl_kept]; done)
    | split
theorem execTimeConvert_kept (h : CmdHdr) (raws : List Raw) (s : State) : OutKept s (execTimeConvert h raws s) := by
  unfold execTimeConvert
  refine cmd_keeps fun r => ?_
  repeat' first
    | (simp [apply_ite State.kept, foldl_kept]; done)
    | split
theorem execTimePortSet_kept (h : CmdHdr) (port : Nat) (profile : Nat) (flags : Nat) (logSync : Int) (logAnnounce : Int) (logDelay : Int) (announceTmo : Nat) (s : State) : OutKept s (execTimePortSet h port profile flags logSync logAnnounce logDelay announceTmo s) := by
  unfold execTimePortSet
  refine cmd_keeps fun r => ?_
  repeat' first
    | (simp [apply_ite State.kept, foldl_kept]; done)
    | split
theorem execTimePortGet_kept (h : CmdHdr) (port : Nat) (s : State) : OutKept s (execTimePortGet h port s) := by
  unfold execTimePortGet
  refine cmd_keeps fun r => ?_
  repeat' first
    | (simp [apply_ite State.kept, foldl_kept]; done)
    | split
theorem execTimeSwitch_kept (h : CmdHdr) (atSec : Option Nat) (s : State) : OutKept s (execTimeSwitch h atSec s) := by
  unfold execTimeSwitch
  refine cmd_keeps fun r => ?_
  repeat' first
    | (simp [apply_ite State.kept, foldl_kept]; done)
    | split
theorem execTimeSwitchForce_kept (h : CmdHdr) (atSec : Option Nat) (s : State) : OutKept s (execTimeSwitchForce h atSec s) := by
  unfold execTimeSwitchForce
  refine cmd_keeps fun r => ?_
  repeat' first
    | (simp [apply_ite State.kept, foldl_kept]; done)
    | split
theorem execTimeSwitchCancel_kept (h : CmdHdr) (s : State) : OutKept s (execTimeSwitchCancel h s) := by
  unfold execTimeSwitchCancel
  refine cmd_keeps fun r => ?_
  repeat' first
    | (simp [apply_ite State.kept, foldl_kept]; done)
    | split
theorem execTimeDomReset_kept (h : CmdHdr) (dom : Nat) (s : State) : OutKept s (execTimeDomReset h dom s) := by
  unfold execTimeDomReset
  refine cmd_keeps fun r => ?_
  repeat' first
    | (simp [apply_ite State.kept, foldl_kept]; done)
    | split
theorem execTimeExpertSet_kept (h : CmdHdr) (slew : Word) (limit : Word) (servoA : Word) (servoB : Word) (lockA : Word) (lockB : Word) (traceHold : Nat) (s : State) : OutKept s (execTimeExpertSet h slew limit servoA servoB lockA lockB traceHold s) := by
  unfold execTimeExpertSet
  refine cmd_keeps fun r => ?_
  repeat' first
    | (simp [apply_ite State.kept, foldl_kept]; done)
    | dsimp only
    | split
theorem execTimeEpochReset_kept (h : CmdHdr) (s : State) : OutKept s (execTimeEpochReset h s) := by
  unfold execTimeEpochReset
  refine cmd_keeps fun r => ?_
  repeat' first
    | (simp; done)
    | dsimp only
    | split
theorem execTimeLinkSet_kept (h : CmdHdr) (port profile : Nat) (fast noUpstream : Bool) (s : State) : OutKept s (execTimeLinkSet h port profile fast noUpstream s) := by
  unfold execTimeLinkSet
  refine cmd_keeps fun r => ?_
  repeat' first
    | (simp; done)
    | dsimp only
    | split
theorem execTimeLinkGet_kept (h : CmdHdr) (port : Nat) (s : State) : OutKept s (execTimeLinkGet h port s) := by
  unfold execTimeLinkGet
  refine cmd_keeps fun r => ?_
  repeat' first
    | (simp [apply_ite State.kept, foldl_kept]; done)
    | split
theorem execTimeGmSet_kept (h : CmdHdr) (dom : Nat) (flags : Nat) (prio1 : Nat) (prio2 : Nat) (cls : Nat) (accuracy : Nat) (utcOffset : Int) (initSec : Nat) (initNs : Nat) (initGiven : Bool) (s : State) : OutKept s (execTimeGmSet h dom flags prio1 prio2 cls accuracy utcOffset initSec initNs initGiven s) := by
  unfold execTimeGmSet
  refine cmd_keeps fun r => ?_
  dsimp only
  repeat' first
    | (simp [apply_ite State.kept, foldl_kept]; done)
    | split
theorem execTimeLinkExpertSet_kept (h : CmdHdr) (port : Nat) (alpha : Int) (delta : Int) (en : Bool) (s : State) : OutKept s (execTimeLinkExpertSet h port alpha delta en s) := by
  unfold execTimeLinkExpertSet
  refine cmd_keeps fun r => ?_
  repeat' first
    | (simp [apply_ite State.kept, foldl_kept]; done)
    | dsimp only
    | split
theorem execFirstLockTimeout_kept (dom : Nat) (s : State) : OutKept s (execFirstLockTimeout dom s) := by
  unfold execFirstLockTimeout
  refine onUnit_keeps (event_kept _ _ ?_)
  repeat' first
    | (simp [apply_ite State.kept, foldl_kept]; done)
    | split
theorem execTraceHoldExpiry_kept (dom : Nat) (s : State) : OutKept s (execTraceHoldExpiry dom s) := by
  unfold execTraceHoldExpiry
  refine onUnit_keeps (event_kept _ _ ?_)
  repeat' first
    | (simp [apply_ite State.kept, foldl_kept]; done)
    | split
theorem execTimeSwitchStart_kept  (s : State) : OutKept s (execTimeSwitchStart  s) := by
  unfold execTimeSwitchStart
  refine next_keeps (event_kept _ _ ?_)
  split
  · rfl
  · split
    · split
      · rename_i hu
        simp [switchTo_kept _ _ _ _ hu]
      · simp
    · rfl
theorem execSlewEnd_kept (s : State) : OutKept s (execSlewEnd s) := by
  unfold execSlewEnd
  refine next_keeps (event_kept _ _ ?_)
  repeat' first
    | (simp [apply_ite State.kept, foldl_kept]; done)
    | split
theorem execPpsAlignMeasure_kept (dom : Nat) (edge : Nat) (s : State) : OutKept s (execPpsAlignMeasure dom edge s) := by
  unfold execPpsAlignMeasure
  refine onUnit_keeps (event_kept _ _ ?_)
  repeat' first
    | (simp [apply_ite State.kept, foldl_kept]; done)
    | split
theorem execTimeReqSend_kept (port : Nat) (at_ : Nat) (s : State) : OutKept s (execTimeReqSend port at_ s) := by
  unfold execTimeReqSend
  refine onUnit_keeps (event_kept _ _ ?_)
  repeat' first
    | (simp [apply_ite State.kept, foldl_kept]; done)
    | dsimp only
    | split
theorem execTimeReqReceive_kept (port : Nat) (words : List Nat) (t2 : RxStamp) (t3 : Nat) (s : State) :
    OutKept s (execTimeReqReceive port words t2 t3 s) := by
  unfold execTimeReqReceive
  refine onUnit_keeps (event_kept _ _ (timeMsg_kept _ _ _ _ _ ?_))
  dsimp only
  split <;> simp
theorem execTimeRespReceive_kept (port : Nat) (words : List Nat) (t4 : RxStamp) (s : State) :
    OutKept s (execTimeRespReceive port words t4 s) := by
  unfold execTimeRespReceive
  refine onUnit_keeps (event_kept _ _ (timeMsg_kept _ _ _ _ _ ?_))
  dsimp only
  split <;> simp
theorem execExchangeLost_kept (port : Nat) (s : State) : OutKept s (execExchangeLost port s) := by
  unfold execExchangeLost
  refine onUnit_keeps (event_kept _ _ ?_)
  repeat' first
    | (simp [apply_ite State.kept, foldl_kept]; done)
    | split
theorem execInfoSend_kept (port dom : Nat) (s : State) : OutKept s (execInfoSend port dom s) := by
  unfold execInfoSend
  refine onUnit_keeps (onUnitS_kept _ _ _ _ _ (event_kept _ _ ?_) rfl)
  repeat' first
    | (simp; done)
    | dsimp only
    | split
theorem execInfoReceive_kept (port : Nat) (words : List Nat) (s : State) : OutKept s (execInfoReceive port words s) := by
  unfold execInfoReceive
  refine onUnit_keeps (event_kept _ _ (timeMsg_kept _ _ _ _ _ ?_))
  repeat' first
    | (simp; done)
    | dsimp only
    | split
theorem execInfoVoid_kept (port dom : Nat) (s : State) : OutKept s (execInfoVoid port dom s) := by
  unfold execInfoVoid
  refine onUnit_keeps (onUnitS_kept _ _ _ _ _ (event_kept _ _ ?_) rfl)
  repeat' first
    | (simp; done)
    | dsimp only
    | split
theorem execUpstreamSelect_kept (dom : Nat) (s : State) : OutKept s (execUpstreamSelect dom s) := by
  unfold execUpstreamSelect
  refine onUnit_keeps ?_
  repeat' first
    | (simp [apply_ite State.kept, foldl_kept]; done)
    | split
theorem execUpstreamChange_kept (dom : Nat) (s : State) : OutKept s (execUpstreamChange dom s) := by
  unfold execUpstreamChange
  refine onUnit_keeps ?_
  repeat' first
    | (simp [apply_ite State.kept, foldl_kept]; done)
    | split
theorem execVernierFitLoss_kept (port : Nat) (s : State) : OutKept s (execVernierFitLoss port s) := by
  unfold execVernierFitLoss
  refine onUnit_keeps (event_kept _ _ ?_)
  repeat' first
    | (simp [apply_ite State.kept, foldl_kept]; done)
    | split
theorem execFineValidReturn_kept (port : Nat) (s : State) : OutKept s (execFineValidReturn port s) := by
  unfold execFineValidReturn
  refine onUnit_keeps (event_kept _ _ ?_)
  repeat' first
    | (simp [apply_ite State.kept, foldl_kept]; done)
    | split
theorem execPtpMessageReceive_kept (port : Nat) (msg : PtpMsg) (s : State) : OutKept s (execPtpMessageReceive port msg s) := by
  unfold execPtpMessageReceive
  refine onUnit_keeps (event_kept _ _ ?_)
  split <;> simp
theorem execPtpIntervalSend_kept (port : Nat) (kind : PtpKind) (dom : Nat) (s : State) : OutKept s (execPtpIntervalSend port kind dom s) := by
  unfold execPtpIntervalSend
  refine onUnit_keeps (onUnitS_kept _ _ _ _ _ (event_kept _ _ ?_) rfl)
  repeat' first
    | (simp; done)
    | split
theorem execPtpAnnounceSend_kept (port dom : Nat) (s : State) : OutKept s (execPtpAnnounceSend port dom s) := by
  unfold execPtpAnnounceSend
  refine onUnit_keeps (onUnitS_kept _ _ _ _ _ ?_ rfl)
  repeat' first
    | (simp; done)
    | dsimp only
    | split
theorem execAnnounceReceiptTimeout_kept (port : Nat) (s : State) : OutKept s (execAnnounceReceiptTimeout port s) := by
  unfold execAnnounceReceiptTimeout
  refine onUnit_keeps ?_
  repeat' first
    | (simp [apply_ite State.kept]; done)
    | dsimp only
    | split
theorem execRegRead_kept (h : CmdHdr) (addr : Nat) (count : Nat) (s : State) : OutKept s (execRegRead h addr count s) := by
  unfold execRegRead
  refine cmd_keeps fun r => ?_
  repeat' first
    | (simp [apply_ite State.kept, foldl_kept]; done)
    | split
theorem execEvtGet_kept (h : CmdHdr) (s : State) : OutKept s (execEvtGet h s) := by
  unfold execEvtGet
  refine cmd_keeps fun r => ?_
  repeat' first
    | (simp [apply_ite State.kept, foldl_kept]; done)
    | split
theorem execEvtClear_kept (h : CmdHdr) (bits : List Word) (s : State) : OutKept s (execEvtClear h bits s) := by
  unfold execEvtClear
  refine cmd_keeps fun r => ?_
  simp [foldl_kept]
theorem execEvtMaskSet_kept (h : CmdHdr) (masks : List Word) (cfg : Word) (s : State) : OutKept s (execEvtMaskSet h masks cfg s) := by
  unfold execEvtMaskSet
  refine cmd_keeps fun r => ?_
  repeat' first
    | (simp [apply_ite State.kept, foldl_kept]; done)
    | split
theorem execEvtRouteSet_kept (h : CmdHdr) (first : Nat) (routes : List Nat) (s : State) : OutKept s (execEvtRouteSet h first routes s) := by
  unfold execEvtRouteSet
  refine cmd_keeps fun r => ?_
  repeat' first
    | (simp [apply_ite State.kept, foldl_kept]; done)
    | split
theorem execDgPairTimeout_kept (c : Nat) (s : State) : OutKept s (execDgPairTimeout c s) := by
  unfold execDgPairTimeout
  refine onUnit_keeps (event_kept _ _ ?_)
  repeat' first
    | (simp [apply_ite State.kept, foldl_kept]; done)
    | split
theorem execPairLoRead_kept (c : Nat) (addr : Nat) (s : State) : OutKept s (execPairLoRead c addr s) := by
  unfold execPairLoRead
  refine onUnit_keeps (event_kept _ _ ?_)
  repeat' first
    | (simp [apply_ite State.kept, foldl_kept]; done)
    | split
theorem execTsuRawLoRead_kept (c : Nat) (s : State) : OutKept s (execTsuRawLoRead c s) := by
  unfold execTsuRawLoRead
  refine onUnit_keeps (event_kept _ _ ?_)
  repeat' first
    | (simp [apply_ite State.kept, foldl_kept]; done)
    | split
theorem execTsuGenRead_kept (c dom : Nat) (s : State) : OutKept s (execTsuGenRead c dom s) := by
  unfold execTsuGenRead
  exact onUnit_keeps (event_kept _ _ (onUnitS_kept _ _ _ _ _ (access_kept _ _ _) rfl))
theorem execFtRawLoRead_kept (c : Nat) (s : State) : OutKept s (execFtRawLoRead c s) := by
  unfold execFtRawLoRead
  refine onUnit_keeps (event_kept _ _ ?_)
  repeat' first
    | (simp [apply_ite State.kept, foldl_kept]; done)
    | split
theorem execFtGenRead_kept (c : Nat) (dom : Nat) (s : State) : OutKept s (execFtGenRead c dom s) := by
  unfold execFtGenRead
  refine onUnit_keeps (event_kept _ _ ?_)
  repeat' first
    | (simp [apply_ite State.kept, foldl_kept]; done)
    | split
theorem execPortHalterRx0Read_kept (c port : Nat) (s : State) : OutKept s (execPortHalterRx0Read c port s) := by
  unfold execPortHalterRx0Read
  exact onUnit_keeps (event_kept _ _ (onUnitS_kept _ _ _ _ _ (access_kept _ _ _) rfl))
theorem execPmcChainRead_kept (c m : Nat) (s : State) : OutKept s (execPmcChainRead c m s) := by
  unfold execPmcChainRead
  exact onUnit_keeps (event_kept _ _ (onUnitS_kept _ _ _ _ _ (access_kept _ _ _) rfl))
theorem execTblLrnPop_kept (c queue : Nat) (s : State) : OutKept s (execTblLrnPop c queue s) := by
  unfold execTblLrnPop
  exact onUnit_keeps (event_kept _ _ (onUnitS_kept _ _ _ _ _ (access_kept _ _ _) rfl))
theorem execIuResPop_kept (c unit : Nat) (s : State) : OutKept s (execIuResPop c unit s) := by
  unfold execIuResPop
  exact onUnit_keeps (event_kept _ _ (onUnitS_kept _ _ _ _ _ (access_kept _ _ _) rfl))
theorem execEventHoldoffExpiry_kept (c : Nat) (s : State) : OutKept s (execEventHoldoffExpiry c s) := by
  unfold execEventHoldoffExpiry
  refine onUnit_keeps (event_kept _ _ ?_)
  repeat' first
    | (simp [apply_ite State.kept, foldl_kept]; done)
    | split
theorem execPmuCounterWrap_kept (m : Nat) (s : State) : OutKept s (execPmuCounterWrap m s) := by
  unfold execPmuCounterWrap
  refine onUnit_keeps (event_kept _ _ ?_)
  repeat' first
    | (simp [apply_ite State.kept, foldl_kept]; done)
    | split
theorem execFixedCounterWrap_kept (n : Nat) (s : State) : OutKept s (execFixedCounterWrap n s) := by
  unfold execFixedCounterWrap
  refine onUnit_keeps (event_kept _ _ ?_)
  repeat' first
    | (simp [apply_ite State.kept, foldl_kept]; done)
    | split

end Sys2Proof.Machine
end

