-- ==== Sys2Proof/Machine/Pins.lean ====
section
/-! DEFINITION. What the module drives on its pins, as the state shows it (R66, R84, R324 to R326, R401). No command writes a
pin: each is a function of the state. -/

namespace Sys2Proof.Machine

/-- What stands on an output of the module. -/
inductive Drive
  | high | low
  /-- High impedance, or an open-drain pin released. -/
  | released
  /-- A laser or a line driver that sends. -/
  | lit
  /-- A dark laser, or a lane at common mode. -/
  | dark
deriving DecidableEq, Repr

/-- INTn_N: asserted while a context mapped to it has a routed, unmasked event status bit set (R326). -/
def State.intPin (s : State) (n : Nat) : Drive :=
  if s.live && [4, 5].any (fun c => decide (s.fld (Reg.hcxIntPin c) 0 2 = n) && s.evtPending c) then .low else .released

/-- HRDYx_N of HC4 and HC5: asserted while fewer than two commands are held and the firmware is ready (R325). -/
def State.hrdyPin (s : State) (c : Nat) : Drive :=
  if !s.live then .released else if s.spiFull c then .high else .low

/-- The transmitter of an external port (R66, R84, R401): an M port that does not send releases its pair. -/
def State.portPin (s : State) (p : Nat) : Drive :=
  if p < 24 then (if s.txOn p then .lit else .dark)
  else if s.txOn p && (Tab.get (fun _ => {}) s.sw.mtx p).sending then .lit else .released

/-- The termination of an M port is connected: outside reset and the freeze, while term_en is 1 (R82, R84). -/
def State.terminated (s : State) (p : Nat) : Bool :=
  decide (24 ≤ p) && decide (p < 28) && s.live && s.bitAt (Reg.portPhyCtrl p) 2

/-- TIOn (R296, R315, R401): a pin claimed as the output of a generator carries its pulse with its polarity; others are not
driven. -/
def State.tioPin (s : State) (n : Nat) : Drive :=
  if !s.live || s.fld (Reg.tioBridle n) 0 4 ≠ 4 then .released
  else
    let g := s.fld (Reg.tioBridle n) 4 4
    if (s.gen g).pulse.isSome != s.bitAt (Reg.tgCtrl g) 4 then .high else .low

end Sys2Proof.Machine
end

