-- ==== Sys2Proof/Tests/Slice0.lean ====
section
/-! SUPPORT. The model's own tests: ill-formed terms, worked figures of the spec, a few meanings, and for each obligation a state and
operands that meet the hypotheses of its clauses (at a boundary of their ranges). -/

namespace Sys2Proof.Tests

open Sys2Proof Sys2Proof.Machine

set_option Elab.async false

/-! ## Small states -/

/-- The block out of reset with its firmware ready; HC0 is at level EXPERT. -/
def base : State :=
  (({ State.reset with life := .up } : State).onMgt fun m => { m with fw := .ready }).onCx 0 fun x => { x with expert := true }

/-- A header of HC0 that asks for a reply. -/
def hd (x : Bool) : CmdHdr := { ctx := 0, tag := 1, ackreq := true, expert := x }

/-- A later raw time and uptime. -/
def later (s : State) : State := { s with raw := 1000000000000, uptime := 1000000000000 }

/-- Port `p` enabled, its synthesiser locked, UP, in line state 3, with a valid halter. -/
def link (p : Nat) : State :=
  ((((base.wr (Reg.portPhyCtrl p) 1).wr (Reg.clkSynStat (groupOf p)) 1).setFld (Reg.portLineStat p) 0 3 3).wr (Reg.portHalterStat p) 1).onPt p
    fun x => { x with up := true }

/-- The same port out of UP, in line state `n`. -/
def lineAt (p n : Nat) : State := ((link p).setFld (Reg.portLineStat p) 0 3 n).onPt p fun x => { x with up := false }

/-- HC0 holds reins 0 to 63. -/
def reined (s : State) : State := { s with reins := (List.range 64).map fun r => (r, some { holder := 0, lease := 2000, ends := 5000000000 }) }

/-- A pair of a guarded register waits in HC0. -/
def paired (a : Nat) (v : Word) : State := base.onCx 0 fun x => { x with guard := some { addr := a, value := v, raw := 0 } }

/-- A frame of 64 bytes. -/
def frm : Machine.Frm :=
  { bytes := List.replicate 64 0, ingress := 0, cls := 0, ts := 0, sub := 0, vid := 1, pcp := 0, plain := true, sample := 0, big := false,
    deadline := 0, tsReq := none, refs := 1, pool := 0 }

/-- The cycle engine runs on generator 0 in domain A, which is LOCKED. -/
def engine (st : Nat) : State :=
  (((base.wr Reg.cycCtrl 0x101).wr Reg.cycStat (w32 st)).wr Reg.cycPeriod 78125).wr Reg.cycPeriodPend 78125 |>.wr (Reg.tsuDom 0) 2

/-- An active outbound and an active inbound slot 4095 of 16 bytes. -/
def slots (s : State) : State := s.onCyc fun x => { x with act :=
  { x.act with osl := [(4095, { valid := true, size := 16, poff := 0 })], isl := [(4095, { valid := true, size := 16, poff := 16 })] } }

/-- A result of an interval unit. -/
def res : IuRes := { flags := 1, seq := 0, startFine := 0, startRaw := 1, stopFine := 0, stopRaw := 2, interval := 512, epoch := 0 }

/-- An update session in its state `n`. -/
def session (n : Nat) (u : Update) : State := (base.setFld Reg.mgtUpdStat 0 3 n).onMgt fun m => { m with update := some u }

/-- A dynamic filtering entry with hit flag `x`. -/
def ent (x : Bool) : FdbEnt := { mac := 2, fid := 4095, stat := false, hit := x, mc := false, dest := 1 }

/-- An answer, an INFO message, a PTP message. -/
def resp : RespMsg := { echo := 0, fine := true, t2 := 0, t2f := 0, t3 := 25000, t3f := 0, a := { valid := false, n := 0, f := 0 }, b := { valid := false, n := 0, f := 0 } }
def info : InfoMsg := {}
def ptpm : PtpMsg := { kind := .announce, domain := 0, seq := 0, twoStep := false, time := 0, corr := 0, stamp := 0, parent := 0, info := {} }

/-- A session that awaits its data, and one whose image has a right header. -/
def upd : Update := { ctx := 0, length := 64, bank := 1, data := [], restart := false }
def img : Update := { ctx := 0, length := 20, bank := 1, data := [0xA0, 0xF1, 0x32, 0x5B, 0, 0, 0, 0, 20, 0, 0, 0, 0, 0, 0, 0, 0, 0, 0, 0], restart := false }

/-- The same image for hardware of revision 255. -/
def img2 : Update := { img with data := img.data.set 16 255 }

/-- A log record, a learn record. -/
def logr : LogRec := { seq := 1, uptime := 0, sec := 0, ns := 0, flags := 0, epoch := 0, source := 1, code := 1, args := [] }
def lrn : LearnRec := { vid := 1, flags := 0, port := 0, old := 0, fid := 0, mac := 2, seq := 0, raw := 0 }

/-- Words with their CRC. -/
def crcd (w : List Nat) : List Nat :=
  let c := (crc32c (wordBytes w)).toNat
  w ++ [c % 65536, c / 65536]

/-- A halter of 14 words whose CRC is right; the words of a REQ. -/
def halt : List Nat := crcd (14 :: List.replicate 11 0)
def reqw : List Nat := crcd (reqWords 0 true 0)

/-- A reply, a descriptor, a staged copy, a captured launch. -/
def rep : Reply := { op := 0, tag := 0, status := 0, seq := 0, deferred := false, params := [] }
def dsc : Desc := { len := 64, ctl := 0, cls := 0, portMask := 0, data := [] }
def stg : Staged := { key := 0, copy := { id := 1, sent := 0, dram := false, untag := false }, cells := 0 }
def cap0 : Capture := { frame := [], seq := 0, stale := false, target := 0 }

/-- A register's row. -/
def rowAt (a : Nat) : Row :=
  match base.regAt a with
  | some x => x.1
  | none => { base := a }

/-- One entry learned statically. -/
def fdb1 : State := (base.fdbInsert { delete := false, flags := 1, fid := 4095, mac := 2, dest := 1 }).2.2

/-- Port `p` takes part in time transfer. -/
def part (p : Nat) : State := (link p).setFld (Reg.ttCtrl p) 0 1 1

/-- Native port `p`, linked, is a candidate for domain 0 at raw time `t`, its grandmaster `g` of priority `g`. -/
def cand (s : State) (p t g : Nat) : State :=
  (((((s.wr (Reg.portPhyCtrl p) 1).wr (Reg.clkSynStat (groupOf p)) 1).wr (Reg.portHalterStat p) 1).setFld (Reg.ttCtrl p) 0 1 1).onPt p
    fun x => { x with up := true }).onPtm p fun x => { x with exchAt := some t, infoA := some ({ gmId := g, prio1 := g, locked := true }, t) }

/-- The engine runs and port `p` has a gate entry `i` for class 7. -/
def gated (p i : Nat) : State := (engine 2).onCyc fun x => { x with act := { x.act with
  gate := [(1024 * p + i, { offset := 0, duration := 1, mask := 0x80 })] } }

/-- A command ends with a new state. -/
def bindOk : CmdEnd → Bool
  | .done [] _ => true
  | _ => false

/-! ## Well-formedness: one ill-formed term for each check -/

/-- A header of a context that does not exist, and one whose tag is no 16-bit number. -/
theorem test_wf_header :
    (Instr.ctxNop { ctx := 8, tag := 1, ackreq := true, expert := false }).wellFormed = false ∧
    (Instr.ctxNop { ctx := 7, tag := 65536, ackreq := true, expert := false }).wellFormed = false ∧
    (Instr.ctxNop { ctx := 7, tag := 65535, ackreq := true, expert := false }).wellFormed = true := by decide

theorem test_wf_contexts :
    (Instr.regWriteGeneric 8 0 0 true).wellFormed = false ∧ (Instr.hcxDoorbell 4 0).wellFormed = false ∧
    (Instr.spiStatus 3).wellFormed = false ∧ (Instr.spiStatus 6).wellFormed = false ∧ (Instr.pcieFlr 4).wellFormed = false := by decide

theorem test_wf_ports :
    (Instr.lossOfSignal 24).wellFormed = false ∧ (Instr.frameTransmit 28 false 0 0).wellFormed = false ∧
    (Instr.segmentFault 23).wellFormed = false ∧ (Instr.segmentFault 28).wellFormed = false ∧ (Instr.laserFault 16).wellFormed = false ∧
    (Instr.gateEntryEnd 32).wellFormed = false ∧ (Instr.gateEntryStart 0 1024).wellFormed = false := by decide

theorem test_wf_units :
    (Instr.iuConversionDone 4).wellFormed = false ∧ (Instr.tgPulseEnd 16).wellFormed = false ∧ (Instr.thermalStop 8).wellFormed = false ∧
    (Instr.upstreamSelect 2).wellFormed = false ∧ (Instr.pmcChainRead 0 16).wellFormed = false ∧ (Instr.tblLrnPop 0 8).wellFormed = false ∧
    (Instr.synthLockRetry 8).wellFormed = false ∧ (Instr.lineSynthUnlock 6).wellFormed = false ∧ (Instr.referenceLost 6).wellFormed = false ∧
    (Instr.protSwitch 16).wellFormed = false ∧ (Instr.feedLockout 2).wellFormed = false := by decide

theorem test_wf_tables :
    (Instr.ageScanVisit 262144).wellFormed = false ∧ (Instr.dramReturn 256 []).wellFormed = false ∧
    (Instr.launchCapture 4096).wellFormed = false ∧ (Instr.piSeqWrite 0 4096 0).wellFormed = false ∧ (Instr.fixedCounterWrap 512).wellFormed = false ∧
    (Instr.ringDmaError 0 4).wellFormed = false ∧ (Instr.txRingTimeout 0 1).wellFormed = false := by decide

/-- The block stops on an ill-formed event, by name. -/
theorem test_no_such_unit : exec (.tgPulseEnd 16) State.reset = .fault .noSuchUnit := rfl

/-! ## The host's two questions: no row of the table gives bits -/

theorem test_no_word_spells : decodeTableWord 16 0x0A00 = none := rfl

theorem test_fetch_word_changes_nothing : State.reset.withFetchWord 16 0x0A00 = State.reset := rfl

/-! ## Worked figures of the spec -/

/-- Spec 02, "CONTROL beats": a MARK beat with sequence 0 has CRC-8 0xAB. -/
theorem test_crc8_mark : crc8 0x040000 = 0xAB := by decide

/-- Spec 08, after R212: two ppm slow, 1,250,000,000 ticks after the base. -/
theorem test_domain_time :
    ({ base := 1700000000250000000 * 2 ^ 32, rate := -2199023 } : DomSt).at (1250000000 * 256) / 2 ^ 16
      = 1700000001249998000 * 65536 + 15 := by decide

/-- The same instant as a network tick count. -/
theorem test_network_ticks : ticksOf (1700000001, 249998000, 15) = 2125000001562497500 := by decide

/-- Spec 02, after R53: the periodic halter of F0 of cabinet C3. -/
theorem test_halter_words :
    let s := (((((base.wr (Reg.tsuDom 0) (w32 (2 + 24 * 256 + 8 * 65536 + 2097152))).wr (Reg.tsuDom 1) (w32 (25 * 256))).wr Reg.cycPeriod 78125).wr
      Reg.cycNetHash 0x5C3E91A7).onMgt fun m => { m with fwBank := 0, fwBanks := [(0, { valid := true, major := 3, minor := 12 })] })
    ({ s with nodeId := 0x0103 } : State).halterWords 0 0x2A false
      = [0x010E, 0x4103, 0x030C, 0x2A20, 0x1918, 0x312D, 0x0001, 0x91A7, 0x5C3E, 0x007F, 0x0004, 0x0000] := by decide +kernel

/-- R136: an LFSR of 1 advances to 0x80200003, whose draw over tickets 80 and 80 is requester 0 or 1 by its upper half. -/
theorem test_lottery : lfsrNext 1 = 0x80200003 ∧ lottery 0x7FFF0000 [80, 80, 32, 32, 16, 16] 3 = some 0 ∧
    lottery 0x80200003 [80, 80, 32, 32, 16, 16] 3 = some 1 ∧ lottery 5 [0, 0, 0, 0, 0, 0] 4 = some 2 := by decide

/-! ## Meanings -/

/-- R337: HC0 makes HC7 PRINCIPAL and is OPERATOR itself. -/
theorem test_role_set :
    (match exec (.roleSet (hd false) 7 2) base with
     | .next t => decide (t.role 7 = .principal) && decide (t.role 0 = .operator)
     | _ => false) = true := by decide +kernel

/-- R333: an expert command at level BASIC is answered LEVEL. -/
theorem test_level :
    (match exec (.timeEpochReset (hd true)) (base.onCx 0 fun x => { x with expert := false }) with
     | .next t => (t.cx 0).replies.map fun r => r.status
     | _ => []) = [0x0204] := by decide +kernel

/-- R220: an epoch reset counts. -/
theorem test_epoch_reset :
    (match exec (.timeEpochReset (hd true)) base with
     | .next t => t.epoch
     | _ => 0) = 1 := by decide +kernel

/-- R9: the complement one tick late does nothing; in time it acts (TAP unlock). -/
theorem test_guard_pair :
    (let s := paired Reg.sysTapUnlock 1
     let r := fun t : Host.Outcome State Fault Refusal => match t with
       | .next u => u.tap.unlocked
       | _ => false
     (r (exec (.sysTapUnlock 0 0xFFFFFFFE) { s with raw := 1250000 }), r (exec (.sysTapUnlock 0 0xFFFFFFFE) { s with raw := 1250001 })))
      = (true, false) := by decide +kernel

/-- R364: SYS_ID reads 0x5E70_5B32. -/
theorem test_sys_id :
    (match exec (.regRead (hd false) 0 1) base with
     | .next t => (t.cx 0).replies.map fun r => r.params
     | _ => []) = [[0x5E705B32]] := by decide +kernel

/-- R352, R358: a write to a register that is read only changes nothing. -/
theorem test_read_only :
    (match exec (.regWriteGeneric 0 Reg.sysId 0 true) base with
     | .next t => decide (t.rd Reg.sysId = 0x5E705B32)
     | _ => false) = true := by decide +kernel

/-- R340: a rein taken for 2,000 ms is HC0's. -/
theorem test_rein_take :
    (match exec (.reinTake (hd false) 2000 [63]) base with
     | .next t => (t.rein 63).map fun r => (r.holder, r.lease)
     | _ => none) = some (0, 2000) := by decide +kernel

/-- R36: the fourth MARK in a row brings a native port UP. -/
theorem test_fourth_mark :
    (match exec (.markReceive 23 0 markGap) ((lineAt 23 2).onPt 23 fun x => { x with marks := 3 }) with
     | .next t => (t.pt 23).up
     | _ => false) = true := by decide +kernel

/-- R187: a write past a slot's size is refused with RANGE and writes nothing. -/
theorem test_pi_write_range :
    (match exec (.cycPiWrite (hd false) 4095 13 [1, 2, 3, 4] 0) (slots base) with
     | .next t => ((t.cx 0).replies.map fun r => r.status, t.cyc.image)
     | _ => ([], [])) = ([0x0305], []) := by decide +kernel

/-! ## Premises: for each obligation with hypotheses, states and operands that meet them -/

theorem test_hyps_ContextCommandsComplete :
  (∃ (s : State) (h : CmdHdr), Admitted s h 0x0A00 { role := .any }) ∧
  (∃ (s : State) (h : CmdHdr) (level : _), level < 2 ∧ Admitted s h 0x0A01 { role := .any }) ∧
  (∃ (s : State) (h : CmdHdr) (target : _), target < 8 ∧ Admitted s h 0x0A03 { role := .any }) ∧
  (∃ (s : State) (h : CmdHdr), Admitted s h 0x0A12 { role := .any }) ∧
  (∃ (s : State) (h : CmdHdr) (kind : _) (first : _) (count : _), kind < 7 ∧ 0 < count ∧ (∀ i, i < count → first + i < ownCount kind ∧ (kind = 0 →
    (s.receive h 0x0A21).exists (first + i))) ∧ Admitted s h 0x0A21 { role := .any }) ∧
  (∃ (s : State) (h : CmdHdr) (target : _) (key : List Byte), (target = 6 ∨ target = 7) ∧ key.length = 32 ∧ h.ctx < 6 ∧ Admitted s h 0x0A05 { role := .prin, reins := [0] }) ∧
  (∃ (s : State) (h : CmdHdr) (target : _), target < 8 ∧ target ≠ h.ctx ∧ Admitted s h 0x0A06 { role := .prin }) ∧
  (∃ (s : State) (h : CmdHdr) (target : Nat), (target = 6 ∨ target = 7) ∧ Admitted s h 0x0A04 { role := .prin, reins := [0, 9] }) ∧
  (∃ (s : State) (h : CmdHdr) (target : Nat) (port : Nat) (vid : Nat) (mac : Nat), (target = 6 ∨ target = 7) ∧ Admitted s h 0x0A04 { role := .prin, reins := [0, 9] } ∧
    port < 28 ∧ (s.receive h 0x0A04).exists port = true ∧ 1 ≤ vid ∧ vid ≤ 4094 ∧ mac < 2 ^ 48 ∧ mac / 2 ^ 40 % 2 = 0 ∧ (s.receive h 0x0A04).bitAt (Reg.hcxBind (13 - target))
    7 = false ∧ bindOk ((s.receive h 0x0A04).bind target port vid mac) = true) :=
  ⟨
    ⟨base, hd false, by unfold Admitted; decide +kernel⟩,
    ⟨base, hd false, 1, by unfold Admitted; decide +kernel⟩,
    ⟨base, hd false, 7, by unfold Admitted; decide +kernel⟩,
    ⟨base, hd false, by unfold Admitted; decide +kernel⟩,
    ⟨base, hd false, 6, 3, 1, by unfold Admitted; decide +kernel⟩,
    ⟨base, hd false, 7, List.replicate 32 1, by unfold Admitted; decide +kernel⟩,
    ⟨base, hd false, 7, by unfold Admitted; decide +kernel⟩,
    ⟨base, hd false, 6, by unfold Admitted; decide +kernel⟩,
    ⟨base, hd false, 7, 27, 4094, 2, by unfold Admitted; decide +kernel⟩⟩

theorem test_hyps_RoleSetGivesRole :
  (∃ (s : State) (h : CmdHdr) (target : Nat) (role : Nat), target < 8 ∧ role < 3 ∧ target ≠ h.ctx ∧ Admitted s h 0x0A02 { role := .prin }) ∧
  (∃ (s : State) (h : CmdHdr) (role : Nat), role < 3 ∧ Admitted s h 0x0A02 { role := .prin }) :=
  ⟨
    ⟨base, hd false, 7, 2, by unfold Admitted; decide +kernel⟩,
    ⟨base, hd false, 2, by unfold Admitted; decide +kernel⟩⟩

theorem test_hyps_OwnSetTransfers :
  ∃ (s : State) (h : CmdHdr) (kind : Nat) (first : Nat) (count : Nat) (owner : Nat), kind < 4 ∧ 0 < count ∧ owner < 8 ∧ (∀ i, i < count → (s.receive h 0x0A20).ownable kind (first + i)
    = true) ∧ Admitted s h 0x0A20 { role := .prin, reins := [0] } :=
  ⟨base, hd false, 1, 16383, 1, 7, by unfold Admitted; decide +kernel⟩

theorem test_hyps_ReinCommandsComplete :
  (∃ (s : State) (h : CmdHdr) (reins : List Nat) (lease : _), (lease = 0 ∨ (10 ≤ lease ∧ lease ≤ 60000)) ∧ 1 ≤ reins.length ∧ reins.length ≤ 64 ∧ (∀ r ∈ reins,
    (s.receive h 0x0A10).reinGone r = false) ∧ (s.receive h 0x0A10).orderBreak h.ctx reins = none ∧ Admitted s h 0x0A10 { role := .oper, reins := reins }) ∧
  (∃ (s : State) (h : CmdHdr) (reins : List Nat), (∀ r ∈ reins, (s.receive h 0x0A11).reinGone r = false ∧ (s.receive h 0x0A11).holds h.ctx r = true) ∧
    Admitted s h 0x0A11 { role := .oper }) ∧
  (∃ (s : State) (h : CmdHdr) (reins : List Nat), (∀ r ∈ reins, (s.receive h 0x0A90).reinGone r = false) ∧ Admitted s h 0x0A90 { role := .prin }) ∧
  (∃ (s : State), s.fwOn = true) :=
  ⟨
    ⟨base, hd false, [0, 63], 60000, by unfold Admitted; decide +kernel⟩,
    ⟨reined base, hd false, [63], by unfold Admitted; decide +kernel⟩,
    ⟨base, hd true, [63], by unfold Admitted; decide +kernel⟩,
    ⟨base, by decide +kernel⟩⟩

theorem test_hyps_TransportsComplete :
  (∃ (s : State) (c : Nat) (v : Word), s.life = .up ∧ c < 4 ∧ s.bitAt (Reg.hcxQCtrl c) 0 = true ∧ v.toNat < s.fld (Reg.hcxSqSize c) 0 7 ∧ v.toNat < 64) ∧
  (∃ (s : State) (c : Nat), s.life = .up ∧ c < 4 ∧ s.mgt.fw = .ready ∧ s.bitAt (Reg.hcxQCtrl c) 0 = true ∧ s.hasRoom c = true ∧ (s.cx c).sqTail ≠ s.fld (Reg.hcxSqHead c)
    0 6) ∧
  (∃ (s : State) (c : Nat), s.life = .up ∧ c < 4) ∧
  (∃ (s : State) (c : Nat) (bs : List Byte), s.life = .up ∧ (c = 4 ∨ c = 5) ∧ 16 ≤ bs.length ∧ s.mgt.fw = .ready ∧ (s.cx c).held.length < 2) ∧
  (∃ (s : State) (c : Nat) (r : _) (rest : _) (n : _), s.life = .up ∧ (c = 4 ∨ c = 5) ∧ (s.cx c).replies = r :: rest ∧ 2 + (r.spi c).length ≤ n) ∧
  (∃ (s : State) (c : Nat) (r : _) (rest : _) (n : _), s.life = .up ∧ (c = 4 ∨ c = 5) ∧ (s.cx c).replies = r :: rest ∧ n < 2 + (r.spi c).length) ∧
  (∃ (s : State) (c : Nat), s.life = .up ∧ (c = 4 ∨ c = 5)) :=
  ⟨
    ⟨(base.wr (Reg.hcxQCtrl 3) 1).wr (Reg.hcxSqSize 3) 64, 3, 63, by decide +kernel⟩,
    ⟨(((base.wr (Reg.hcxQCtrl 3) 1).wr (Reg.hcxSqSize 3) 64).wr (Reg.hcxCqSize 3) 4).onCx 3 fun x => { x with sqTail := 63 }, 3, by decide +kernel⟩,
    ⟨base, 3, by decide +kernel⟩,
    ⟨base, 5, List.replicate 16 0, by decide +kernel⟩,
    ⟨base.onCx 5 fun x => { x with replies := [rep] }, 5, rep, [], 2 + (rep.spi 5).length, by decide +kernel⟩,
    ⟨base.onCx 5 fun x => { x with replies := [rep] }, 5, rep, [], 1 + (rep.spi 5).length, by decide +kernel⟩,
    ⟨base, 5, by decide +kernel⟩⟩

theorem test_hyps_InBandAndPcieComplete :
  (∃ (s : State) (port : Nat) (frame : List Byte) (c : Nat), s.life = .up ∧ port < 28 ∧ s.absent port = false ∧ s.mgt.fw = .ready ∧ (∀ o, o = (if beNat (slice frame 12 2)
    = 0x8100 then 16 else 12) → beNat (slice frame o 2) = 0x88B5 ∧ frame.getD (o + 2) 0 = 1 ∧ frame.getD (o + 3) 0 = 0) ∧ (c = 6 ∨ c = 7) ∧ s.bitAt (Reg.hcxBind c)
    7 = true ∧ (s.cx c).mac = beNat (slice frame 0 6) ∧ (c = 7 → s.bitAt (Reg.hcxBind 6) 7 = true → (s.cx 6).mac ≠ (s.cx 7).mac)) ∧
  (∃ (s : State) (c : _), s.life = .up ∧ 6 ≤ c ∧ c < 8 ∧ s.mgt.fw = .ready ∧ s.evtPending c = true ∧ ((s.cx c).lastMsg.all fun r => decide (r + 1250000000 ≤ s.now))
    = true) ∧
  (∃ (s : State) (c : _), s.life = .up ∧ c < 4) ∧
  (∃ (s : State), s.life = .up) ∧
  (∃ (s : State) (c : Nat) (p : Nat), s.fld (Reg.hcxBind c) 0 5 ≠ p) :=
  ⟨
    ⟨base.wr (Reg.hcxBind 7) 0x80, 27, List.replicate 12 0 ++ [0x88, 0xB5, 1, 0], 7, by decide, by decide, by decide, by decide, fun o h => by subst h; decide +kernel,
      by decide, by decide +kernel, by decide +kernel, by decide +kernel⟩,
    ⟨({ base with raw := 1250000000 } : State).wr (Reg.evtStat 7 0) 1 |>.wr (Reg.evtMask 7 0) 0 |>.onCx 7 fun x => { x with lastMsg := some 0 }, 7, by decide +kernel⟩,
    ⟨base, 3, by decide +kernel⟩,
    ⟨base, by decide +kernel⟩,
    ⟨base, 6, 27, by decide +kernel⟩⟩

theorem test_hyps_PacketIsHeld :
  ∃ (c : Nat) (bs : List Byte), c < 8 ∧ 16 ≤ bs.length ∧ leNat (slice bs 6 2) ≤ 4072 ∧ bs.length = 20 + leNat (slice bs 6 2) ∧ crc32c (bs.take (16 + leNat (slice bs 6 2)))
    = BitVec.ofNat 32 (leNat (slice bs (16 + leNat (slice bs 6 2)) 4)) ∧ leNat (slice bs 12 4) = 0 ∧ bs.getD 0 0 &&& 0x0C = 0 ∧ bs.getD 0 0 >>> 4 = 1 ∧
    leNat (slice bs 2 2) ∈ opcodes :=
  ⟨7, [0x10, 0, 0x00, 0x0A, 1, 0, 0, 0, 0, 0, 0, 0, 0, 0, 0, 0] ++ leBytes 4 (crc32c [0x10, 0, 0x00, 0x0A, 1, 0, 0, 0, 0, 0, 0, 0, 0, 0, 0, 0]).toNat,
    by decide +kernel⟩

theorem test_hyps_CommandsAreChecked :
  (∃ (s : State) (h : CmdHdr), h.ctx < 8 ∧ s.life ≠ .up) ∧
  (∃ (s : State) (h : CmdHdr) (op : Nat) (need : State → Need) (st : _) (ps : _), h.ctx < 8 ∧ s.fwOn = true ∧ s.hasRoom h.ctx = true ∧ (s.receive h op).check h op (need (s.receive h op))
    = some (st, ps)) :=
  ⟨
    ⟨{ base with life := .frozen }, hd false, by decide +kernel⟩,
    ⟨base, hd false, 0x0A01, fun _ => { role := .any, bad := some 0 }, St.range, [0], by decide +kernel⟩⟩

theorem test_hyps_AnswersLeaveTheRest :
  (∃ (s : State) (h : CmdHdr) (op : Nat) (c : Nat) (tag : Nat) (st : Nat) (ps : List Nat) (d : Bool) (t : State), h.ctx < 8 ∧ c < 8 ∧ (t = s.receive h op ∨
    t = s.reply c op tag st ps d)) ∧
  (∃ a : Nat, a ≠ Reg.hcxCmdCount 0 ∧ a ≠ Reg.hcxCqTail 7 ∧ (∀ e j, e < 8 → j < 8 → a ≠ Reg.evtStat e j) ∧ (∀ m, m < 16 → a ≠ Reg.pmcSel m ∧ a ≠ Reg.pmuOvf m)
    ∧ a ≠ Reg.pmuSmpStat ∧ a ≠ Reg.pmuSmpRawLo ∧ a ≠ Reg.pmuSmpRawHi ∧ a ≠ Reg.pmuSmpPc) :=
  ⟨
    ⟨base, hd false, 0x0A00, 7, 1, 0, [], false, base.receive (hd false) 0x0A00, by decide +kernel⟩,
    ⟨Reg.sysScratch, by decide, by decide, fun e j _ _ => by simp only [Reg.sysScratch, Reg.evtStat]; omega, by decide, by decide, by decide, by decide, by decide⟩⟩

theorem test_hyps_PortCommandsComplete :
  (∃ (s : State) (h : CmdHdr) (p : Nat) (flags : _), flags < 2 ∧ p < 28 ∧ (s.receive h 0x0101).exists p = true ∧ modeFits p 0 = true ∧ Admitted s h 0x0101 { owned := [(0, p)], reins := [portRein p] }) ∧
  (∃ (s : State) (h : CmdHdr) (p : Nat) (mode : _) (flags : _) (m : _), flags < 2 ∧ p < 24 ∧ (s.receive h 0x0101).exists p = true ∧ modeFits p mode = true ∧
    modeOf mode = some m ∧ (16 ≤ p → (s.receive h 0x0101).boardFault p m.family = none) ∧ (m.family = (s.receive h 0x0101).synFamily (groupOf p) ∨
    (s.receive h 0x0101).groupBusy p = false ∨ flags = 1) ∧ Admitted s h 0x0101 { owned := [(0, p)], reins := [portRein p] }) ∧
  (∃ (s : State) (h : CmdHdr) (p : Nat) (r : _), p < 24 ∧ s.absent p = false ∧ (s.receive h 0x0105).native p = true ∧ ((s.receive h 0x0105).pt p).halterAt = some r ∧
    Admitted s h 0x0105 { role := .any }) ∧
  (∃ (s : State) (h : CmdHdr) (p : Nat), p < 24 ∧ s.absent p = false ∧ (s.receive h 0x0105).native p = true ∧ ((s.receive h 0x0105).pt p).halterAt = none ∧
    Admitted s h 0x0105 { role := .any }) ∧
  (∃ (s : State) (h : CmdHdr) (p : Nat), p < 28 ∧ (s.receive h 0x0106).exists p = true ∧ Admitted s h 0x0106 { role := .any }) ∧
  (∃ (s : State) (h : CmdHdr) (p : Nat) (idle : _) (mask : _), p < 24 ∧ s.absent p = false ∧ (s.receive h 0x0184).native p = true ∧ idle < 65536 ∧
    mask < 256 ∧ Admitted s h 0x0184 { owned := [(0, p)], reins := [portRein p] }) ∧
  (∃ (s : State) (h : CmdHdr) (p : Nat), 16 ≤ p ∧ p < 24 ∧ (s.receive h 0x0185).exists p = true ∧ Admitted s h 0x0185 { owned := [(0, p)], reins := [portRein p] }) ∧
  (∃ (s : State) (h : CmdHdr) (entry : List Byte), entry.length = 32 ∧ (entry.getD 0 0).toNat < 8 ∧ Admitted s h 0x0811 { owned := [(0, 16 + (entry.getD 0 0).toNat)], reins := [portRein (16 + (entry.getD 0 0).toNat), 16] }) ∧
  (∃ (s : State) (h : CmdHdr) (p : Nat) (m : Nat), (p < 24 ∧ 1518 ≤ m ∧ m ≤ 9216) ∨ (24 ≤ p ∧ p < 28 ∧ m = 1522) ∧ (s.receive h 0x0107).exists p = true ∧
    (s.pt p).rxOpen = false ∧ Admitted s h 0x0107 { owned := [(0, p)], reins := [portRein p] }) :=
  ⟨
    ⟨base, hd false, 23, 1, by unfold Admitted; decide +kernel⟩,
    ⟨base, hd false, 15, 1, 1, .native25, by unfold Admitted; decide +kernel⟩,
    ⟨base.onPt 23 fun x => { x with halterAt := some 0 }, hd false, 23, 0, by unfold Admitted; decide +kernel⟩,
    ⟨base, hd false, 23, by unfold Admitted; decide +kernel⟩,
    ⟨base, hd false, 27, by unfold Admitted; decide +kernel⟩,
    ⟨base, hd true, 15, 65535, 255, by unfold Admitted; decide +kernel⟩,
    ⟨base, hd true, 23, by unfold Admitted; decide +kernel⟩,
    ⟨base, hd false, 7 :: List.replicate 31 0, by unfold Admitted; decide +kernel⟩,
    ⟨base, hd false, 27, 1522, by unfold Admitted; decide +kernel⟩⟩

theorem test_hyps_LineStatesComplete :
  (∃ (s : State) (p : Nat), s.life = .up ∧ p < 24 ∧ s.absent p = false ∧ (p < 16 ∨ s.bitAt (Reg.portLineStat p) 4 = false)) ∧
  (∃ (s : State) (p : Nat), s.life = .up ∧ p < 24 ∧ s.absent p = false ∧ s.enabled p = true ∧ s.synLocked p = true ∧ s.bitAt (Reg.portPhyStat p) 4 = false ∧
    s.bitAt (Reg.portPhyStat p) 8 = false ∧ (s.pt p).laserHeld = false ∧ s.lineState p = 0) ∧
  (∃ (s : State) (p : Nat), s.life = .up ∧ p < 24 ∧ s.lineState p = 1) ∧
  (∃ (s : State) (p : Nat), s.life = .up ∧ p < 24 ∧ s.lineState p = 1 ∧ (s.pt p).settleAt + 625000 ≤ s.now) ∧
  (∃ (s : State) (p : Nat), s.life = .up ∧ p < 24 ∧ s.native p = true ∧ (s.pt p).up = false ∧ s.lineState p = 2 ∧ (s.pt p).marks = 3) ∧
  (∃ (s : State) (p : Nat) (g : _), s.life = .up ∧ p < 24 ∧ s.native p = true ∧ (s.pt p).up = false ∧ s.lineState p = 2 ∧ ((s.pt p).marks = 0 ∨ g = markGap)
    ∧ (s.pt p).marks < 3) ∧
  (∃ (s : State) (p : Nat) (g : _), s.life = .up ∧ p < 24 ∧ s.native p = true ∧ (s.pt p).up = false ∧ s.lineState p = 2 ∧ 0 < (s.pt p).marks ∧ g ≠ markGap) ∧
  (∃ (s : State) (p : Nat) (g : _), s.life = .up ∧ p < 24 ∧ s.native p = true ∧ (s.pt p).up = true ∧ g ≠ markGap) ∧
  (∃ (s : State) (p : Nat), s.life = .up ∧ p < 24 ∧ s.native p = true ∧ s.aligned p = true ∧ s.lineState p = 3 ∧ (s.pt p).misses < 2) ∧
  (∃ (s : State) (p : Nat), s.life = .up ∧ p < 24 ∧ s.native p = true ∧ s.aligned p = true ∧ s.lineState p = 3 ∧ (s.pt p).misses = 2) ∧
  (∃ (s : State) (p : Nat), s.life = .up ∧ p < 24 ∧ s.sends p = true) :=
  ⟨
    ⟨base, 15, by decide +kernel⟩,
    ⟨lineAt 15 0, 15, by decide +kernel⟩,
    ⟨lineAt 15 1, 15, by decide +kernel⟩,
    ⟨later (lineAt 15 1), 15, by decide +kernel⟩,
    ⟨(lineAt 23 2).onPt 23 fun x => { x with marks := 3 }, 23, by decide +kernel⟩,
    ⟨(lineAt 23 2).onPt 23 fun x => { x with marks := 2 }, 23, markGap, by decide +kernel⟩,
    ⟨(lineAt 23 2).onPt 23 fun x => { x with marks := 3 }, 23, markGap + 1, by decide +kernel⟩,
    ⟨link 23, 23, markGap - 1, by decide +kernel⟩,
    ⟨link 23, 23, by decide +kernel⟩,
    ⟨(link 23).onPt 23 fun x => { x with misses := 2 }, 23, by decide +kernel⟩,
    ⟨link 15, 15, by decide +kernel⟩⟩

theorem test_hyps_BeatsAndDozeComplete :
  (∃ (s : State) (p : Nat), s.life = .up ∧ p < 24 ∧ s.sends p = true ∧ s.crumbBarred p = true) ∧
  (∃ (s : State) (p : Nat), s.life = .up ∧ p < 24 ∧ s.sends p = true ∧ s.crumbBarred p = false) ∧
  (∃ (s : State) (p : Nat), s.life = .up ∧ p < 24 ∧ s.sends p = true ∧ (s.pt p).crumbWait = true ∧ (s.pt p).txSusp = false) ∧
  (∃ (s : State) (p : Nat), s.life = .up ∧ p < 24 ∧ s.native p = true ∧ (s.pt p).up = true) ∧
  (∃ (s : State) (p : Nat) (line : _), s.life = .up ∧ p < 24 ∧ s.native p = true ∧ (s.pt p).up = true ∧ ((s.pt p).rx.hear line).2.1 = 0 ∧ 33 ≤ ((s.pt p).rx.hear line).1.length) ∧
  (∃ (s : State) (p : Nat) (line : _), s.life = .up ∧ p < 24 ∧ s.native p = true ∧ (s.pt p).up = true ∧ ((s.pt p).rx.hear line).2.1 = 1 ∧ ((s.pt p).rx.hear line).1.length < 33) ∧
  (∃ (s : State) (p : Nat) (b : _), s.life = .up ∧ p < 24 ∧ b.ctl = true ∧ beatCrcOk b = false) ∧
  (∃ (s : State) (p : Nat) (b : _), s.life = .up ∧ p < 24 ∧ b.ctl = true ∧ beatCrcOk b = true ∧ (s.pt p).rx.drop = false) ∧
  (∃ (s : State) (p : Nat) (n : _), s.life = .up ∧ p < 24 ∧ s.native p = true ∧ s.aligned p = true ∧ 2 < n) ∧
  (∃ (s : State) (p : Nat), s.life = .up ∧ p < 24 ∧ s.native p = true ∧ s.aligned p = true) ∧
  (∃ (s : State) (p : Nat) (cls : _), s.life = .up ∧ p < 24 ∧ s.native p = true ∧ s.aligned p = true ∧ (s.pt p).rxSusp = false ∧ cls < 6) ∧
  (∃ (s : State) (p : Nat) (f : Option (Nat × Nat)), s.life = .up ∧ p < 24 ∧ s.native p = true ∧ s.aligned p = true ∧ ((s.pt p).rxSusp = true ∨ f = none ∨
    ∃ cls n, f = some (cls, n) ∧ 6 ≤ cls)) ∧
  (∃ (s : State) (p : Nat), s.life = .up ∧ p < 24 ∧ s.native p = true ∧ s.aligned p = true ∧ (s.pt p).rxSusp = true) ∧
  (∃ (s : State) (p : Nat), s.life = .up ∧ p < 24 ∧ s.native p = true ∧ s.aligned p = true ∧ (s.pt p).rxSusp = false) ∧
  (∃ (s : State) (p : Nat) (bs : List Beat), s.life = .up ∧ p < 24 ∧ s.native p = true ∧ s.aligned p = true ∧ msgWords bs = none) ∧
  (∃ (s : State) (p : Nat), s.life = .up ∧ p < 24 ∧ s.native p = true ∧ (s.pt p).up = true ∧ s.bitAt (Reg.portLineStat p) 5 = false ∧ s.mayDoze p = true) ∧
  (∃ (s : State) (p : Nat), s.life = .up ∧ p < 24 ∧ s.native p = true ∧ (s.pt p).up = true) ∧
  (∃ (s : State) (p : Nat), s.life = .up ∧ p < 24 ∧ s.native p = true ∧ s.wakeCause p = true) ∧
  (∃ (s : State) (p : Nat), s.life = .up ∧ p < 24 ∧ s.native p = true ∧ s.wakeCause p = false) ∧
  (∃ (s : State) (p : Nat), s.life = .up ∧ p < 24 ∧ s.native p = true ∧ (s.pt p).up = true ∧ s.bitAt (Reg.portLineStat p) 4 = true) :=
  ⟨
    ⟨(link 15).onPt 15 fun x => { x with txSusp := true }, 15, by decide +kernel⟩,
    ⟨link 23, 23, by decide +kernel⟩,
    ⟨(link 23).onPt 23 fun x => { x with crumbWait := true }, 23, by decide +kernel⟩,
    ⟨link 23, 23, by decide +kernel⟩,
    ⟨link 23, 23, (List.range 33).map fun i => decide (i % 2 = 1), by decide +kernel⟩,
    ⟨link 23, 23, List.replicate 25 false, by decide +kernel⟩,
    ⟨link 23, 23, { markBeat 0 with payload := 0x01000000 }, by decide +kernel⟩,
    ⟨link 23, 23, markBeat 0, by decide +kernel⟩,
    ⟨link 23, 23, 3, by decide +kernel⟩,
    ⟨link 15, 15, by decide +kernel⟩,
    ⟨link 23, 23, 5, by decide +kernel⟩,
    ⟨link 23, 23, some (6, 0), by decide, by decide, by decide +kernel, by decide +kernel, .inr (.inr ⟨6, 0, rfl, by decide⟩)⟩,
    ⟨(link 15).onPt 15 fun x => { x with rxSusp := true }, 15, by decide +kernel⟩,
    ⟨link 15, 15, by decide +kernel⟩,
    ⟨link 23, 23, [], by decide +kernel⟩,
    ⟨(((((later (link 15)).wr (Reg.portLineCtrl 15) 0x10002).wr (Reg.portHalterRx 15 4) 0x00080000).wr (Reg.portCapAdv 15) 8).onPt 15 fun x => { x with halterSent := [270, 32768, 0, 47, 256, 0, 0, 0, 0, 8, 0, 0] }).onPtm 15 fun x => { x with reqAt := some 1000000000000 },
      15, by decide +kernel⟩,
    ⟨link 15, 15, by decide +kernel⟩,
    ⟨link 15, 15, by decide +kernel⟩,
    ⟨((((((link 15).wr (Reg.portLineCtrl 15) 0x10002).wr (Reg.portHalterRx 15 4) 0x00080000).wr (Reg.portCapAdv 15) 8).onPt 15 fun x => { x with halterSent := (((link 15).wr (Reg.portCapAdv 15) 8).halterWords 15 0 false), halterSentAt := some 0, halterDue := false })).onPtm 15 fun x => { x with reqAt := some 0 },
      15, by decide +kernel⟩,
    ⟨(link 15).setFld (Reg.portLineStat 15) 4 1 1, 15, by decide +kernel⟩⟩

theorem test_hyps_HaltersComplete :
  (∃ (s : State) (p : Nat), s.life = .up ∧ p < 24 ∧ s.native p = true ∧ (s.pt p).up = true ∧ s.mayMessage p 14 = true ∧ s.halterPending p = true) ∧
  (∃ (s : State) (p : Nat), s.life = .up ∧ p < 24 ∧ s.native p = true ∧ (s.pt p).up = true ∧ s.mayMessage p 14 = true ∧ s.halterPending p = false) ∧
  (∃ (s : State) (p : Nat), s.life = .up ∧ p < 24 ∧ s.native p = true ∧ (s.pt p).up = true ∧ s.mayMessage p 14 = true ∧ (∀ r, (s.pt p).halterSentAt = some r →
    r + 125000000 ≤ s.now)) ∧
  (∃ (s : State) (p : Nat) (ws : List Nat), s.life = .up ∧ p < 24 ∧ s.native p = true ∧ (s.pt p).up = true ∧ s.aligned p = true ∧ msgOk ws = true) ∧
  (∃ (s : State) (p : Nat) (ws : List Nat), s.life = .up ∧ p < 24 ∧ s.native p = true ∧ (s.pt p).up = true ∧ s.aligned p = true ∧ msgOk ws = false) ∧
  (∃ (s : State) (p : Nat) (r : _), s.life = .up ∧ p < 24 ∧ s.native p = true ∧ (s.pt p).up = true ∧ (s.pt p).halterAt = some r ∧ s.bitAt (Reg.portHalterStat p)
    0 = true ∧ r + 437500000 ≤ s.now) ∧
  (∃ (s : State) (p : Nat) (ws : List Nat), p < 24 ∧ ws.getD 7 0 + ws.getD 8 0 * 65536 = (s.rd Reg.cycNetHash).toNat ∧ ws.getD 5 0 + ws.getD 6 0 * 65536 = (s.rd Reg.cycPeriod).toNat) :=
  ⟨
    ⟨link 23, 23, by decide +kernel⟩,
    ⟨(link 23).onPt 23 fun x => { x with halterDue := false, halterSent := (link 23).halterWords 23 0 false }, 23, by decide +kernel⟩,
    ⟨(later (link 23)).onPt 23 fun x => { x with halterSentAt := some 999875000000 }, 23, by decide +kernel, by decide, by decide +kernel, by decide +kernel, by decide +kernel, fun r h => by
      have h : some 999875000000 = some r := h
      cases h; decide +kernel⟩,
    ⟨link 23, 23, halt, by decide +kernel⟩,
    ⟨link 23, 23, [], by decide +kernel⟩,
    ⟨(later (link 23)).onPt 23 fun x => { x with halterAt := some 0 }, 23, 0, by decide +kernel⟩,
    ⟨base, 23, List.replicate 14 0, by decide +kernel⟩⟩

theorem test_hyps_LightAndSegmentsComplete :
  (∃ (s : State) (p : Nat), s.life = .up ∧ p < 16 ∧ s.txOn p = true) ∧
  (∃ (s : State) (p : Nat) (q : Quality), s.life = .up ∧ p < 24 ∧ (s.pt p).up = true ∧ 16 ≤ q.eye ∧ 10 ≤ q.margin) ∧
  (∃ (s : State) (p : Nat), s.life = .up ∧ p < 24 ∧ s.native p = false ∧ s.enabled p = true ∧ s.lineState p ≠ 0 ∧ (s.pt p).mode ≠ .sgmii) ∧
  (∃ (s : State) (p : Nat), s.life = .up ∧ p < 24 ∧ s.native p = false ∧ s.enabled p = true ∧ s.lineState p ≠ 0) ∧
  (∃ (s : State) (p : Nat) (speed : _), s.life = .up ∧ p < 24 ∧ (s.pt p).mode = .sgmii ∧ (s.pt p).pcs = true ∧ (s.pt p).up = false ∧ speed < 3) ∧
  (∃ (s : State) (p : Nat), s.life = .up ∧ 24 ≤ p ∧ p < 28 ∧ s.enabled p = true ∧ (s.pt p).segHeld = false) ∧
  (∃ (s : State) (p : Nat), s.life = .up ∧ 24 ≤ p ∧ p < 28 ∧ (s.pt p).up = true) ∧
  (∃ (s : State) (p : Nat), s.life = .up ∧ 24 ≤ p ∧ p < 28 ∧ s.enabled p = true ∧ (s.pt p).segHeld = true ∧ (s.pt p).up = false) ∧
  (∃ (s : State) (p : Nat) (c : Nat), p < 28 ∧ c < 8 ∧ s.bitAt (Reg.evtRoute (32 + p)) c = true ∧ (s.pt p).up = false) ∧
  (∃ (s : State) (p : Nat) (c : Nat), p < 28 ∧ c < 8 ∧ s.bitAt (Reg.evtRoute (32 + p)) c = true ∧ (s.pt p).up = true) :=
  ⟨
    ⟨link 15, 15, by decide +kernel⟩,
    ⟨link 23, 23, { eye := 16, margin := 10, resid := 0, time := 0 }, by decide +kernel⟩,
    ⟨((lineAt 23 2).onPt 23 fun x => { x with mode := .std25 }), 23, by decide +kernel⟩,
    ⟨((lineAt 23 2).onPt 23 fun x => { x with mode := .sgmii }), 23, by decide +kernel⟩,
    ⟨base.onPt 23 fun x => { x with mode := .sgmii, pcs := true }, 23, 2, by decide +kernel⟩,
    ⟨base.wr (Reg.portPhyCtrl 27) 1, 27, by decide +kernel⟩,
    ⟨base.onPt 27 fun x => { x with up := true }, 27, by decide +kernel⟩,
    ⟨(base.wr (Reg.portPhyCtrl 27) 1).onPt 27 fun x => { x with segHeld := true }, 27, by decide +kernel⟩,
    ⟨base, 27, 0, by decide +kernel⟩,
    ⟨base.onPt 27 fun x => { x with up := true }, 27, 0, by decide +kernel⟩⟩

theorem test_hyps_FramesComplete :
  (∃ (s : State) (p : _), s.life = .up ∧ p < 28 ∧ s.absent p = false ∧ (s.pt p).up = true) ∧
  (∃ (s : State) (c : _) (r : _), s.life = .up ∧ c < 4 ∧ r < 4) ∧
  (∃ (s : State) (c : _) (r : _) (a : _), s.life = .up ∧ c < 4 ∧ 2 ≤ r ∧ r < 4 ∧ (s.cx c).sop r = some a ∧ s.bitAt (Reg.ringCtrl c r) 0 = true ∧ a + max 1 (s.fld (Reg.ringCtrl c r)
    16 16) * 12500 ≤ s.now) ∧
  (∃ (s : State) (c : _) (r : _), s.life = .up ∧ c < 4 ∧ 2 ≤ r ∧ r < 4 ∧ (s.cx c).posted r = []) ∧
  (∃ (s : State) (c : _) (r : _), s.life = .up ∧ c < 4 ∧ r < 2) ∧
  (∃ (s : State) (c : _) (r : _), s.life = .up ∧ c < 4 ∧ 2 ≤ r ∧ r < 4 ∧ (s.cx c).posted r ≠ []) ∧
  (∃ (s : State) (c : _) (r : _) (w : _) (rest : _), s.life = .up ∧ c < 4 ∧ 2 ≤ r ∧ r < 4 ∧ (s.cx c).wb r = w :: rest ∧ w.status = none ∧
    w.left.isSome = true) ∧
  (∃ (s : State) (p : Nat) (x : RxFrame), s.life = .up ∧ p < 28 ∧ s.absent p = false ∧ (s.pt p).up = true ∧ s.native p = false ∧ (s.pt p).brokenAt = none ∧
    x.ending = .eof ∧ x.bytes.length < 16) :=
  ⟨
    ⟨base.onPt 27 fun x => { x with up := true }, 27, by decide +kernel⟩,
    ⟨base, 3, 3, by decide +kernel⟩,
    ⟨(later base).wr (Reg.ringCtrl 3 3) 1 |>.onCx 3 fun x => { x with sopAt1 := some 0 }, 3, 3, 0, by decide +kernel⟩,
    ⟨base, 3, 3, by decide +kernel⟩,
    ⟨base, 3, 1, by decide +kernel⟩,
    ⟨base.onCx 3 fun x => { x with posted3 := [dsc] }, 3, 3, by decide +kernel⟩,
    ⟨base.onCx 3 fun x => { x with tx1 := [{ head := 0, count := 1, status := none, left := some 0 }] }, 3, 3, { head := 0, count := 1, status := none, left := some 0 },
      [], by decide +kernel⟩,
    ⟨base.onPt 23 fun x => { x with up := true, mode := .std25 }, 23, { bytes := List.replicate 15 0, sofCls := 0, hint := 0, ending := .eof, ts := 0, sub := 0, started := 0 },
      by decide +kernel⟩⟩

theorem test_hyps_SwitchEventsComplete :
  (∃ (s : State), s.life = .up) ∧
  (∃ (s : State) (x : Copy), s.life = .up ∧ x.sent = 0 ∧ s.expired x = true) ∧
  (∃ (s : State) (x : Copy), s.life = .up ∧ (x.sent ≠ 0 ∨ s.expired x = false)) ∧
  (∃ (s : State) (ready : _), s.life = .up ∧ s.dramReady ≠ ready) ∧
  (∃ (s : State) (q : _), s.life = .up ∧ q < 256) ∧
  (∃ (s : State) (l : List (Nat × Word)), s.life = .up ∧ s.sw.arbDue = some l ∧ l ≠ []) :=
  ⟨
    ⟨base, by decide +kernel⟩,
    ⟨((later base).wr Reg.swcAgeSram 1).onSw fun x => { x with frames := [(1, some frm)] }, { id := 1, sent := 0, dram := false, untag := false }, by decide +kernel⟩,
    ⟨base, { id := 1, sent := 1, dram := false, untag := false }, by decide +kernel⟩,
    ⟨base, true, by decide +kernel⟩,
    ⟨base, 255, by decide +kernel⟩,
    ⟨base.onSw fun x => { x with arbDue := some [(Reg.arbTicketSh 5, 7)] }, [(Reg.arbTicketSh 5, 7)], by decide +kernel⟩⟩

theorem test_hyps_LotteryIsFairToActive :
  (∃ w, lottery 1 [255, 255, 255, 255, 255, 255] 32 = some w) ∧
  (∃ (active : BitVec 6), active ≠ 0) :=
  ⟨
    ⟨5, by decide +kernel⟩,
    ⟨32, by decide +kernel⟩⟩

theorem test_hyps_OverflowCompletes :
  (∃ (s : State) (q : Nat) (qs : _) (r : _), s.life = .up ∧ s.dramReady = true ∧ s.sw.stagedQ = q :: qs ∧ (s.sw.seg q).find? (fun r => !r.written) = some r) ∧
  (∃ (s : State) (q : Nat) (r : _) (rest : _) (hdr : _), s.life = .up ∧ s.dramReady = true ∧ q < 256 ∧ s.sw.seg q = r :: rest ∧ r.written = true ∧
    s.occ q < s.fld Reg.swcReturnThr 0 15 ∧ headerOk hdr = false) ∧
  (∃ (s : State) (q : Nat) (r : _) (rest : _) (hdr : _), s.life = .up ∧ s.dramReady = true ∧ q < 256 ∧ s.sw.seg q = r :: rest ∧ r.written = true ∧
    s.occ q < s.fld Reg.swcReturnThr 0 15 ∧ headerOk hdr = true ∧ s.ageLimit r.frm true < s.now - r.frm.ts.toNat) ∧
  (∃ (s : State) (q : Nat) (r : _) (rest : _) (hdr : _), s.life = .up ∧ s.dramReady = true ∧ q < 256 ∧ s.sw.seg q = r :: rest ∧ r.written = true ∧
    s.occ q < s.fld Reg.swcReturnThr 0 15 ∧ headerOk hdr = true ∧ s.now - r.frm.ts.toNat ≤ s.ageLimit r.frm true ∧ cellsOf r.frm.bytes.length ≤ s.poolFree) :=
  ⟨
    ⟨(base.setFld Reg.swcDramStat 16 1 1).onSw fun x => { x with stagedQ := [255], dram := [(255, [{ frm := frm, untag := false, id := 1, written := false, hdr := [] }])] },
      255, [], { frm := frm, untag := false, id := 1, written := false, hdr := [] }, by decide +kernel⟩,
    ⟨(base.setFld Reg.swcDramStat 16 1 1).onSw fun x => { x with dram := [(255, [{ frm := frm, untag := false, id := 1, written := true, hdr := [] }])] },
      255, { frm := frm, untag := false, id := 1, written := true, hdr := [] }, [], [], by decide +kernel⟩,
    ⟨(((later base).setFld Reg.swcDramStat 16 1 1).onSw fun x => { x with dram := [(255, [{ frm := frm, untag := false, id := 1, written := true, hdr := [] }])] }).wr Reg.swcAgeDram 1,
      255, { frm := frm, untag := false, id := 1, written := true, hdr := [] }, [], List.replicate 60 0 ++ leBytes 4 (crc32c (List.replicate 60 0)).toNat,
      by decide +kernel⟩,
    ⟨(base.setFld Reg.swcDramStat 16 1 1).onSw fun x => { x with dram := [(255, [{ frm := frm, untag := false, id := 1, written := true, hdr := [] }])] },
      255, { frm := frm, untag := false, id := 1, written := true, hdr := [] }, [], List.replicate 60 0 ++ leBytes 4 (crc32c (List.replicate 60 0)).toNat,
      by decide +kernel⟩⟩

theorem test_hyps_TransmitCompletes :
  (∃ (s : State) (p : Nat) (ts : Raw) (sub : Byte), s.life = .up ∧ (s.pt p).up = true ∧ p < 24 ∧ s.sw.lineOf p = none ∧ s.sendBuffered p (stamp256 (s.txPlane p (ts.toNat * 256 + sub.toNat)))
    = none) ∧
  (∃ (s : State) (p : Nat) (ts : Raw) (sub : Byte) (pre : _), s.life = .up ∧ (s.pt p).up = true ∧ p < 24 ∧ (pre = true → (s.sw.lineOf p).isSome = true ∧
    s.mayPreempt p = true) ∧ (pre = false → s.sw.lineOf p = none) ∧ (s.sendBuffered p (stamp256 (s.txPlane p (ts.toNat * 256 + sub.toNat)))).isSome = true) ∧
  (∃ (s : State) (p : Nat), s.life = .up ∧ (s.pt p).up = true ∧ 24 ≤ p ∧ p < 28) ∧
  (∃ (s : State) (p : Nat), s.life = .up ∧ (s.pt p).up = true ∧ 24 ≤ p ∧ p < 28 ∧ (Tab.get (fun _ => {}) s.sw.mtx p).sending = false ∧ (Tab.get (fun _ => {})
    s.sw.mtx p).until_ = none) ∧
  (∃ (s : State) (p : Nat), s.life = .up ∧ (s.pt p).up = true ∧ 24 ≤ p ∧ p < 28 ∧ (Tab.get (fun _ => {}) s.sw.mtx p).sending = false ∧ (Tab.get (fun _ => {})
    s.sw.mtx p).until_ = none ∧ s.txOn p = true ∧ Tab.get (fun _ => 0) s.sw.gapEnd p ≤ s.now ∧ (s.sw.lineOf p).isSome = true) ∧
  (∃ (s : State) (p : Nat) (b : _), s.life = .up ∧ (s.pt p).up = true ∧ 24 ≤ p ∧ p < 28 ∧ (s.sw.lineOf p).isSome = true ∧ (Tab.get (fun _ => {})
    s.sw.mtx p).sending = true ∧ b ≤ 512 ∧ (Tab.get (fun _ => {}) s.sw.mtx p).n + 1 < 16) ∧
  (∃ (s : State) (p : Nat) (b : _), s.life = .up ∧ (s.pt p).up = true ∧ 24 ≤ p ∧ p < 28 ∧ (s.sw.lineOf p).isSome = true ∧ (Tab.get (fun _ => {})
    s.sw.mtx p).sending = true ∧ 512 < b) ∧
  (∃ (s : State) (p : Nat) (b : _), s.life = .up ∧ (s.pt p).up = true ∧ 24 ≤ p ∧ p < 28 ∧ (s.sw.lineOf p).isSome = true ∧ (Tab.get (fun _ => {})
    s.sw.mtx p).sending = true ∧ b ≤ 512 ∧ 15 ≤ (Tab.get (fun _ => {}) s.sw.mtx p).n) ∧
  (∃ (s : State) (p : Nat) (r : _), s.life = .up ∧ (s.pt p).up = true ∧ 24 ≤ p ∧ p < 28 ∧ (Tab.get (fun _ => {}) s.sw.mtx p).until_ = some r ∧ r ≤ s.now) :=
  ⟨
    ⟨link 23, 23, 0, 0, by decide +kernel⟩,
    ⟨(((link 23).setConn 23 (some (0, 1023))).setGate 23 (some (1023, 0x80))).setVq (vqKey 23 7 0) [{ id := 1, sent := 0, dram := false, untag := false }],
      23, 0, 0, false, by decide +kernel⟩,
    ⟨base.onPt 27 fun x => { x with up := true }, 27, by decide +kernel⟩,
    ⟨((base.onPt 27 fun x => { x with up := true }).wr (Reg.portPhyCtrl 27) 1).onSw fun x => { x with line := [(27, some stg)] }, 27, by decide +kernel⟩,
    ⟨((base.onPt 27 fun x => { x with up := true }).wr (Reg.portPhyCtrl 27) 1).onSw fun x => { x with line := [(27, some stg)] }, 27, by decide +kernel⟩,
    ⟨((base.onPt 27 fun x => { x with up := true }).wr (Reg.portPhyCtrl 27) 1).onSw fun x => { x with line := [(27, some stg)], mtx := [(27, { n := 14, sending := true })] },
      27, 512, by decide +kernel⟩,
    ⟨((base.onPt 27 fun x => { x with up := true }).wr (Reg.portPhyCtrl 27) 1).onSw fun x => { x with line := [(27, some stg)], mtx := [(27, { n := 14, sending := true })] },
      27, 513, by decide +kernel⟩,
    ⟨((base.onPt 27 fun x => { x with up := true }).wr (Reg.portPhyCtrl 27) 1).onSw fun x => { x with line := [(27, some stg)], mtx := [(27, { n := 15, sending := true })] },
      27, 512, by decide +kernel⟩,
    ⟨(base.onPt 27 fun x => { x with up := true }).onMtx 27 fun y => { y with until_ := some 0 }, 27, 0, by decide +kernel⟩⟩

theorem test_hyps_SwitchCommandsComplete :
  (∃ (s : State) (h : CmdHdr) (p : Nat) (prof : _), p < 32 ∧ prof < 3 ∧ (s.receive h 0x0201).exists p = true ∧ (Admitted s h 0x0201 { owned := ((if p = 28 ∨ p = 31 then [] else [(0, p)])), reins := [8] })
    ∧ ((List.range 6).foldl (fun u c => let a := Reg.swcQcfg (8 * p + c); let d := Reg.swcQdramCfg (8 * p + c); if prof = 0 then (((u.stageFld a 12 4 4).stageFld a 28 1 (b2n (mayStore p c))).stageFld a 16 12 64).stageFld d 0 16 1024 else if prof = 1 then (u.stageFld a 12 4 2).stageFld a 28 1 0 else (((u.stageFld a 12 4 5).stageFld a 28 1 (b2n (mayStore p c))).stageFld a 16 12 32).stageFld d 0 16 8192)
    (s.receive h 0x0201)).swcOver = false) ∧
  (∃ (s : State) (h : CmdHdr) (p : Nat) (prof : _), p < 32 ∧ prof < 3 ∧ (s.receive h 0x0201).exists p = true ∧ (Admitted s h 0x0201 { owned := ((if p = 28 ∨ p = 31 then [] else [(0, p)])), reins := [8] })
    ∧ ((List.range 6).foldl (fun u c => let a := Reg.swcQcfg (8 * p + c); let d := Reg.swcQdramCfg (8 * p + c); if prof = 0 then (((u.stageFld a 12 4 4).stageFld a 28 1 (b2n (mayStore p c))).stageFld a 16 12 64).stageFld d 0 16 1024 else if prof = 1 then (u.stageFld a 12 4 2).stageFld a 28 1 0 else (((u.stageFld a 12 4 5).stageFld a 28 1 (b2n (mayStore p c))).stageFld a 16 12 32).stageFld d 0 16 8192)
    (s.receive h 0x0201)).swcOver = true) ∧
  (∃ (s : State) (h : CmdHdr) (p : Nat) (classes : List Nat) (d : _), p < 32 ∧ classes.length = 8 ∧ (∀ c ∈ classes, c < 8) ∧ d < 8 ∧ (s.receive h 0x0202).exists p = true ∧
    (Admitted s h 0x0202 { owned := ((if p = 28 ∨ p = 31 then [] else [(0, p)])), reins := [8] })) ∧
  (∃ (s : State) (h : CmdHdr) (p : Nat) (n : _) (d : _), p < 32 ∧ p < 28 ∧ n ≤ 2 ^ 24 ∧ d < 16 ∧ (s.receive h 0x0203).exists p = true ∧ Admitted s h 0x0203 { owned := [(0, p)], reins := [8] }) ∧
  (∃ (s : State) (h : CmdHdr) (p : Nat), p < 32 ∧ (s.receive h 0x0204).exists p = true ∧ (Admitted s h 0x0204 { role := .any, owned := ((if p = 28 ∨ p = 31 then [] else [(0, p)])) })) ∧
  (∃ (s : State) (h : CmdHdr) (p : Nat) (cls : _) (fl : _) (al : _) (th : _) (en : _) (dm : _) (qu : _), p < 32 ∧ cls < 8 ∧ fl < 4096 ∧ al < 16 ∧ th < 4096 ∧
    (en = true → mayStore p cls = true) ∧ dm < 65536 ∧ qu < 256 ∧ (s.receive h 0x0281).exists p = true ∧ (Admitted s h 0x0281 { owned := ((if p = 28 ∨ p = 31 then [] else [(0, p)])), reins := [8] })
    ∧ ((if cls < 4 then ((((((s.receive h 0x0281).stageFld (Reg.swcQcfg (8 * p + cls)) 0 12 fl).stageFld (Reg.swcQcfg (8 * p + cls)) 12 4 al).stageFld (Reg.swcQcfg (8 * p + cls))
    16 12 th).stageFld (Reg.swcQcfg (8 * p + cls)) 28 1 (b2n en)).stageFld (Reg.swcQdramCfg (8 * p + cls)) 0 16 dm).stageFld (Reg.swcDrr0 p) (8 * cls)
    8 qu else if cls < 6 then ((((((s.receive h 0x0281).stageFld (Reg.swcQcfg (8 * p + cls)) 0 12 fl).stageFld (Reg.swcQcfg (8 * p + cls)) 12 4 al).stageFld (Reg.swcQcfg (8 * p + cls))
    16 12 th).stageFld (Reg.swcQcfg (8 * p + cls)) 28 1 (b2n en)).stageFld (Reg.swcQdramCfg (8 * p + cls)) 0 16 dm).stageFld (Reg.swcDrr1 p) (8 * (cls - 4))
    8 qu else ((((((s.receive h 0x0281).stageFld (Reg.swcQcfg (8 * p + cls)) 0 12 fl).stageFld (Reg.swcQcfg (8 * p + cls)) 12 4 al).stageFld (Reg.swcQcfg (8 * p + cls))
    16 12 th).stageFld (Reg.swcQcfg (8 * p + cls)) 28 1 (b2n en)).stageFld (Reg.swcQdramCfg (8 * p + cls)) 0 16 dm))).swcOver = false) ∧
  (∃ (s : State) (h : CmdHdr) (p : Nat) (cls : _) (fl : _) (al : _) (th : _) (en : _) (dm : _) (qu : _), p < 32 ∧ cls < 8 ∧ fl < 4096 ∧ al < 16 ∧ th < 4096 ∧
    (en = true → mayStore p cls = true) ∧ dm < 65536 ∧ qu < 256 ∧ (s.receive h 0x0281).exists p = true ∧ (Admitted s h 0x0281 { owned := ((if p = 28 ∨ p = 31 then [] else [(0, p)])), reins := [8] })
    ∧ ((if cls < 4 then ((((((s.receive h 0x0281).stageFld (Reg.swcQcfg (8 * p + cls)) 0 12 fl).stageFld (Reg.swcQcfg (8 * p + cls)) 12 4 al).stageFld (Reg.swcQcfg (8 * p + cls))
    16 12 th).stageFld (Reg.swcQcfg (8 * p + cls)) 28 1 (b2n en)).stageFld (Reg.swcQdramCfg (8 * p + cls)) 0 16 dm).stageFld (Reg.swcDrr0 p) (8 * cls)
    8 qu else if cls < 6 then ((((((s.receive h 0x0281).stageFld (Reg.swcQcfg (8 * p + cls)) 0 12 fl).stageFld (Reg.swcQcfg (8 * p + cls)) 12 4 al).stageFld (Reg.swcQcfg (8 * p + cls))
    16 12 th).stageFld (Reg.swcQcfg (8 * p + cls)) 28 1 (b2n en)).stageFld (Reg.swcQdramCfg (8 * p + cls)) 0 16 dm).stageFld (Reg.swcDrr1 p) (8 * (cls - 4))
    8 qu else ((((((s.receive h 0x0281).stageFld (Reg.swcQcfg (8 * p + cls)) 0 12 fl).stageFld (Reg.swcQcfg (8 * p + cls)) 12 4 al).stageFld (Reg.swcQcfg (8 * p + cls))
    16 12 th).stageFld (Reg.swcQcfg (8 * p + cls)) 28 1 (b2n en)).stageFld (Reg.swcQdramCfg (8 * p + cls)) 0 16 dm))).swcOver = true) ∧
  (∃ (s : State) (h : CmdHdr) (p : Nat) (hr : _) (a : _) (b : _) (c : _) (st : _) (re : _) (lo : _), p < 32 ∧ hr < 32768 ∧ a ≤ 1000000 ∧ b ≤ 1000000 ∧
    c ≤ 1000000 ∧ 144 ≤ st ∧ st ≤ 16384 ∧ 16 ≤ re ∧ re ≤ 16384 ∧ lo < 262144 ∧ Admitted s h 0x0282 { reins := [8] } ∧ ((((((((s.receive h 0x0282).stageFld Reg.swcHeadroom 0 15 hr).stageFld Reg.swcAgeSram 0 20 a).stageFld Reg.swcAgeDram 0 20 b).stageFld Reg.swcAgeC6 0 20 c).stageFld Reg.swcSpillStage 0 15 st).stageFld Reg.swcReturnThr 0 15 re).writePoolLow (putFld ((((((((s.receive h 0x0282).stageFld Reg.swcHeadroom 0 15 hr).stageFld Reg.swcAgeSram 0 20 a).stageFld Reg.swcAgeDram 0 20 b).stageFld Reg.swcAgeC6 0 20 c).stageFld Reg.swcSpillStage 0 15 st).stageFld Reg.swcReturnThr 0 15 re).rd Reg.swcPoolLow)
    0 18 lo)).swcOver = false) ∧
  (∃ (s : State) (h : CmdHdr) (p : Nat) (hr : _) (a : _) (b : _) (c : _) (st : _) (re : _) (lo : _), p < 32 ∧ hr < 32768 ∧ a ≤ 1000000 ∧ b ≤ 1000000 ∧
    c ≤ 1000000 ∧ 144 ≤ st ∧ st ≤ 16384 ∧ 16 ≤ re ∧ re ≤ 16384 ∧ lo < 262144 ∧ Admitted s h 0x0282 { reins := [8] } ∧ ((((((((s.receive h 0x0282).stageFld Reg.swcHeadroom 0 15 hr).stageFld Reg.swcAgeSram 0 20 a).stageFld Reg.swcAgeDram 0 20 b).stageFld Reg.swcAgeC6 0 20 c).stageFld Reg.swcSpillStage 0 15 st).stageFld Reg.swcReturnThr 0 15 re).writePoolLow (putFld ((((((((s.receive h 0x0282).stageFld Reg.swcHeadroom 0 15 hr).stageFld Reg.swcAgeSram 0 20 a).stageFld Reg.swcAgeDram 0 20 b).stageFld Reg.swcAgeC6 0 20 c).stageFld Reg.swcSpillStage 0 15 st).stageFld Reg.swcReturnThr 0 15 re).rd Reg.swcPoolLow)
    0 18 lo)).swcOver = true) ∧
  (∃ (s : State) (h : CmdHdr) (p : Nat) (tickets : List Nat), p < 32 ∧ tickets.length = 6 ∧ (∀ x ∈ tickets, x < 256) ∧ Admitted s h 0x0283 { reins := [8] }) :=
  ⟨
    ⟨base, hd false, 31, 2, by unfold Admitted; decide +kernel⟩,
    ⟨((List.range 32).foldl (fun t q => t.wr (Reg.swcQcfg q) 0xFFF) base), hd false, 27, 2, by unfold Admitted; decide +kernel⟩,
    ⟨base, hd false, 31, List.replicate 8 7, 7, by unfold Admitted; decide +kernel⟩,
    ⟨base, hd false, 27, 2 ^ 24, 15, by unfold Admitted; decide +kernel⟩,
    ⟨base, hd false, 31, by unfold Admitted; decide +kernel⟩,
    ⟨base, hd true, 27, 7, 4095, 15, 4095, false, 65535, 255, by unfold Admitted; decide +kernel⟩,
    ⟨((List.range 32).foldl (fun t q => t.wr (Reg.swcQcfg q) 0xFFF) base), hd true, 27, 7, 4095, 15, 4095, false, 65535, 255, by unfold Admitted; decide +kernel⟩,
    ⟨base, hd true, 27, 32767, 1000000, 1000000, 1000000, 144, 16384, 262143, by unfold Admitted; decide +kernel⟩,
    ⟨((List.range 32).foldl (fun t q => t.wr (Reg.swcQcfg q) 0xFFF) base), hd true, 27, 32767, 1000000, 1000000, 1000000, 144, 16384, 262143, by unfold Admitted; decide +kernel⟩,
    ⟨base, hd true, 27, List.replicate 6 255, by unfold Admitted; decide +kernel⟩⟩

theorem test_hyps_FdbCommandsComplete :
  (∃ (s : State) (h : CmdHdr) (op : FdbOp), (s.receive h 0x0301).fdbOpThere { op with delete := false } = true ∧ fdbOpBad { op with delete := false } = none ∧
    Admitted s h 0x0301 { owned := ownedPorts ((s.receive h 0x0301).fdbOpPorts { op with delete := false }), reins := [9] } ∧ ((s.receive h 0x0301).fdbInsert { op with delete := false }).1 = St.ok) ∧
  (∃ (s : State) (h : CmdHdr) (op : FdbOp), (s.receive h 0x0301).fdbOpThere { op with delete := false } = true ∧ fdbOpBad { op with delete := false } = none ∧
    Admitted s h 0x0301 { owned := ownedPorts ((s.receive h 0x0301).fdbOpPorts { op with delete := false }), reins := [9] } ∧ ((s.receive h 0x0301).fdbInsert { op with delete := false }).1 ≠ St.ok) ∧
  (∃ (s : State) (h : CmdHdr) (fid mac : Nat) (e : FdbEnt), fid < 4096 ∧ ((s.receive h 0x0302).fdbFind fid mac).map (fun x => x.2.1) = some e ∧
    Admitted s h 0x0302 { owned := ownedPorts (destPorts e.mc e.dest), reins := [9] }) ∧
  (∃ (s : State) (h : CmdHdr) (fid : _) (mac : _), fid < 4096 ∧ ((s.receive h 0x0303).fdbFind fid mac).isSome = true ∧ Admitted s h 0x0303 { role := .any }) ∧
  (∃ (s : State) (h : CmdHdr) (p : _) (fid : _) (ports : _), (p = 0xFF ∧ ports = (s.receive h 0x0304).portsOwned h.ctx ∨ p < 31 ∧ (s.receive h 0x0304).exists p = true ∧
    ports = portBit p) ∧ (fid < 4096 ∨ fid = 0xFFFF) ∧ Admitted s h 0x0304 { owned := if p = 0xFF then [] else ownedPorts [p], reins := [9] }) ∧
  (∃ (s : State) (h : CmdHdr) (ops : List FdbOp), ops.length ≤ 254 ∧ (∀ o ∈ ops, (s.receive h 0x0305).fdbOpThere o = true ∧ fdbOpBad o = none) ∧
    Admitted s h 0x0305 { owned := ops.flatMap fun o => ownedPorts ((s.receive h 0x0305).fdbOpPorts o), reins := [9] }) ∧
  (∃ (s : State) (h : CmdHdr) (p : _) (m : _), p < 32 ∧ (s.receive h 0x0306).exists p = true ∧ m < 4096 ∧ Admitted s h 0x0306 { owned := ownedPorts [p], reins := [9] }) ∧
  (∃ (s : State) (h : CmdHdr) (time : _), time < 65536 ∧ Admitted s h 0x0307 { reins := [9] }) ∧
  (∃ (s : State) (h : CmdHdr) (m : _), m ≤ 128 ∧ Admitted s h 0x0308 { role := .any }) :=
  ⟨
    ⟨base, hd false, { delete := false, flags := 1, fid := 4095, mac := 2, dest := 1 }, by unfold Admitted; decide +kernel⟩,
    ⟨fdb1, hd false, { delete := false, flags := 1, fid := 4095, mac := 2, dest := 1 }, by unfold Admitted; decide +kernel⟩,
    ⟨fdb1, hd false, 4095, 2, { ent true with stat := true }, by unfold Admitted; decide +kernel⟩,
    ⟨fdb1, hd false, 4095, 2, by unfold Admitted; decide +kernel⟩,
    ⟨base, hd false, 30, 0xFFFF, portBit 30, by unfold Admitted; decide +kernel⟩,
    ⟨base, hd false, [{ delete := false, flags := 1, fid := 4095, mac := 2, dest := 1 }], by unfold Admitted; decide +kernel⟩,
    ⟨base, hd false, 31, 4095, by unfold Admitted; decide +kernel⟩,
    ⟨base, hd false, 65535, by unfold Admitted; decide +kernel⟩,
    ⟨base, hd false, 128, by unfold Admitted; decide +kernel⟩⟩

theorem test_hyps_FdbInsertIsFound :
  ∃ (s : State) (o : FdbOp), o.delete = false ∧ s.dual = false ∧ (s.fdbInsert o).1 = St.ok :=
  ⟨base, { delete := false, flags := 1, fid := 4095, mac := 2, dest := 1 }, by decide +kernel⟩

theorem test_hyps_TableCommandsComplete :
  (∃ (s : State) (h : CmdHdr) (vid : _) (entry : VlanEntry) (ports : _), 1 ≤ vid ∧ vid ≤ 4094 ∧ entry.fid < 4096 ∧ (∀ p ∈ portsOf ports, (s.receive h 0x0310).exists p = true)
    ∧ (∀ p ∈ portsOf entry.member, (s.receive h 0x0310).exists p = true) ∧ (∀ p ∈ portsOf entry.untag, (s.receive h 0x0310).exists p = true) ∧
    Admitted s h 0x0310 { owned := ownedPorts (portsOf ports), reins := [11] }) ∧
  (∃ (s : State) (h : CmdHdr) (n : _) (e : _), n < 16384 ∧ e.inPort < 32 ∧ (s.receive h 0x0320).exists e.inPort = true ∧ (s.receive h 0x0320).streamThere e = true ∧
    e.vid < 4096 ∧ e.window < 1024 ∧ (e.valid = true → 1 ≤ e.deadline ∧ e.deadline < 2 ^ 32) ∧ e.slot < 4096 ∧ Admitted s h 0x0320 { owned := [(1, n)], reins := [10] } ∧
    (s.receive h 0x0320).cyc.armed = none ∧ (s.receive h 0x0320).streamFits n e = none) ∧
  (∃ (s : State) (h : CmdHdr) (n : _), n < 16384 ∧ Admitted s h 0x0321 { owned := [(1, n)], reins := [10] } ∧ (s.receive h 0x0321).cyc.armed = none ∧
    ((s.receive h 0x0321).streamP n).valid = true) ∧
  (∃ (s : State) (h : CmdHdr) (n : _), n < 16384 ∧ Admitted s h 0x0322 { role := .any }) ∧
  (∃ (s : State) (h : CmdHdr) (q a b w : Nat), q < 16 ∧ a < 24 ∧ b < 24 ∧ (s.receive h 0x0330).exists a = true ∧ (s.receive h 0x0330).exists b = true ∧
    groupOf a ≠ groupOf b ∧ 1 ≤ w ∧ w ≤ 3600 ∧ (∀ o, o < 16 → o ≠ q → (s.receive h 0x0330).protEn o = true → ∀ p, p = a ∨ p = b → (s.receive h 0x0330).protPrimary o ≠ p ∧
    (s.receive h 0x0330).protAlternate o ≠ p) ∧ Admitted s h 0x0330 { owned := [(0, a), (0, b)], reins := [8] }) ∧
  (∃ (s : State) (h : CmdHdr) (q : _), q < 16 ∧ Admitted s h 0x0331 { role := .any }) ∧
  (∃ (s : State) (h : CmdHdr) (q : _), q < 16 ∧ (s.receive h 0x0332).protPrimary q < 24 ∧ (s.receive h 0x0332).protAlternate q < 24 ∧ (s.receive h 0x0332).protEn q = true ∧
    (((s.receive h 0x0332).pt ((s.receive h 0x0332).protPrimary q)).up) = true ∧ badAt (s.receive h 0x0332).tbl.badProt q = false ∧ Admitted s h 0x0332 { owned := [(0, (s.receive h 0x0332).protPrimary q), (0, (s.receive h 0x0332).protAlternate q)], reins := [8] }) ∧
  (∃ (s : State) (h : CmdHdr) (k : _) (first : _) (entries : List Nat), k < 3 ∧ first + entries.length ≤ (if k = 0 then 262144 else if k = 1 then 4096 else 16384)
    ∧ entries.length ≤ (if k = 2 then 127 else 254) ∧ (∀ e ∈ entries, e < if k = 2 then 2 ^ 256 else 2 ^ 128) ∧ Admitted s h 0x0340 { reins := [if k = 0 then 9 else if k = 1 then 11 else 10] }) ∧
  (∃ (s : State) (h : CmdHdr) (m : _) (pace : _), m < 3 ∧ 1 ≤ pace ∧ pace ≤ 1000 ∧ Admitted s h 0x0341 { reins := [8] }) ∧
  (∃ (s : State) (h : CmdHdr) (m : _), m ≤ 64 ∧ Admitted s h 0x0342 { role := .any }) ∧
  (∃ (s : State) (h : CmdHdr), (s.receive h 0x0390).rehashing = false ∧ (s.receive h 0x0390).rd Reg.tblFdbStranded = 0 ∧ Admitted s h 0x0390 { reins := [9] }) :=
  ⟨
    ⟨base, hd false, 4094, { fid := 4095 }, 1, by unfold Admitted; decide +kernel⟩,
    ⟨base, hd false, 16383, { valid := true, deadline := 1, egress := 1, slot := 4095, window := 1023 }, by unfold Admitted; decide +kernel⟩,
    ⟨base.onTbl fun x => { x with strP := [(16383, { valid := true })] }, hd false, 16383, by unfold Admitted; decide +kernel⟩,
    ⟨base, hd false, 16383, by unfold Admitted; decide +kernel⟩,
    ⟨base, hd false, 15, 0, 23, 3600, by decide, by decide, by decide, by decide +kernel, by decide +kernel, by decide, by decide, by decide, fun o ho _ h => absurd h ((by decide +kernel : ∀ o,
      o < 16 → ¬(base.receive (hd false) 0x0330).protEn o = true) o ho), by unfold Admitted; decide +kernel⟩,
    ⟨base, hd false, 15, by unfold Admitted; decide +kernel⟩,
    ⟨((base.wr (Reg.tblProt 15) (w32 (0 + 23 * 32 + 1024))).onTbl fun x => { x with onAlt := [(15, true)] }).onPt 0 fun x => { x with up := true }, hd false,
      15, by unfold Admitted; decide +kernel⟩,
    ⟨base, hd false, 1, 4095, [2 ^ 128 - 1], by unfold Admitted; decide +kernel⟩,
    ⟨base, hd false, 2, 1000, by unfold Admitted; decide +kernel⟩,
    ⟨base, hd false, 64, by unfold Admitted; decide +kernel⟩,
    ⟨base, hd true, by unfold Admitted; decide +kernel⟩⟩

theorem test_hyps_TableEventsComplete :
  (∃ (s : State), s.life = .up ∧ s.rehashing = true ∧ s.fwOn = true) ∧
  (∃ (s : State) (q : _), s.life = .up ∧ q < 16) ∧
  (∃ (s : State) (q : _), s.life = .up ∧ q < 16 ∧ s.protEn q = true ∧ s.bitAt (Reg.tblProt q) 11 = true ∧ s.onAlternate q = true ∧ badAt s.tbl.badProt q = false ∧
    s.portFault (s.protPrimary q) = false ∧ (s.pt (s.protPrimary q)).cleanAt + s.fld (Reg.tblProt q) 14 12 * 1000000000 ≤ s.uptime) ∧
  (∃ (s : State), s.life = .up ∧ s.shadowMode ≠ 0) ∧
  (∃ (s : State) (i : _) (e : _), s.life = .up ∧ i < 262144 ∧ s.way i = some e ∧ e.stat = false ∧ e.bad = false ∧ s.fld Reg.tblAge 0 16 ≠ 0 ∧ e.hit = true ∧
    i ∉ s.scanTick.tbl.hits) ∧
  (∃ (s : State) (i : _) (e : _), s.life = .up ∧ i < 262144 ∧ s.way i = some e ∧ e.stat = false ∧ e.bad = false ∧ s.fld Reg.tblAge 0 16 ≠ 0 ∧ (e.hit = false ∨
    i ∈ s.scanTick.tbl.hits)) ∧
  (∃ (s : State), s.life = .up) ∧
  (∃ (s : State) (i : _) (e : _), s.life = .up ∧ s.way i = some e) ∧
  (∃ (s : State) (i : _), s.life = .up ∧ s.way i = none) ∧
  (∃ (s : State) (q : Nat), q < 16 ∧ s.protEn q = true ∧ badAt s.tbl.badProt q = false ∧ s.portFault (s.protActive q) = true ∧ s.portFault (s.protOther q)
    = false) ∧
  (∃ (s : State) (q : Nat), q < 16 ∧ s.protEn q = true ∧ badAt s.tbl.badProt q = false ∧ s.portFault (s.protActive q) = true ∧ s.portFault (s.protOther q)
    = true) :=
  ⟨
    ⟨base.setFld Reg.tblFdbStat 0 1 1, by decide +kernel⟩,
    ⟨base, 15, by decide +kernel⟩,
    ⟨later (((base.wr (Reg.tblProt 15) (w32 (0 + 23 * 32 + 1024 + 2048 + 16384))).onTbl fun x => { x with onAlt := [(15, true)] }).onPt 0 fun x => { x with up := true }),
      15, by decide +kernel⟩,
    ⟨(base.setFld Reg.swcDramStat 16 1 1).setFld Reg.tblShadowCtrl 0 2 1, by decide +kernel⟩,
    ⟨(base.setFld Reg.tblAge 0 16 1).setWay 262143 (some (ent true)), 262143, (ent true), by decide +kernel⟩,
    ⟨(base.setFld Reg.tblAge 0 16 1).setWay 262143 (some (ent false)), 262143, (ent false), by decide +kernel⟩,
    ⟨base, by decide +kernel⟩,
    ⟨base.setWay 262143 (some (ent false)), 262143, (ent false), by decide +kernel⟩,
    ⟨base, 262143, by decide +kernel⟩,
    ⟨(base.wr (Reg.tblProt 15) (w32 (0 + 23 * 32 + 1024))).onPt 23 fun x => { x with up := true }, 15, by decide +kernel⟩,
    ⟨base.wr (Reg.tblProt 15) (w32 (0 + 23 * 32 + 1024)), 15, by decide +kernel⟩⟩

theorem test_hyps_TimeCommandsComplete :
  (∃ (s : State) (h : CmdHdr), Admitted s h 0x0401 { role := .any }) ∧
  (∃ (s : State) (h : CmdHdr) (d : _) (n : _) (prof : _), d < 2 ∧ n < 256 ∧ prof < 3 ∧ (n ≠ (s.receive h 0x0402).fld (Reg.tsuDom d) 8 8 → d ≠ (s.receive h 0x0402).tim.active)
    ∧ Admitted s h 0x0402 { reins := [13] }) ∧
  (∃ (s : State) (h : CmdHdr) (raws : List Raw), 1 ≤ raws.length ∧ raws.length ≤ 16 ∧ Admitted s h 0x0403 { role := .any }) ∧
  (∃ (s : State) (h : CmdHdr) (p : _) (prof : _) (fl : _) (ls : _) (la : _) (ld : _) (tmo : _), p < 28 ∧ (s.receive h 0x0404).exists p = true ∧ prof < 5 ∧
    (24 ≤ p → prof ≠ 2 ∧ prof ≠ 3) ∧ (prof = 4 → ((s.receive h 0x0404).owner 0 p).getD 0 < 4) ∧ fl < 256 ∧ (24 ≤ p → fl.testBit 2 = false ∧ fl.testBit 3 = false)
    ∧ fl / 16 % 4 < 3 ∧ fl / 64 < 3 ∧ (1 ≤ prof → prof ≤ 3 → fl % 4 ≠ 0) ∧ (if 24 ≤ p then -3 else -7) ≤ ls ∧ ls ≤ 1 ∧ -3 ≤ la ∧ la ≤ 4 ∧ -4 ≤ ld ∧ ld ≤ 5 ∧
    2 ≤ tmo ∧ tmo ≤ 10 ∧ (1 ≤ prof → (s.receive h 0x0404).native p = false) ∧ Admitted s h 0x0404 { owned := [(0, p)], reins := [13, portRein p] }) ∧
  (∃ (s : State) (h : CmdHdr) (p : _), p < 28 ∧ (s.receive h 0x0405).exists p = true ∧ Admitted s h 0x0405 { role := .any, owned := [(0, p)] }) ∧
  (∃ (s : State) (h : CmdHdr), (s.receive h 0x0411).tim.armed.isSome = true ∧ Admitted s h 0x0411 { reins := [13] }) ∧
  (∃ (s : State) (h : CmdHdr) (d : _), d < 2 ∧ d ≠ (s.receive h 0x0412).tim.active ∧ Admitted s h 0x0412 { reins := [13] }) ∧
  (∃ (s : State) (h : CmdHdr) (sl : Word) (sa : Word) (sb : Word) (th : _), 1 ≤ sl.toNat ∧ sl.toNat ≤ 100000 ∧ getFld sa 0 4 ≤ 10 ∧ getFld sb 0 4 ≤ 10 ∧
    th < 65536 ∧ Admitted s h 0x0481 { reins := [13] }) ∧
  (∃ (s : State) (h : CmdHdr), Admitted s h 0x0491 { role := .prin, reins := [13] }) ∧
  (∃ (s : State) (h : CmdHdr) (sec : _), (s.receive h 0x0410).switchSecOk sec = true ∧ (s.receive h 0x0410).tim.armed = none ∧ ((s.receive h 0x0410).domState (s.receive h 0x0410).tim.active ≠ 0 ∨
    sec = none) ∧ Admitted s h 0x0410 { reins := [13] }) ∧
  (∃ (s : State) (h : CmdHdr) (sec : _), (s.receive h 0x0490).switchSecOk sec = true ∧ (s.receive h 0x0490).tim.armed = none ∧ ((s.receive h 0x0490).domState (s.receive h 0x0490).tim.active ≠ 0 ∨
    sec = none) ∧ Admitted s h 0x0490 { reins := [13] }) :=
  ⟨
    ⟨base, hd false, by unfold Admitted; decide +kernel⟩,
    ⟨base, hd false, 1, 255, 2, by unfold Admitted; decide +kernel⟩,
    ⟨base, hd false, List.replicate 16 0, by unfold Admitted; decide +kernel⟩,
    ⟨base.onPt 27 fun x => x, hd false, 27, 1, 1, 1, 4, 5, 10, by unfold Admitted; decide +kernel⟩,
    ⟨base, hd false, 27, by unfold Admitted; decide +kernel⟩,
    ⟨{ base with tim := { base.tim with armed := some { dom := 1, sec := 0, force := false } } }, hd false, by unfold Admitted; decide +kernel⟩,
    ⟨base, hd false, 1, by unfold Admitted; decide +kernel⟩,
    ⟨base, hd true, 100000, 10, 10, 65535, by unfold Admitted; decide +kernel⟩,
    ⟨base, hd true, by unfold Admitted; decide +kernel⟩,
    ⟨base, hd false, none, by unfold Admitted; decide +kernel⟩,
    ⟨base, hd true, none, by unfold Admitted; decide +kernel⟩⟩

theorem test_hyps_LinkTimeCommandsComplete :
  (∃ (s : State) (h : CmdHdr) (p : Nat) (prof : _), p < 24 ∧ prof < 2 ∧ (s.receive h 0x0420).exists p = true ∧ (s.receive h 0x0420).native p = true ∧
    Admitted s h 0x0420 { owned := [(0, p)], reins := [13] }) ∧
  (∃ (s : State) (h : CmdHdr) (p : Nat), p < 24 ∧ (s.receive h 0x0421).exists p = true ∧ (s.receive h 0x0421).native p = true ∧ Admitted s h 0x0421 { role := .any, owned := [(0, p)] }) ∧
  (∃ (s : State) (h : CmdHdr) (p : Nat) (d : _) (flags : _) (p1 : _) (p2 : _) (cls : _) (acc : _) (utc : _) (sec : _) (ns : _) (given : _), p < 24 ∧ d < 2 ∧
    flags < 256 ∧ p1 < 256 ∧ p2 < 256 ∧ cls < 256 ∧ acc < 256 ∧ -32768 ≤ utc ∧ utc ≤ 32767 ∧ (given = true → sec < 2 ^ 48 ∧ ns < 1000000000) ∧
    Admitted s h 0x0422 { reins := [13] } ∧ ((s.receive h 0x0422).onDm d (fun x => { x with gm := { flags := flags, prio1 := p1, prio2 := p2, cls := cls, accuracy := acc, utc := utc, init := if given then some (sec, ns) else none } })).gmSelf d = false) ∧
  (∃ (s : State) (h : CmdHdr) (p : Nat) (d : _) (flags : _) (p1 : _) (p2 : _) (cls : _) (acc : _) (utc : _) (sec : _) (ns : _) (given : _), p < 24 ∧ d < 2 ∧
    flags < 256 ∧ p1 < 256 ∧ p2 < 256 ∧ cls < 256 ∧ acc < 256 ∧ -32768 ≤ utc ∧ utc ≤ 32767 ∧ (given = true → sec < 2 ^ 48 ∧ ns < 1000000000) ∧
    Admitted s h 0x0422 { reins := [13] } ∧ ((s.receive h 0x0422).onDm d (fun x => { x with gm := { flags := flags, prio1 := p1, prio2 := p2, cls := cls, accuracy := acc, utc := utc, init := if given then some (sec, ns) else none } })).gmSelf d = true ∧
    flags % 2 = 1) ∧
  (∃ (s : State) (h : CmdHdr) (p : Nat) (d : _) (flags : _) (p1 : _) (p2 : _) (cls : _) (acc : _) (utc : _) (sec : _) (ns : _) (given : _), p < 24 ∧ d < 2 ∧
    flags < 256 ∧ p1 < 256 ∧ p2 < 256 ∧ cls < 256 ∧ acc < 256 ∧ -32768 ≤ utc ∧ utc ≤ 32767 ∧ (given = true → sec < 2 ^ 48 ∧ ns < 1000000000) ∧
    Admitted s h 0x0422 { reins := [13] } ∧ ((s.receive h 0x0422).onDm d (fun x => { x with gm := { flags := flags, prio1 := p1, prio2 := p2, cls := cls, accuracy := acc, utc := utc, init := if given then some (sec, ns) else none } })).gmSelf d = true ∧
    flags % 2 = 0 ∧ best (((s.receive h 0x0422).onDm d (fun x => { x with gm := { flags := flags, prio1 := p1, prio2 := p2, cls := cls, accuracy := acc, utc := utc, init := if given then some (sec, ns) else none } })).candidates d)
    = none) ∧
  (∃ (s : State) (h : CmdHdr) (p : Nat) (d : _) (flags : _) (p1 : _) (p2 : _) (cls : _) (acc : _) (utc : _) (sec : _) (ns : _) (given : _), p < 24 ∧ d < 2 ∧
    flags < 256 ∧ p1 < 256 ∧ p2 < 256 ∧ cls < 256 ∧ acc < 256 ∧ -32768 ≤ utc ∧ utc ≤ 32767 ∧ (given = true → sec < 2 ^ 48 ∧ ns < 1000000000) ∧
    Admitted s h 0x0422 { reins := [13] } ∧ ((s.receive h 0x0422).onDm d (fun x => { x with gm := { flags := flags, prio1 := p1, prio2 := p2, cls := cls, accuracy := acc, utc := utc, init := if given then some (sec, ns) else none } })).gmSelf d = true ∧
    flags % 2 = 0 ∧ (best (((s.receive h 0x0422).onDm d (fun x => { x with gm := { flags := flags, prio1 := p1, prio2 := p2, cls := cls, accuracy := acc, utc := utc, init := if given then some (sec, ns) else none } })).candidates d)).isSome = true) ∧
  (∃ (s : State) (h : CmdHdr) (p : Nat) (a : _) (d : _), p < 24 ∧ -4294967 ≤ a ∧ a ≤ 4294967 ∧ (p < 16 ∨ a = 0) ∧ -16000000 ≤ d ∧ d ≤ 16000000 ∧
    (s.receive h 0x0482).exists p = true ∧ Admitted s h 0x0482 { owned := [(0, p)], reins := [13] }) :=
  ⟨
    ⟨base, hd false, 23, 1, by unfold Admitted; decide +kernel⟩,
    ⟨base, hd false, 23, by unfold Admitted; decide +kernel⟩,
    ⟨base, hd false, 23, 1, 0, 255, 255, 255, 255, -32768, 2 ^ 48 - 1, 999999999, true, by unfold Admitted; decide +kernel⟩,
    ⟨base.wr (Reg.tsuDom 1) 0x40, hd false, 23, 1, 255, 255, 255, 255, 255, -32768, 2 ^ 48 - 1, 999999999, true, by unfold Admitted; decide +kernel⟩,
    ⟨base.wr (Reg.tsuDom 1) 0x40, hd false, 23, 1, 254, 255, 255, 255, 255, -32768, 2 ^ 48 - 1, 999999999, true, by unfold Admitted; decide +kernel⟩,
    ⟨(cand (part 23) 23 0 1).wr (Reg.tsuDom 0) 0x40, hd false, 23, 0, 254, 255, 255, 255, 255, -32768, 2 ^ 48 - 1, 999999999, true, by unfold Admitted; decide +kernel⟩,
    ⟨base, hd true, 15, -4294967, 16000000, by unfold Admitted; decide +kernel⟩⟩

theorem test_hyps_TimeEventsComplete :
  (∃ (s : State) (d : _), s.life = .up ∧ d < 2 ∧ s.domState d = 1 ∧ (s.dm d).lockAt + 150000000000 ≤ s.now) ∧
  (∃ (s : State) (d : _), s.life = .up ∧ d < 2 ∧ s.bitAt (Reg.tsuDom d) 2 = true ∧ (s.dm d).holdAt + s.fld Reg.tsuCtrl 0 16 * 1000000000 ≤ s.uptime) ∧
  (∃ (s : State) (a : _), s.life = .up ∧ s.tim.armed = some a ∧ (a.sec ≤ s.netTime.1 ∨ s.domState s.tim.active = 0) ∧ (s.switchTo a.dom a.force).isSome = true) ∧
  (∃ (s : State) (a : _), s.life = .up ∧ s.tim.armed = some a ∧ (a.sec ≤ s.netTime.1 ∨ s.domState s.tim.active = 0) ∧ s.switchTo a.dom a.force = none) ∧
  (∃ (s : State), s.life = .up ∧ s.tim.slewing = true ∧ s.tim.bridge = 0) ∧
  (∃ (s : State) (d : _), s.life = .up ∧ d < 2 ∧ s.gmSelf d = true ∧ (s.dm d).gm.flags.testBit 4 = true ∧ s.bitAt (Reg.clkRefStat 5) 1 = true ∧
    s.domState d = 0) ∧
  (∃ (s : State) (d : Nat), s.life = .up ∧ d < 2 ∧ s.gmSelf d = true ∧ (s.dm d).gm.flags.testBit 4 = true ∧ s.bitAt (Reg.clkRefStat 5) 1 = true ∧
    s.domState d ≠ 0) ∧
  (∃ (s : State) (d : _), s.life = .up ∧ d < 2 ∧ s.fwOn = true ∧ (best (s.candidates d)).isSome = true ∧ s.following d = none) ∧
  (∃ (s : State) (d : _), s.life = .up ∧ d < 2 ∧ s.fwOn = true ∧ best (s.candidates d) = none ∧ (s.following d).isSome = true) ∧
  (∃ (s : State) (d p : Nat) (c : List Nat) (w : Nat × List Nat), s.life = .up ∧ d < 2 ∧ s.fwOn = true ∧ best (s.candidates d) = some w ∧ s.following d = some p ∧
    p ≠ w.1 ∧ (p, c) ∈ s.candidates d ∧ (s.infoOf d).gmId ≠ w.2.getD 4 0 ∧ (s.dm d).rival = none) ∧
  (∃ (s : State) (d g r : Nat) (w : Nat × List Nat), s.life = .up ∧ d < 2 ∧ s.fwOn = true ∧ (s.dm d).rival = some (g, r) ∧ best (s.candidates d) = some w ∧
    g = w.2.getD 4 0 ∧ r + 3750000000 ≤ s.now) :=
  ⟨
    ⟨later (base.wr (Reg.tsuDom 1) 1), 1, by decide +kernel⟩,
    ⟨later (base.wr (Reg.tsuDom 1) 4), 1, by decide +kernel⟩,
    ⟨{ (base.wr (Reg.tsuDom 1) 2) with tim := { base.tim with armed := some { dom := 1, sec := 0, force := false } } }, { dom := 1, sec := 0, force := false },
      by decide +kernel⟩,
    ⟨{ base with tim := { base.tim with armed := some { dom := 1, sec := 0, force := false } } }, { dom := 1, sec := 0, force := false }, by decide +kernel⟩,
    ⟨{ base with tim := { base.tim with slewing := true } }, by decide +kernel⟩,
    ⟨((base.wr (Reg.tsuDom 1) 0x40).wr (Reg.clkRefStat 5) 2).onDm 1 fun x => { x with gm := { flags := 16 } }, 1, by decide +kernel⟩,
    ⟨((base.wr (Reg.tsuDom 1) 0x41).wr (Reg.clkRefStat 5) 2).onDm 1 fun x => { x with gm := { flags := 16 } }, 1, by decide +kernel⟩,
    ⟨base.onDm 1 fun x => { x with gm := { flags := 1 } }, 1, by decide +kernel⟩,
    ⟨base.wr (Reg.tsuDom 1) 0x200000, 1, by decide +kernel⟩,
    ⟨(cand (cand base 23 0 2) 22 0 1).wr (Reg.tsuDom 0) 0x370000, 0, 23, infoTuple { gmId := 2, prio1 := 2, locked := true } 0 23, (22, infoTuple { gmId := 1, prio1 := 1, locked := true } 0 22),
      by decide +kernel⟩,
    ⟨(cand (later base) 22 1000000000000 1).onDm 0 fun x => { x with rival := some (1, 996250000000) }, 0, 1, 996250000000, (22, infoTuple { gmId := 1, prio1 := 1, locked := true } 0 22),
      by decide +kernel⟩⟩

theorem test_hyps_ExchangeCompletes :
  (∃ (s : State) (p : Nat), s.life = .up ∧ p < 24 ∧ s.takesPart p = true ∧ (∀ r, (s.ptm p).reqAt = some r → r + s.reqEvery p ≤ s.now) ∧ s.mayMessage p 14 = true) ∧
  (∃ (s : State) (p : Nat) (words : List Nat) (t2 : RxStamp) (t3 : Nat), s.life = .up ∧ p < 24 ∧ s.takesPart p = true ∧ timeOk 0 words = true ∧ 0 ≤ (stampFine (s.txPlane p t3))
    - (stampFine (s.rxPlane p t2)) ∧ (stampFine (s.txPlane p t3)) - (stampFine (s.rxPlane p t2)) ≤ 25000 * 65536 ∧ s.mayMessageIn p 24 (t3 / 256 - s.now)
    = true) ∧
  (∃ (s : State) (p : Nat) (words : List Nat) (t2 : RxStamp) (t3 : Nat), s.life = .up ∧ p < 24 ∧ s.takesPart p = true ∧ timeOk 0 words = true ∧ 25000 * 65536 < stampFine (s.txPlane p t3)
    - stampFine (s.rxPlane p t2)) ∧
  (∃ (s : State) (p : Nat) (words : List Nat) (t4 : RxStamp), s.life = .up ∧ p < 24 ∧ s.takesPart p = true ∧ timeOk 1 words = true ∧ (s.ptm p).waiting = true ∧
    (respOf words).echo = (s.ptm p).reqSeq ∧ stampFine (s.rxPlane p t4) - (s.ptm p).t1 ≤ 375000 * 65536) ∧
  (∃ (s : State) (p : Nat) (r : _), s.life = .up ∧ p < 24 ∧ s.takesPart p = true ∧ (s.ptm p).exchAt = some r ∧ r + (if s.fastReq p then 1250000000 else 3750000000)
    ≤ s.now) ∧
  (∃ (s : State) (p d : Nat), s.life = .up ∧ p < 24 ∧ d < 2 ∧ s.carries p d = true ∧ (s.domState d ≠ 0 ∨ s.gmSelf d = true) ∧ (∀ o r, (s.ptm p).sentInfo d = some (o,
    r) → o ≠ s.infoOf d ∨ r + 1250000000 ≤ s.now) ∧ s.mayMessage p 14 = true) ∧
  (∃ (s : State) (p : Nat) (words : List Nat), s.life = .up ∧ p < 24 ∧ timeOk 2 words = true ∧ s.carries p ((infoMsgOf words).which % 2) = true) ∧
  (∃ (s : State) (p : Nat) (d : _) (m : _) (r : _), s.life = .up ∧ p < 24 ∧ d < 2 ∧ (s.ptm p).info d = some (m, r) ∧ r + 3750000000 ≤ s.now ∧ s.isUp p d = false) ∧
  (∃ (s : State) (p : Nat), s.life = .up ∧ p < 24 ∧ s.native p = true ∧ s.bitAt (Reg.ttStat p) 0 = true) ∧
  (∃ (s : State) (p : Nat), s.life = .up ∧ p < 24 ∧ s.native p = true ∧ (s.pt p).up = true) :=
  ⟨
    ⟨(later (part 23)).onPtm 23 fun x => { x with reqAt := some 998750000000 }, 23, by decide +kernel, by decide, by decide +kernel, fun r h => by
      have h : some 998750000000 = some r := h
      cases h; decide +kernel, by decide +kernel⟩,
    ⟨part 23, 23, reqw, { at_ := 0 }, 6400000, by decide +kernel⟩,
    ⟨part 23, 23, reqw, { at_ := 0 }, 6425600, by decide +kernel⟩,
    ⟨(part 23).onPtm 23 fun x => { x with waiting := true }, 23, crcd (respWords resp), { at_ := 96000000 }, by decide +kernel⟩,
    ⟨(later (part 23)).onPtm 23 fun x => { x with exchAt := some 0 }, 23, 0, by decide +kernel⟩,
    ⟨((later (part 23)).wr (Reg.tsuDom 0) 1).onPtm 23 fun x => { x with sentA := some (info, 998750000000) }, 23, 0, by decide +kernel, by decide, by decide, by decide +kernel, by decide +kernel, fun o r h => by
      have h : some (info, 998750000000) = some (o, r) := h
      cases h; exact .inr (by decide +kernel), by decide +kernel⟩,
    ⟨part 23, 23, crcd (infoWords info), by decide +kernel⟩,
    ⟨(later base).onPtm 23 fun x => { x with infoA := some (info, 0) }, 23, 0, info, 0, by decide +kernel⟩,
    ⟨base.wr (Reg.ttStat 23) 1, 23, by decide +kernel⟩,
    ⟨link 23, 23, by decide +kernel⟩⟩

theorem test_hyps_PtpCompletes :
  (∃ (s : State) (p : Nat) (msg : PtpMsg), s.life = .up ∧ p < 28 ∧ s.ptpOn p = true ∧ msg.kind = .management) ∧
  (∃ (s : State) (p : Nat) (msg : PtpMsg), s.life = .up ∧ p < 28 ∧ s.ptpOn p = true ∧ msg.kind = .announce ∧ s.fwOn = true ∧ s.ptpDoms p msg.domain ≠ [] ∧
    msg.parent / 65536 ≠ s.eui ∧ (s.ptm p).takes = true ∧ ((s.ptm p).profile = 3 → s.eui ∉ msg.path)) ∧
  (∃ (s : State) (p : Nat) (msg : PtpMsg), s.life = .up ∧ p < 28 ∧ s.ptpOn p = true ∧ msg.kind = .sync ∧ msg.twoStep = true ∧ (s.ptm p).ptp.follows = true ∧
    (s.ptm p).takes = true) ∧
  (∃ (s : State) (p : Nat) (msg : PtpMsg) (d : _) (ds : _), s.life = .up ∧ p < 28 ∧ s.ptpOn p = true ∧ msg.kind = .delayReq ∧ s.ptpDoms p msg.domain = d :: ds ∧
    (s.ptm p).profile = 1 ∧ (s.ptm p).ptp = .master) ∧
  (∃ (s : State) (p : Nat) (d : _), s.life = .up ∧ p < 28 ∧ d < 2 ∧ s.ptpOn p = true ∧ s.ptpNames p d = true ∧ (s.ptm p).ptp = .master ∧ s.hasTime d = true ∧
    (s.ptm p).takes = true ∧ intervalDue (s.ptm p).syncAt d s.now (logTicks (s.ptm p).logSync) = true) ∧
  (∃ (s : State) (p : Nat) (d : _) (q : _) (st : _) (rest : _), s.life = .up ∧ p < 28 ∧ d < 2 ∧ s.ptpOn p = true ∧ s.ptpNames p d = true ∧ (s.ptm p).fuSync = (d,
    q, st) :: rest) ∧
  (∃ (s : State) (p d : Nat), s.life = .up ∧ p < 28 ∧ d < 2 ∧ s.ptpOn p = true ∧ s.ptpNames p d = true ∧ (s.ptm p).profile = 1 ∧ (s.ptm p).ptp.follows = true ∧
    s.ptpUp p d = true ∧ (∀ r, (s.ptm p).reqTxAt = some r → r + logTicks (s.ptm p).logDelay ≤ s.now)) ∧
  (∃ (s : State) (p d : Nat), s.life = .up ∧ p < 28 ∧ d < 2 ∧ s.ptpOn p = true ∧ s.ptpNames p d = true ∧ ((s.ptm p).profile = 2 ∨ (s.ptm p).profile = 3)
    ∧ (∀ r, (s.ptm p).reqTxAt = some r → r + logTicks (s.ptm p).logDelay ≤ s.now)) ∧
  (∃ (s : State) (p : Nat) (d : _), s.life = .up ∧ p < 28 ∧ d < 2 ∧ s.fwOn = true ∧ s.ptpOn p = true ∧ s.ptpTarget p = .master ∧ (s.ptm p).ptp = .master ∧
    s.ptpNames p d = true ∧ s.hasTime d = true ∧ (s.ptm p).takes = true ∧ intervalDue (s.ptm p).annAt d s.now (logTicks (s.ptm p).logAnnounce) = true) ∧
  (∃ (s : State) (p : Nat) (m : _) (r : _), s.life = .up ∧ p < 28 ∧ s.fwOn = true ∧ (s.ptm p).announce = some (m, r) ∧ r + (s.ptm p).announceTmo * logTicks (s.ptm p).logAnnounce ≤ s.now) :=
  ⟨
    ⟨(base.onPt 27 fun x => { x with up := true }).onPtm 27 fun x => { x with profile := 1, flags := 3 }, 27, { ptpm with kind := .management }, by decide +kernel⟩,
    ⟨(base.onPt 27 fun x => { x with up := true }).onPtm 27 fun x => { x with profile := 1, flags := 3 }, 27, { ptpm with domain := base.fld (Reg.tsuDom 0) 8 8, parent := (base.eui + 1) * 65536 }, by decide +kernel, by decide, by decide +kernel, rfl, by decide +kernel, by decide +kernel, fun h => by
      have e : (((base.onPt 27 fun x => { x with up := true }).onPtm 27 fun x => { x with profile := 1, flags := 3 }).eui) = base.eui := rfl
      dsimp only at h
      rw [e] at h
      omega, by decide +kernel, fun h => absurd h (by decide +kernel)⟩,
    ⟨(base.onPt 27 fun x => { x with up := true }).onPtm 27 fun x => { x with profile := 1, flags := 3, ptp := .slave }, 27, { ptpm with kind := .sync, twoStep := true },
      by decide +kernel⟩,
    ⟨(base.onPt 27 fun x => { x with up := true }).onPtm 27 fun x => { x with profile := 1, flags := 1, ptp := .master }, 27, { ptpm with kind := .delayReq, domain := base.fld (Reg.tsuDom 0) 8 8 },
      0, [], by decide +kernel⟩,
    ⟨((base.onPt 27 fun x => { x with up := true }).wr (Reg.tsuDom 0) 1).onPtm 27 fun x => { x with profile := 1, flags := 3, ptp := .master }, 27, 0,
      by decide +kernel⟩,
    ⟨(base.onPt 27 fun x => { x with up := true }).onPtm 27 fun x => { x with profile := 1, flags := 3, fuSync := [(1, 65535, 0)] }, 27, 1, 65535, 0,
      [], by decide +kernel⟩,
    ⟨((later base).wr (Reg.tsuDom 1) 0x5B0000).onPt 27 (fun x => { x with up := true }) |>.onPtm 27 fun x => { x with profile := 1, flags := 3, ptp := .slave, reqTxAt := some 0 }, 27, 1, by decide +kernel, by decide, by decide, by decide +kernel, by decide +kernel, by decide +kernel, by decide +kernel, by decide +kernel, fun r h => by
      have h : some 0 = some r := h
      cases h; decide +kernel⟩,
    ⟨(later base).onPt 23 (fun x => { x with up := true, mode := .std25 }) |>.onPtm 23 fun x => { x with profile := 3, flags := 3, reqTxAt := some 0 }, 23, 1, by decide +kernel, by decide, by decide, by decide +kernel, by decide +kernel, by decide +kernel, fun r h => by
      have h : some 0 = some r := h
      cases h; decide +kernel⟩,
    ⟨((base.onPt 27 fun x => { x with up := true }).wr (Reg.tsuDom 0) 1).onPtm 27 fun x => { x with profile := 1, flags := 3, ptp := .master }, 27, 0,
      by decide +kernel⟩,
    ⟨(later base).onPtm 27 fun x => { x with announce := some (ptpm, 0) }, 27, ptpm, 0, by decide +kernel⟩⟩

theorem test_hyps_RebaseAndMeasurementAct :
  (∃ rate : Int, -2147483648 ≤ rate ∧ rate ≤ 2147483647) ∧
  (∃ (s : State) (d : Nat) (theta : Int), d < 2 ∧ s.domState d = 0 ∧ s.bitAt Reg.clkOven 0 = true ∧ agreeing ((theta :: (s.dm d).agree).take 4) = true) ∧
  (∃ (s : State) (d : Nat) (theta : Int), d < 2 ∧ s.domState d = 0 ∧ agreeing ((theta :: (s.dm d).agree).take 4) = false) ∧
  (∃ (s : State) (d : Nat), d < 2 ∧ s.domState d = 1 ∧ (s.dm d).inLock < 15) ∧
  (∃ (s : State) (d : Nat) (theta : Int), d < 2 ∧ s.domState d = 1 ∧ 15 ≤ (s.dm d).inLock ∧ theta.natAbs ≤ s.fld (Reg.tsuLockcfg d) 0 10 * 2 ^ 32) :=
  ⟨
    ⟨-2147483648, by decide⟩,
    ⟨(base.wr Reg.clkOven 1).onDm 1 fun x => { x with agree := [0, 0, 0] }, 1, 0, by decide +kernel⟩,
    ⟨base, 1, 0, by decide +kernel⟩,
    ⟨base.wr (Reg.tsuDom 1) 1, 1, by decide +kernel⟩,
    ⟨(base.wr (Reg.tsuDom 1) 1).onDm 1 fun x => { x with inLock := 15 }, 1, -((base.fld (Reg.tsuLockcfg 1) 0 10 * 2 ^ 32 : Nat) : Int), by decide +kernel⟩⟩

theorem test_hyps_SwitchKeepsOutput :
  (∃ (s : State) (d : Nat) (force : Bool), d < 2 ∧ s.domState s.tim.active ≠ 0 ∧ (s.switchTo d force).isSome = true) ∧
  (∃ (s : State), s.tim.slewing = true ∧ 0 ≤ s.tim.bridge) ∧
  (∃ (s : State), s.tim.slewing = true ∧ s.tim.bridge ≤ 0) ∧
  (∃ (s : State), s.tim.slewing = true) ∧
  (∃ (s : State), s.tim.slewing = true ∧ s.slewTick.tim.bridge = 0) :=
  ⟨
    ⟨(base.wr (Reg.tsuDom 0) 2).wr (Reg.tsuDom 1) 2, 1, false, by decide +kernel⟩,
    ⟨{ base with tim := { base.tim with slewing := true, bridge := 5 } }, by decide +kernel⟩,
    ⟨{ base with tim := { base.tim with slewing := true, bridge := -5 } }, by decide +kernel⟩,
    ⟨{ base with tim := { base.tim with slewing := true, bridge := -5 } }, by decide +kernel⟩,
    ⟨{ base with tim := { base.tim with slewing := true } }, by decide +kernel⟩⟩

theorem test_hyps_EpochResetRule :
  (∃ (s : State) (c : _), c < 8 ∧ s.bitAt (Reg.evtRoute 132) c = true) ∧
  (∃ (s : State) (theta : Int) (l : List Int), (s.epochReset.onDm s.epochReset.tim.active (fun x => { x with agree := l })).bitAt Reg.clkOven 0 = true ∧
    agreeing ((theta :: l).take 4) = true) ∧
  (∃ (s : State) (c : Nat), s.life = .up ∧ c < 8 ∧ s.role c ≠ .principal) ∧
  (∃ (s : State) (c : Nat) (g : GuardPair), s.life = .up ∧ c < 8 ∧ s.role c = .principal ∧ (s.cx c).guard = some g ∧ g.addr = Reg.tsuEpochReset ∧
    g.value = 1 ∧ s.now ≤ g.raw.toNat + 1250000) ∧
  (∃ (s : State) (h : CmdHdr), h.ctx < 8 ∧ s.fwOn = true ∧ s.hasRoom h.ctx = true ∧ (s.cx h.ctx).expert = false) ∧
  (∃ (s : State) (h : CmdHdr), h.ctx < 8 ∧ s.fwOn = true ∧ s.hasRoom h.ctx = true ∧ (s.cx h.ctx).expert = true ∧ h.expert = true ∧ s.role h.ctx ≠ .principal) ∧
  (∃ (s : State) (h : CmdHdr), h.ctx < 8 ∧ s.fwOn = true ∧ s.hasRoom h.ctx = true ∧ Admitted s h 0x0491 { role := .prin, reins := [13] }) :=
  ⟨
    ⟨base, 0, by decide +kernel⟩,
    ⟨base.wr Reg.clkOven 1, 0, [0, 0, 0], by decide +kernel⟩,
    ⟨base, 7, by decide +kernel⟩,
    ⟨paired Reg.tsuEpochReset 1, 0, { addr := Reg.tsuEpochReset, value := 1, raw := 0 }, by decide +kernel⟩,
    ⟨base.onCx 0 fun x => { x with expert := false }, hd true, by decide +kernel⟩,
    ⟨base.onCx 4 fun x => { x with expert := true }, { hd true with ctx := 4 }, by decide +kernel⟩,
    ⟨base, hd true, by unfold Admitted; decide +kernel⟩⟩

theorem test_hyps_ClockCommandsComplete :
  (∃ (s : State) (h : CmdHdr) (rank : _) (freq : _), rank < 16 ∧ freq < 3 ∧ Admitted s h 0x0501 { reins := [12] }) ∧
  (∃ (s : State) (h : CmdHdr) (rank : _), rank < 16 ∧ Admitted s h 0x0501 { reins := [12] }) ∧
  (∃ (s : State) (h : CmdHdr) (i : _) (rank : _), 1 ≤ i ∧ i ≤ 4 ∧ rank < 16 ∧ Admitted s h 0x0501 { reins := [12] }) ∧
  (∃ (s : State) (h : CmdHdr) (i : _) (p : _) (rank : _), 1 ≤ i ∧ i ≤ 4 ∧ p < 24 ∧ (s.receive h 0x0501).exists p = true ∧ rank < 16 ∧ Admitted s h 0x0501 { owned := [(0, p)], reins := [12] }) ∧
  (∃ (s : State) (h : CmdHdr) (mode : _) (i : _), mode < 4 ∧ i < 8 ∧ (s.receive h 0x0502).fld Reg.clkRsel 0 3 = 0 ∧ Admitted s h 0x0502 { reins := [12] }) ∧
  (∃ (s : State) (h : CmdHdr), Admitted s h 0x0503 { role := .any }) ∧
  (∃ (s : State) (h : CmdHdr) (pm : _) (w : _) (d : _), pm < 2 ∧ w ≤ 3600 ∧ 1 ≤ d ∧ d ≤ 10000 ∧ Admitted s h 0x0504 { reins := [12] }) ∧
  (∃ (s : State) (h : CmdHdr) (bw : _), bw ≤ 10 ∧ Admitted s h 0x0581 { reins := [12] }) ∧
  (∃ (s : State) (h : CmdHdr) (n : _) (a : _) (force : _), n < 6 ∧ a < 2 ∧ (s.receive h 0x0582).synThere n = true ∧ Admitted s h 0x0582 { reins := [n + 1, 12] } ∧
    (force = true ∨ ∀ i, i < 4 → ((s.receive h 0x0582).pt (4 * n + i)).up = false)) :=
  ⟨
    ⟨base, hd false, 15, 2, by unfold Admitted; decide +kernel⟩,
    ⟨base, hd false, 15, by unfold Admitted; decide +kernel⟩,
    ⟨base, hd false, 4, 15, by unfold Admitted; decide +kernel⟩,
    ⟨base, hd false, 4, 23, 15, by unfold Admitted; decide +kernel⟩,
    ⟨base, hd false, 3, 7, by unfold Admitted; decide +kernel⟩,
    ⟨base, hd false, by unfold Admitted; decide +kernel⟩,
    ⟨base, hd false, 1, 3600, 10000, by unfold Admitted; decide +kernel⟩,
    ⟨base, hd true, 10, by unfold Admitted; decide +kernel⟩,
    ⟨base, hd true, 5, 1, false, by unfold Admitted; decide +kernel⟩⟩

theorem test_hyps_ClockEventsComplete :
  (∃ (s : State), s.life = .up) ∧
  (∃ (s : State) (i : _) (m : RefMeas), s.life = .up ∧ i < 6 ∧ 4600000 < (s.offsetOf i m + s.steering).natAbs) ∧
  (∃ (s : State) (i : _) (m : RefMeas), s.life = .up ∧ i < 6 ∧ 200000 < m.edge ∧ s.activeRef ≠ i) ∧
  (∃ (s : State) (i : _), s.life = .up ∧ i < 6 ∧ s.refBit i 0 = true) ∧
  (∃ (s : State) (i : _), s.life = .up ∧ s.sel = .auto ∧ s.candidateRef = some i ∧ s.activeRef ≠ i ∧ s.clk.next ≠ some i) ∧
  (∃ (s : State), s.life = .up ∧ s.sel = .auto ∧ s.candidateRef = none ∧ (s.dpll = 3 ∨ s.holdValid = true)) ∧
  (∃ (s : State), s.life = .up ∧ s.sel = .auto ∧ s.candidateRef = none ∧ s.dpll ≠ 3 ∧ s.holdValid = false) ∧
  (∃ (s : State) (pins : BitVec 3), s.life = .up ∧ s.fld Reg.clkRsel 0 3 ≠ pins.toNat) ∧
  (∃ (s : State) (err : _), s.life = .up ∧ s.activeRef < 6 ∧ s.rd Reg.clkPhaseErr = 0x80000000 ∧ s.clk.buildout = 0 ∧ -2147483648 ≤ err ∧ err ≤ 2147483647) ∧
  (∃ (s : State) (i : _) (m : _), s.life = .up ∧ s.clk.next = some i ∧ i < 5 ∧ -(500000 * 65536) ≤ m ∧ m ≤ 500000 * 65536) ∧
  (∃ (s : State) (m : _), s.life = .up ∧ s.clk.next = some 5 ∧ -(500000000 * 65536) ≤ m ∧ m ≤ 500000000 * 65536) ∧
  (∃ (s : State), s.life = .up ∧ s.ovenReady = false) ∧
  (∃ (s : State), s.life = .up ∧ s.ovenReady = true ∧ s.bitAt Reg.clkOven 1 = false) ∧
  (∃ (s : State), s.life = .up ∧ s.mgt.fw = .ready ∧ s.ovenReady = false ∧ s.bitAt Reg.clkOven 2 = false ∧ 300000000000 ≤ s.uptime) ∧
  (∃ (s : State) (n : _), s.life = .up ∧ n < 8 ∧ s.synThere n = true ∧ s.bitAt (Reg.clkSynStat n) 1 = true) ∧
  (∃ (s : State) (n : _), s.life = .up ∧ n < 8 ∧ s.synThere n = true ∧ s.bitAt (Reg.clkSynStat n) 1 = true ∧ Tab.get (fun _ => 0) s.clk.tries n = 2) ∧
  (∃ (s : State) (n : _), s.life = .up ∧ n < 8 ∧ s.synThere n = true ∧ s.bitAt (Reg.clkSynStat n) 1 = true ∧ Tab.get (fun _ => 0) s.clk.tries n ≠ 2) ∧
  (∃ (s : State) (n : _), s.life = .up ∧ n < 6 ∧ s.synThere n = true ∧ s.bitAt (Reg.clkSynStat n) 0 = true) ∧
  (∃ (s : State), s.life = .up ∧ s.dramReady = false) ∧
  (∃ (s : State), s.life = .up ∧ s.dramReady = true) :=
  ⟨
    ⟨base, by decide +kernel⟩,
    ⟨base, 5, { value := 5600001 }, by decide +kernel⟩,
    ⟨base, 5, { value := 0, edge := 200001 }, by decide +kernel⟩,
    ⟨base.wr (Reg.clkRefStat 5) 1, 5, by decide +kernel⟩,
    ⟨(base.wr (Reg.clkRefCfg 5) 15).wr (Reg.clkRefStat 5) 2, 5, by decide +kernel⟩,
    ⟨base.setFld Reg.clkDpllStat 5 1 1, by decide +kernel⟩,
    ⟨base, by decide +kernel⟩,
    ⟨base, 7, by decide +kernel⟩,
    ⟨(base.wr Reg.clkDpllStat 0).wr Reg.clkPhaseErr 0x80000000, 2147483647, by decide +kernel⟩,
    ⟨base.onClk fun x => { x with next := some 4 }, 4, 500000 * 65536, by decide +kernel⟩,
    ⟨base.onClk fun x => { x with next := some 5 }, 500000000 * 65536, by decide +kernel⟩,
    ⟨base, by decide +kernel⟩,
    ⟨base.wr Reg.clkOven 1, by decide +kernel⟩,
    ⟨{ base with uptime := 300000000000 }, by decide +kernel⟩,
    ⟨base.wr (Reg.clkSynStat 7) 2, 7, by decide +kernel⟩,
    ⟨(base.wr (Reg.clkSynStat 7) 2).onClk fun x => { x with tries := [(7, 2)] }, 7, by decide +kernel⟩,
    ⟨(base.wr (Reg.clkSynStat 7) 2).onClk fun x => { x with tries := [(7, 1)] }, 7, by decide +kernel⟩,
    ⟨base.wr (Reg.clkSynStat 5) 1, 5, by decide +kernel⟩,
    ⟨base, by decide +kernel⟩,
    ⟨base.setFld Reg.swcDramStat 16 1 1, by decide +kernel⟩⟩

theorem test_hyps_IntervalCommandsComplete :
  (∃ (s : State) (h : CmdHdr) (u : Nat) (pin : _) (func : _), u < 4 ∧ pin < 16 ∧ 1 ≤ func ∧ func ≤ 3 ∧ (func ≤ 2 → pin < 8) ∧ Admitted s h 0x0601 { owned := [(6, u)], reins := [15] } ∧
    (s.receive h 0x0601).bitAt (Reg.tioBridle pin) 19 = false ∧ (s.receive h 0x0601).pinOf func u = none) ∧
  (∃ (s : State) (h : CmdHdr) (u : Nat) (g : _) (pin : _), u < 4 ∧ pin < 16 ∧ g < 16 ∧ Admitted s h 0x0601 { owned := [(5, g)], reins := [15] } ∧
    (s.receive h 0x0601).bitAt (Reg.tioBridle pin) 19 = false ∧ (s.receive h 0x0601).pinOf 4 g = none) ∧
  (∃ (s : State) (h : CmdHdr) (u : Nat) (pin : _), u < 4 ∧ pin < 16 ∧ Admitted s h 0x0602 { owned := [(4, pin)], reins := [15] }) ∧
  (∃ (s : State) (h : CmdHdr) (u : Nat), u < 4 ∧ Admitted s h 0x0603 { role := .any }) ∧
  (∃ (s : State) (h : CmdHdr) (u : Nat), u < 4 ∧ (s.receive h 0x0610).lowestFree 6 4 = some u ∧ Admitted s h 0x0610 { reins := [15] }) ∧
  (∃ (s : State) (h : CmdHdr) (u : Nat), u < 4 ∧ Admitted s h 0x0611 { owned := [(6, u)], reins := [15] }) ∧
  (∃ (s : State) (h : CmdHdr) (u : Nat), u < 4 ∧ (s.receive h 0x0612).iuArmed u = false ∧ Admitted s h 0x0612 { owned := [(6, u)], reins := [15] }) ∧
  (∃ (s : State) (h : CmdHdr) (u : Nat), u < 4 ∧ (s.receive h 0x0613).iuCal u = false ∧ Admitted s h 0x0613 { owned := [(6, u)] }) ∧
  (∃ (s : State) (h : CmdHdr) (u : Nat) (n : _), u < 4 ∧ 1 ≤ n ∧ n ≤ 16 ∧ Admitted s h 0x0614 { role := .any, owned := [(6, u)] }) ∧
  (∃ (s : State) (h : CmdHdr) (u : Nat), u < 4 ∧ (s.receive h 0x0615).iuArmed u = false ∧ (s.receive h 0x0615).iuCal u = false ∧ Admitted s h 0x0615 { owned := [(6, u)], reins := [15] }) :=
  ⟨
    ⟨base.setOwner 6 3 0, hd false, 3, 15, 3, by unfold Admitted; decide +kernel⟩,
    ⟨base.setOwner 5 15 0, hd false, 3, 15, 15, by unfold Admitted; decide +kernel⟩,
    ⟨base.setOwner 4 15 0, hd false, 3, 15, by unfold Admitted; decide +kernel⟩,
    ⟨base, hd false, 3, by unfold Admitted; decide +kernel⟩,
    ⟨(List.range 3).foldl (fun t u => t.setOwner 6 u 0) base, hd false, 3, by unfold Admitted; decide +kernel⟩,
    ⟨base.setOwner 6 3 0, hd false, 3, by unfold Admitted; decide +kernel⟩,
    ⟨base.setOwner 6 3 0, hd false, 3, by unfold Admitted; decide +kernel⟩,
    ⟨base.setOwner 6 3 0, hd false, 3, by unfold Admitted; decide +kernel⟩,
    ⟨base.setOwner 6 3 0, hd false, 3, 16, by unfold Admitted; decide +kernel⟩,
    ⟨base.setOwner 6 3 0, hd false, 3, by unfold Admitted; decide +kernel⟩⟩

theorem test_hyps_IntervalEventsComplete :
  (∃ (s : State) (u : Nat), s.life = .up ∧ u < 4 ∧ s.mgt.fw = .ready ∧ s.mgt.calQ.head? = some u) ∧
  (∃ (s : State) (u : Nat) (e : Raw), s.life = .up ∧ u < 4 ∧ s.iuArmed u = true ∧ (s.unit u).start = none ∧ (s.pinOf 1 u).isSome = true ∧ (s.unit u).armAt < e.toNat) ∧
  (∃ (s : State) (u : Nat) (e : Raw) (k : _) (a : _) (j : _) (ep : _), s.life = .up ∧ u < 4 ∧ (s.unit u).start = some (a, j, ep) ∧ s.iuArmed u = true ∧
    (s.pinOf 2 u).isSome = true ∧ edgeTime a j + 640 ≤ edgeTime e.toNat k) ∧
  (∃ (s : State) (u : Nat) (a : _) (b : _), s.life = .up ∧ u < 4 ∧ (s.unit u).start = some a ∧ (s.unit u).stop = some b) ∧
  (∃ (s : State) (u : Nat) (e : Nat), s.life = .up ∧ u < 4 ∧ (s.unit u).dead = some e ∧ e ≤ s.now ∧ (s.unit u).hold = false ∧ s.levelGate u = false) ∧
  (∃ (s : State) (u : Nat) (e : Nat), s.life = .up ∧ u < 4 ∧ (s.unit u).dead = some e ∧ e ≤ s.now ∧ (s.unit u).hold = true) ∧
  (∃ (s : State) (u : Nat), s.life = .up ∧ u < 4 ∧ (s.pinOf 3 u).isSome = true ∧ s.fld (Reg.iuCfg u) 0 2 = 1) ∧
  (∃ (s : State) (u : Nat), s.life = .up ∧ u < 4 ∧ (s.pinOf 3 u).isSome = true ∧ s.fld (Reg.iuCfg u) 0 2 = 1 ∧ s.bitAt (Reg.iuCfg u) 6 = true ∧
    s.iuArmed u = true ∧ (s.unit u).start = none) ∧
  (∃ (s : State) (u : Nat), s.life = .up ∧ u < 4 ∧ s.iuArmed u = true ∧ s.rd (Reg.iuWindow u) ≠ 0 ∧ (s.unit u).armAt + (s.rd (Reg.iuWindow u)).toNat ≤ s.now ∧
    (s.unit u).start = none) ∧
  (∃ (s : State) (u : Nat) (a : _), s.life = .up ∧ u < 4 ∧ s.iuArmed u = true ∧ s.rd (Reg.iuWindow u) ≠ 0 ∧ (s.unit u).armAt + (s.rd (Reg.iuWindow u)).toNat ≤ s.now ∧
    (s.unit u).start = some a) ∧
  (∃ (s : State) (u : Nat) (a : _), s.life = .up ∧ u < 4 ∧ (s.unit u).start = some a ∧ s.iuArmed u = true ∧ s.rd (Reg.iuWindow u) = 0 ∧ a.1 + (2 ^ 39 - 1)
    ≤ s.now + 1) ∧
  (∃ (s : State) (u : Nat) (a : Nat) (j : Nat) (ep : Nat) (b : Nat) (k : Nat), u < 4 ∧ j ≤ 512 ∧ k ≤ 512 ∧ 1 ≤ a ∧ 1 ≤ b ∧ ep < 65536 ∧ (s.edgeRead u 0 a j)
    ≤ (s.edgeRead u 1 b k) ∧ (s.edgeRead u 1 b k) < (s.edgeRead u 0 a j) + 2 ^ 48 ∧ (s.unit u).queue.length < 16) ∧
  (∃ (s : State) (u : Nat) (a : Nat) (j : Nat) (ep : Nat) (b : Nat) (k : Nat), u < 4 ∧ j ≤ 512 ∧ k ≤ 512 ∧ 1 ≤ a ∧ 1 ≤ b ∧ ep < 65536 ∧ (s.edgeRead u 0 a j)
    ≤ (s.edgeRead u 1 b k) ∧ (s.edgeRead u 1 b k) < (s.edgeRead u 0 a j) + 2 ^ 48 ∧ (s.unit u).table = none) ∧
  (∃ (s : State) (u : Nat) (a : Nat) (j : Nat) (ep : Nat) (b : Nat) (k : Nat), u < 4 ∧ j ≤ 512 ∧ k ≤ 512 ∧ 1 ≤ a ∧ 1 ≤ b ∧ ep < 65536 ∧ (s.edgeRead u 0 a j)
    ≤ (s.edgeRead u 1 b k) ∧ (s.edgeRead u 1 b k) < (s.edgeRead u 0 a j) + 2 ^ 48 ∧ (s.unit u).queue.length = 16) :=
  ⟨
    ⟨base.onMgt fun m => { m with calQ := [3] }, 3, by decide +kernel⟩,
    ⟨(base.wr (Reg.iuStat 3) 1).wr (Reg.tioBridle 0) 0x31, 3, 1, by decide +kernel⟩,
    ⟨((base.wr (Reg.iuStat 3) 1).wr (Reg.tioBridle 0) 0x32).onUnitSt 3 fun x => { x with start := some (1, 0, 0) }, 3, 10, 0, 1, 0, 0, by decide +kernel⟩,
    ⟨base.onUnitSt 3 fun x => { x with start := some (1, 0, 0), stop := some (5, 0) }, 3, (1, 0, 0), (5, 0), by decide +kernel⟩,
    ⟨base.onUnitSt 3 fun x => { x with dead := some 0 }, 3, 0, by decide +kernel⟩,
    ⟨base.onUnitSt 3 fun x => { x with dead := some 0, hold := true }, 3, 0, by decide +kernel⟩,
    ⟨(base.wr (Reg.tioBridle 15) 0x33).wr (Reg.iuCfg 3) 1, 3, by decide +kernel⟩,
    ⟨((base.wr (Reg.tioBridle 15) 0x33).wr (Reg.iuCfg 3) 0x41).wr (Reg.iuStat 3) 1, 3, by decide +kernel⟩,
    ⟨({ base with raw := 1 } : State).wr (Reg.iuStat 3) 1 |>.wr (Reg.iuWindow 3) 1, 3, by decide +kernel⟩,
    ⟨(({ base with raw := 1 } : State).wr (Reg.iuStat 3) 1 |>.wr (Reg.iuWindow 3) 1).onUnitSt 3 fun x => { x with start := some (1, 0, 0) }, 3, (1, 0,
      0), by decide +kernel⟩,
    ⟨(({ base with raw := 2 ^ 39 - 1 } : State).wr (Reg.iuStat 3) 1).onUnitSt 3 fun x => { x with start := some (1, 0, 0) }, 3, (1, 0, 0), by decide +kernel⟩,
    ⟨base, 3, 1, 512, 65535, 1, 0, by decide +kernel⟩,
    ⟨base, 3, 1, 512, 65535, 1, 0, by decide +kernel⟩,
    ⟨base.onUnitSt 3 fun x => { x with queue := List.replicate 16 { flags := 1, seq := 0, startFine := 0, startRaw := 0, stopFine := 0, stopRaw := 0, interval := 0, epoch := 0 } },
      3, 1, 512, 65535, 1, 0, by decide +kernel⟩⟩

theorem test_hyps_GeneratorsComplete :
  (∃ (s : State) (h : CmdHdr) (g : Nat), g < 16 ∧ (s.receive h 0x0620).lowestFree 5 16 = some g ∧ Admitted s h 0x0620 { reins := [15] }) ∧
  (∃ (s : State) (h : CmdHdr) (g : Nat), g < 16 ∧ Admitted s h 0x0621 { owned := [(5, g)], reins := [15] }) ∧
  (∃ (s : State) (h : CmdHdr) (g : Nat) (sec : _) (ns : _) (frac : _) (per : _) (n : _) (w : _) (d : _), g < 16 ∧ sec < 2 ^ 48 ∧ ns < 1000000000 ∧
    frac < 65536 ∧ (per = 0 ∨ (8 ≤ per ∧ per < 2 ^ 39)) ∧ n < 2 ^ 32 ∧ 1 ≤ w ∧ w < 2 ^ 24 ∧ d < 4 ∧ (s.receive h 0x0622).locked = true ∧ Admitted s h 0x0622 { owned := [(5, g)] } ∧
    ((s.receive h 0x0622).rawOfTicks (sec * 1250000000 + (ns * 65536 + frac) * 320 / 65536 / 256) + ((ns * 65536 + frac) * 320 / 65536 % 256)) / 256 - (s.receive h 0x0622).now ≤ 2 ^ 39 - 1) ∧
  (∃ (s : State) (h : CmdHdr) (g : Nat), g < 16 ∧ Admitted s h 0x0623 { owned := [(5, g)] }) ∧
  (∃ (s : State) (h : CmdHdr) (g : Nat), g < 16 ∧ Admitted s h 0x0624 { role := .any }) ∧
  (∃ (s : State) (h : CmdHdr) (g : Nat) (tgt : Raw) (f : _) (per : _) (n : _) (w : _) (d : _), g < 16 ∧ (per = 0 ∨ (8 ≤ per ∧ per < 2 ^ 39)) ∧ n < 2 ^ 32 ∧
    1 ≤ w ∧ w < 2 ^ 24 ∧ d < 4 ∧ f < 256 ∧ tgt.toNat < (s.receive h 0x0681).now + 2 ^ 39 ∧ Admitted s h 0x0681 { owned := [(5, g)], reins := [15] }) ∧
  (∃ (s : State) (g : Nat), s.life = .up ∧ g < 16 ∧ s.tgArmed g = true ∧ dueIn (s.tgRaw g / 256) s.now ≤ 0 ∧ s.startsCycles g = false) ∧
  (∃ (s : State) (g : Nat), s.life = .up ∧ g < 16 ∧ s.tgArmed g = true ∧ dueIn (s.tgRaw g / 256) s.now ≤ 0 ∧ s.startsCycles g = true) ∧
  (∃ (s : State) (g : Nat), s.life = .up ∧ g < 16 ∧ s.tgArmed g = true ∧ 0 < dueIn (s.tgRaw g / 256) s.now) ∧
  (∃ (s : State) (g : Nat) (e : _), s.life = .up ∧ g < 16 ∧ (s.gen g).pulse = some e ∧ e.2 / 256 ≤ s.now) ∧
  (∃ (s : State) (g : Nat), s.life = .up ∧ g < 16) ∧
  (∃ (s : State) (g : Nat), g < 16 ∧ s.tgPeriod g = 0) :=
  ⟨
    ⟨(List.range 15).foldl (fun t g => t.setOwner 5 g 0) base, hd false, 15, by unfold Admitted; decide +kernel⟩,
    ⟨base.setOwner 5 15 0, hd false, 15, by unfold Admitted; decide +kernel⟩,
    ⟨(base.setOwner 5 15 0).wr (Reg.tsuDom 0) 2, hd false, 15, 0, 999999999, 65535, 8, 1, 16777215, 3, by unfold Admitted; decide +kernel⟩,
    ⟨base.setOwner 5 15 0, hd false, 15, by unfold Admitted; decide +kernel⟩,
    ⟨base, hd false, 15, by unfold Admitted; decide +kernel⟩,
    ⟨base.setOwner 5 15 0, hd true, 15, BitVec.ofNat 64 (2 ^ 39 - 1), 255, 2 ^ 39 - 1, 0, 1, 3, by unfold Admitted; decide +kernel⟩,
    ⟨base.wr (Reg.tgStat 15) 1, 15, by decide +kernel⟩,
    ⟨((engine 2).wr (Reg.tgCtrl 0) 4).wr (Reg.tgStat 0) 1, 0, by decide +kernel⟩,
    ⟨(base.wr (Reg.tgStat 15) 1).onGen 15 fun x => { x with cur := 256 }, 15, by decide +kernel⟩,
    ⟨base.onGen 15 fun x => { x with pulse := some (0, 255) }, 15, (0, 255), by decide +kernel⟩,
    ⟨base, 15, by decide +kernel⟩,
    ⟨base, 15, by decide +kernel⟩⟩

theorem test_hyps_StagingCommandsComplete :
  (∃ (s : State) (h : CmdHdr) (p : _) (es : List (Nat × GateEntry)), (p = 31 ∨ p < 24 ∧ (s.receive h 0x0702).exists p = true) ∧ 1 ≤ es.length ∧
    es.length ≤ 500 ∧ (∀ e ∈ es, e.1 < 1024 ∧ e.2.offset < 2 ^ 27 ∧ e.2.duration < 2 ^ 24) ∧ (s.receive h 0x0702).cyc.armed = none ∧ Admitted s h 0x0702 { owned := if p = 31 then [] else [(0, p)], reins := [14] }) ∧
  (∃ (s : State) (h : CmdHdr) (n : _) (cfg : OSlotCfg) (tpl : List Byte), n < 4096 ∧ oslotOk cfg = true ∧ tpl.length = 64 ∧ (s.receive h 0x0703).cyc.armed = none ∧
    Admitted s h 0x0703 { owned := [(2, n)], reins := [14] }) ∧
  (∃ (s : State) (h : CmdHdr) (n : _) (cfg : ISlotCfg), n < 4096 ∧ islotOk cfg = true ∧ (s.receive h 0x0704).cyc.armed = none ∧ Admitted s h 0x0704 { owned := [(3, n)], reins := [14] }) ∧
  (∃ (s : State) (h : CmdHdr), Admitted s h 0x0705 { role := .any }) ∧
  (∃ (s : State) (h : CmdHdr), Admitted s h 0x0706 { role := .any }) ∧
  (∃ (s : State) (h : CmdHdr) (per : _), 19532 ≤ per ∧ per ≤ 80000000 ∧ (s.receive h 0x0707).cyc.armed = none ∧ Admitted s h 0x0707 { reins := [14] }) ∧
  (∃ (s : State) (h : CmdHdr), (s.receive h 0x0712).cyc.armed = none ∧ Admitted s h 0x0712 { reins := [10, 14] }) ∧
  (∃ (s : State) (h : CmdHdr), (s.receive h 0x0712).cyc.armed = none ∧ Admitted s h 0x0712 { reins := [14] }) ∧
  (∃ (s : State) (h : CmdHdr) (g : _) (p : _), g < 16 ∧ 19532 ≤ p ∧ p ≤ 80000000 ∧ (s.receive h 0x0701).cyc.armed = none ∧ (s.receive h 0x0701).running = false ∧
    Admitted s h 0x0701 { owned := [(5, g)], reins := [14] }) ∧
  (∃ (s : State) (h : CmdHdr) (g : _), g < 16 ∧ (s.receive h 0x0701).cyc.armed = none ∧ Admitted s h 0x0701 { owned := [(5, g)], reins := [14] }) :=
  ⟨
    ⟨base, hd false, 31, [(1023, { offset := 2 ^ 27 - 1, duration := 2 ^ 24 - 1, mask := 0x80 })], by unfold Admitted; decide +kernel⟩,
    ⟨base, hd false, 4095, {}, List.replicate 64 1, by unfold Admitted; decide +kernel⟩,
    ⟨base, hd false, 4095, {}, by unfold Admitted; decide +kernel⟩,
    ⟨base, hd false, by unfold Admitted; decide +kernel⟩,
    ⟨base, hd false, by unfold Admitted; decide +kernel⟩,
    ⟨base, hd false, 80000000, by unfold Admitted; decide +kernel⟩,
    ⟨base, hd false, by unfold Admitted; decide +kernel⟩,
    ⟨base, hd false, by unfold Admitted; decide +kernel⟩,
    ⟨base.setOwner 5 15 0, hd false, 15, 80000000, by unfold Admitted; decide +kernel⟩,
    ⟨base.setOwner 5 15 0, hd false, 15, by unfold Admitted; decide +kernel⟩⟩

theorem test_hyps_ProcessImageWrites :
  (∃ (s : State) (h : CmdHdr) (n : Nat) (off : Nat) (data : List Byte), n < 4096 ∧ data.length ≤ 4032 ∧ off + data.length ≤ roomOf ((s.receive h 0x0708).cyc.act.o n).valid ((s.receive h 0x0708).cyc.act.o n).size ∧
    Admitted s h 0x0708 { owned := [(2, n)] }) ∧
  (∃ (s : State) (h : CmdHdr) (n : Nat) (off : Nat) (len : _), n < 4096 ∧ len ≤ 4032 ∧ off + len ≤ roomOf ((s.receive h 0x0709).cyc.act.i n).valid ((s.receive h 0x0709).cyc.act.i n).size ∧
    Admitted s h 0x0709 { role := .any, owned := [(3, n)] }) ∧
  (∃ (s : State) (h : CmdHdr) (n : Nat) (off : Nat) (len : _), n < 4096 ∧ len ≤ 4032 ∧ off + len ≤ roomOf ((s.receive h 0x0709).cyc.act.o n).valid ((s.receive h 0x0709).cyc.act.o n).size ∧
    Admitted s h 0x0709 { role := .any, owned := [(2, n)] }) ∧
  (∃ (s : State) (c : Nat) (n : Nat), s.life = .up ∧ c < 4 ∧ n < 4096 ∧ s.owner 2 n = some c) ∧
  (∃ (s : State) (c : Nat) (n : Nat), s.life = .up ∧ c < 4 ∧ n < 4096 ∧ s.owner 2 n ≠ some c) ∧
  (∃ (s : State) (c : Nat) (n : Nat) (off : _), s.life = .up ∧ c < 4 ∧ n < 4096 ∧ off % 4 = 0 ∧ payBase ≤ off ∧ off < piWindow ∧ s.slotAt (off - payBase)
    = some (false, n) ∧ s.owner 2 n = some c) ∧
  (∃ (s : State) (c : Nat) (n : Nat) (off : _), s.life = .up ∧ c < 4 ∧ n < 4096 ∧ off % 4 = 0 ∧ payBase ≤ off ∧ off < piWindow ∧ s.slotAt (off - payBase)
    = some (false, n) ∧ s.owner 2 n ≠ some c) :=
  ⟨
    ⟨slots base, hd false, 4095, 12, [1, 2, 3, 4], by unfold Admitted; decide +kernel⟩,
    ⟨slots base, hd false, 4095, 12, 4, by unfold Admitted; decide +kernel⟩,
    ⟨slots base, hd false, 4095, 12, 4, by unfold Admitted; decide +kernel⟩,
    ⟨base, 0, 4095, by decide +kernel⟩,
    ⟨base, 3, 4095, by decide +kernel⟩,
    ⟨slots base, 0, 4095, payBase + 12, by decide +kernel⟩,
    ⟨slots base, 3, 4095, payBase + 12, by decide +kernel⟩⟩

theorem test_hyps_CommitsComplete :
  (∃ (s : State) (h : CmdHdr) (k : _) (hash : _), hash ≠ 0 ∧ (s.receive h 0x0710).checkPending = none ∧ (s.receive h 0x0710).cyc.armed = none ∧
    (s.receive h 0x0710).boundGen.isSome = true ∧ (s.receive h 0x0710).rd Reg.cycPeriod ≠ 0 ∧ (s.receive h 0x0710).locked = true ∧ 1250000 ≤ (s.receive h 0x0710).cycleAt (cycleNum k)
    - (s.receive h 0x0710).netTicks ∧ (s.receive h 0x0710).cycleAt (cycleNum k) - (s.receive h 0x0710).netTicks ≤ 500000000000 ∧ Admitted s h 0x0710 { reins := [10, 14] }) ∧
  (∃ (s : State) (h : CmdHdr) (k : _) (hash : _), hash ≠ 0 ∧ (s.receive h 0x0790).checkPending = none ∧ (s.receive h 0x0790).cyc.armed = none ∧
    (s.receive h 0x0790).boundGen.isSome = true ∧ (s.receive h 0x0790).rd Reg.cycPeriod ≠ 0 ∧ (s.receive h 0x0790).locked = true ∧ 1250000 ≤ (s.receive h 0x0790).cycleAt (cycleNum k)
    - (s.receive h 0x0790).netTicks ∧ (s.receive h 0x0790).cycleAt (cycleNum k) - (s.receive h 0x0790).netTicks ≤ 500000000000 ∧ Admitted s h 0x0790 { reins := [10, 14] }) ∧
  (∃ (s : State) (h : CmdHdr) (hash : _), hash ≠ 0 ∧ (s.receive h 0x0710).checkPending = none ∧ (s.receive h 0x0710).cyc.armed = none ∧ (s.receive h 0x0710).running = false ∧
    (s.receive h 0x0710).boundGen.isSome = true ∧ Admitted s h 0x0710 { reins := [10, 14] }) ∧
  (∃ (s : State) (h : CmdHdr) (share : _) (hash : _), hash ≠ 0 ∧ share ≠ (s.receive h 0x0710).pendShareCrc ∧ Admitted s h 0x0710 { reins := [10, 14] }) ∧
  (∃ (s : State) (h : CmdHdr) (hash : _), hash ≠ 0 ∧ (s.receive h 0x0790).checkPending = none ∧ (s.receive h 0x0790).cyc.armed = none ∧ (s.receive h 0x0790).running = false ∧
    (s.receive h 0x0790).boundGen.isSome = true ∧ Admitted s h 0x0790 { reins := [10, 14] }) ∧
  (∃ (s : State) (h : CmdHdr) (c : _), (s.receive h 0x0711).cyc.armed = some c ∧ (s.receive h 0x0711).netTicks < (s.receive h 0x0711).cycleAt (cycleNum c.k)
    ∧ Admitted s h 0x0711 { reins := [10, 14] }) ∧
  (∃ (s : State) (k : _), s.life = .up ∧ s.cyc.judge = some k ∧ s.agreedPorts false = true) ∧
  (∃ (s : State) (k : _), s.life = .up ∧ s.cyc.judge = some k ∧ s.agreedPorts false = false) :=
  ⟨
    ⟨engine 2, hd false, 16, 1, by unfold Admitted; decide +kernel⟩,
    ⟨engine 2, hd true, 16, 1, by unfold Admitted; decide +kernel⟩,
    ⟨engine 1, hd false, 1, by unfold Admitted; decide +kernel⟩,
    ⟨base, hd false, ~~~(base.receive (hd false) 0x0710).pendShareCrc, 1, by unfold Admitted; decide +kernel⟩,
    ⟨engine 1, hd true, 1, by unfold Admitted; decide +kernel⟩,
    ⟨(engine 2).onCyc fun x => { x with armed := some { k := 1, hash := 1 } }, hd false, { k := 1, hash := 1 }, by unfold Admitted; decide +kernel⟩,
    ⟨base.onCyc fun x => { x with judge := some 7 }, 7, by decide +kernel⟩,
    ⟨((((gated 23 1023).wr (Reg.portPhyCtrl 23) 1).wr (Reg.portHalterStat 23) 6).onPt 23 fun x => { x with up := true }).onCyc fun x => { x with judge := some 7 },
      7, by decide +kernel⟩⟩

theorem test_hyps_EngineEventsComplete :
  (∃ (s : State) (p : _) (i : _), s.life = .up ∧ (p < 24 ∨ p = 31) ∧ i < 1024 ∧ s.running = true ∧ (s.gateEnt p i).duration ≠ 0) ∧
  (∃ (s : State) (p i : Nat) (m : Byte), s.life = .up ∧ p < 32 ∧ s.sw.gate p = some (i, m) ∧ (∀ x j, (s.setGate p none).sw.conn p = some (x, j) → j ≠ i)) ∧
  (∃ (s : State) (p : _) (i : _) (m : _) (x : _), s.life = .up ∧ p < 32 ∧ s.sw.gate p = some (i, m) ∧ (s.setGate p none).sw.conn p = some (x, i)) ∧
  (∃ (s : State) (p : _) (i : _) (e : _), s.life = .up ∧ p < 24 ∧ s.running = true ∧ (s.gateEnt p i).duration ≠ 0 ∧ (s.gateEnt p i).mask.getLsbD 7 = true ∧
    (s.tbl.strA.find? fun e => e.2.valid && decide (e.2.window = i) && bit (s.substitute e.2.egress) p) = some e) ∧
  (∃ (s : State) (g : _), s.life = .up ∧ s.boundGen = some g ∧ s.cyc.armDue = true ∧ s.cyc.handsOff = false ∧ s.bitAt Reg.cycCtrl 0 = true ∧ s.fld Reg.cycStat 0 2 = 1 ∧
    ((s.rd Reg.cycPeriod).toNat) ≠ 0 ∧ s.locked = true) ∧
  (∃ (s : State) (g : _), s.life = .up ∧ s.boundGen = some g ∧ s.startsCycles g = true ∧ s.tgArmed g = true ∧ dueIn (s.tgRaw g / 256) s.now ≤ 0) ∧
  (∃ (s : State) (n : Nat) (y : Sched) (target : Int), s.life = .up ∧ n < 4096 ∧ s.running = true ∧ s.capture n = some (y, target) ∧ (y.o n).valid = true) ∧
  (∃ (s : State) (n : _), s.life = .up ∧ n < 4096 ∧ s.running = true ∧ ((s.oslot n).cap).isSome = true) ∧
  (∃ (s : State) (x : _) (rest : _) (f : _), s.life = .up ∧ s.sw.cycIn = x :: rest ∧ s.sw.frame x.id = some f) :=
  ⟨
    ⟨gated 31 1023, 31, 1023, by decide +kernel⟩,
    ⟨(base.setGate 31 (some (1023, 0x80))).setConn 31 (some (0, 1022)), 31, 1023, 0x80, by decide +kernel, by decide, by decide +kernel, fun x j h => by
      have h : some (0, 1022) = some (x, j) := h
      cases h; decide⟩,
    ⟨(base.setGate 31 (some (1023, 0x80))).setConn 31 (some (0, 1023)), 31, 1023, 0x80, 0, by decide +kernel⟩,
    ⟨(gated 23 1023).onTbl fun x => { x with strA := [(0, { valid := true, window := 1023, egress := 0x800000 })] }, 23, 1023, (0, { valid := true, window := 1023, egress := 0x800000 }),
      by decide +kernel⟩,
    ⟨(engine 1).onCyc fun x => { x with armDue := true }, 0, by decide +kernel⟩,
    ⟨((engine 2).wr (Reg.tgCtrl 0) 4).wr (Reg.tgStat 0) 1, 0, by decide +kernel⟩,
    ⟨(engine 2).onCyc fun x => { x with act := { x.act with osl := [(4095, { valid := true, size := 16, poff := 0, launch := 800 })] } }, 4095, _,
      800, by decide +kernel, by decide, by decide +kernel, rfl, by decide +kernel⟩,
    ⟨(engine 2).onOslot 4095 fun x => { x with cap := some cap0 }, 4095, by decide +kernel⟩,
    ⟨base.onSw fun x => { x with cycIn := [{ id := 1, sent := 0, dram := false, untag := false }], frames := [(1, some frm)] }, { id := 1, sent := 0, dram := false, untag := false },
      [], frm, by decide +kernel⟩⟩

theorem test_hyps_EngineSwapsBanks :
  ∃ (s : State) (n : Nat), s.cyc.fill < 2 ∧ n < 4096 ∧ s.running = true ∧ s.cyc.armed = none :=
  ⟨engine 2, 4095, by decide +kernel⟩

theorem test_hyps_ImageReadsBack :
  ∃ (m : List Host.Cell), Memory.wf m = true :=
  ⟨[(3, 1), (5, 2)], by decide +kernel⟩

theorem test_hyps_ManagementCommandsComplete :
  (∃ (s : State) (h : CmdHdr), Admitted s h 0x0001 { role := .any }) ∧
  (∃ (s : State) (h : CmdHdr), Admitted s h 0x0002 { role := .any }) ∧
  (∃ (s : State) (h : CmdHdr) (sel : _), (sel = 1 ∨ sel = 2) ∧ (s.receive h 0x0881).feedOk (sel == 2) = true ∧ Admitted s h 0x0881 { role := .prin, reins := [0] }) ∧
  (∃ (s : State) (h : CmdHdr), (s.receive h 0x0910).bitAt Reg.sysFreezeEn 0 = true ∧ Admitted s h 0x0910 { role := .prin, reins := [0] }) ∧
  (∃ (s : State) (h : CmdHdr) (n : _), n ≤ 8388608 ∧ (s.receive h 0x0801).mgt.update = none ∧ ((s.receive h 0x0801).bitAt Reg.mgtStat 1 = true ∨
    ((s.receive h 0x0801).mgt.fwb (s.receive h 0x0801).mgt.fwBank).confirmed = true) ∧ (s.receive h 0x0801).storeBusy = false ∧ Admitted s h 0x0801 { role := .prin, reins := [16] }) ∧
  (∃ (s : State) (h : CmdHdr) (data : List Byte) (u : _), (s.receive h 0x0802).mgt.update = some u ∧ (s.receive h 0x0802).updState = 2 ∧ 1 ≤ data.length ∧
    data.length ≤ 4064 ∧ u.data.length + data.length ≤ u.length ∧ Admitted s h 0x0802 { role := .prin, reins := [16] }) ∧
  (∃ (s : State) (h : CmdHdr) (u : _), (s.receive h 0x0803).mgt.update = some u ∧ (s.receive h 0x0803).updState = 2 ∧ Admitted s h 0x0803 { role := .prin, reins := [16] }) ∧
  (∃ (s : State) (h : CmdHdr), (s.receive h 0x0804).mgt.update.isSome = true ∧ Admitted s h 0x0804 { role := .prin, reins := [16] }) ∧
  (∃ (s : State) (h : CmdHdr), Admitted s h 0x0805 { role := .any }) ∧
  (∃ (s : State) (h : CmdHdr), (s.receive h 0x0810).storeBusy = false ∧ Admitted s h 0x0810 { reins := [16] }) ∧
  (∃ (s : State) (h : CmdHdr), (s.receive h 0x0812).storeBusy = false ∧ Admitted s h 0x0812 { role := .prin, reins := [16] }) ∧
  (∃ (s : State) (h : CmdHdr), Admitted s h 0x0813 { role := .any }) ∧
  (∃ (s : State) (h : CmdHdr) (first : _) (max : _) (r : _), 1 ≤ max ∧ max ≤ 63 ∧ r ∈ (s.receive h 0x0820).mgt.log ∧ r.seq = first ∧ Admitted s h 0x0820 { role := .any }) ∧
  (∃ (s : State) (h : CmdHdr), Admitted s h 0x0821 { reins := [16] }) :=
  ⟨
    ⟨base, hd false, by unfold Admitted; decide +kernel⟩,
    ⟨base, hd false, by unfold Admitted; decide +kernel⟩,
    ⟨base, hd true, 2, by unfold Admitted; decide +kernel⟩,
    ⟨base.wr Reg.sysFreezeEn 1, hd false, by unfold Admitted; decide +kernel⟩,
    ⟨base, hd false, 8388608, by unfold Admitted; decide +kernel⟩,
    ⟨session 2 upd, hd false, [1], upd, by unfold Admitted; decide +kernel⟩,
    ⟨session 2 upd, hd false, upd, by unfold Admitted; decide +kernel⟩,
    ⟨session 2 upd, hd false, by unfold Admitted; decide +kernel⟩,
    ⟨base, hd false, by unfold Admitted; decide +kernel⟩,
    ⟨base, hd false, by unfold Admitted; decide +kernel⟩,
    ⟨base, hd false, by unfold Admitted; decide +kernel⟩,
    ⟨base, hd false, by unfold Admitted; decide +kernel⟩,
    ⟨base.onMgt fun m => { m with log := [logr] }, hd false, 1, 63, logr, by unfold Admitted; decide +kernel⟩,
    ⟨base, hd false, by unfold Admitted; decide +kernel⟩⟩

theorem test_hyps_FirmwareEventsComplete :
  (∃ (s : State), s.fwOn = true ∧ s.mgt.update.isSome = true ∧ s.updState = 1) ∧
  (∃ (s : State) (u : _), s.fwOn = true ∧ s.mgt.update = some u ∧ s.updState = 3) ∧
  (∃ (s : State) (u : _), s.fwOn = true ∧ s.mgt.update = some u ∧ s.updState = 3 ∧ leNat (slice u.data 0 4) = 0x5B32F1A0 ∧ u.data.length = u.length ∧
    leNat (slice u.data 8 4) = u.data.length ∧ (u.data.getD 16 0).toNat ≤ s.fld Reg.sysRev 0 8) ∧
  (∃ (s : State) (u : _), s.fwOn = true ∧ s.mgt.update = some u ∧ s.updState = 3 ∧ leNat (slice u.data 0 4) = 0x5B32F1A0 ∧ u.data.length = u.length ∧
    leNat (slice u.data 8 4) = u.data.length ∧ s.fld Reg.sysRev 0 8 < (u.data.getD 16 0).toNat) ∧
  (∃ (s : State) (b : _), s.fwOn = true ∧ s.mgt.job = some (.config b)) ∧
  (∃ (s : State) (b : _), s.fwOn = true ∧ s.mgt.job = some (.factory b)) ∧
  (∃ (s : State) (b : _), s.fwOn = true ∧ s.mgt.job = some (.saved b)) ∧
  (∃ (s : State) (n : _), s.fwOn = true ∧ s.mgt.job = some (.erase n)) ∧
  (∃ (s : State), s.fwOn = true ∧ s.mgt.hourAt + 3600000000000 ≤ s.uptime) ∧
  (∃ (s : State), s.fwOn = true ∧ 0 < s.mgt.suppressed ∧ s.mgt.logSecond < s.uptime / 1000000000) ∧
  (∃ (s : State), s.life = .up ∧ s.mgt.fw = .down ∧ (s.mgt.fwb 0).valid = true ∧ (s.mgt.fwb 0).confirmed = true) ∧
  (∃ (s : State), s.life = .up ∧ s.mgt.fw = .down) ∧
  (∃ (s : State), s.life = .up ∧ s.mgt.fw = .started) ∧
  (∃ (s : State), s.life = .up ∧ s.mgt.fw = .started ∧ s.mgt.warm = true) ∧
  (∃ (s : State), s.fwOn = true ∧ s.mgt.readyAt + 60000000000 ≤ s.uptime ∧ s.bitAt Reg.mgtStat 1 = false) ∧
  (∃ (s : State), s.fwOn = true) ∧
  (∃ (s : State), s.life = .up ∧ s.mgt.fw = .stopped) :=
  ⟨
    ⟨session 1 upd, by decide +kernel⟩,
    ⟨session 3 upd, upd, by decide +kernel⟩,
    ⟨session 3 img, img, by decide +kernel⟩,
    ⟨session 3 img2, img2, by decide +kernel⟩,
    ⟨base.onMgt fun m => { m with job := some (.config 1) }, 1, by decide +kernel⟩,
    ⟨base.onMgt fun m => { m with job := some (.factory 1) }, 1, by decide +kernel⟩,
    ⟨base.onMgt fun m => { m with job := some (.saved 1) }, 1, by decide +kernel⟩,
    ⟨base.onMgt fun m => { m with job := some (.erase 4) }, 4, by decide +kernel⟩,
    ⟨{ base with uptime := 3600000000000 }, by decide +kernel⟩,
    ⟨(later base).onMgt fun m => { m with suppressed := 1 }, by decide +kernel⟩,
    ⟨State.reset, by decide +kernel⟩,
    ⟨State.reset, by decide +kernel⟩,
    ⟨State.reset.onMgt fun m => { m with fw := .started }, by decide +kernel⟩,
    ⟨State.reset.onMgt fun m => { m with fw := .started, warm := true }, by decide +kernel⟩,
    ⟨later base, by decide +kernel⟩,
    ⟨base, by decide +kernel⟩,
    ⟨base.onMgt fun m => { m with fw := .stopped }, by decide +kernel⟩⟩

theorem test_hyps_PowerEventsComplete :
  (∃ (s : State) (ns : _), 1000 ≤ ns ∧ s.life = .up) ∧
  (∃ (s : State) (ns : _), 1000 ≤ ns ∧ s.life = .frozen) ∧
  (∃ (s : State) (a : _), s.life = .unpowered ∧ 19200 ≤ a ∧ a ≤ 30000) ∧
  (∃ (s : State) (a : _) (b : _), s.life = .unpowered ∧ (a < 19200 ∨ 30000 < a) ∧ 19200 ≤ b ∧ b ≤ 30000) ∧
  (∃ (a : _) (b : _), (a < 19200 ∨ 30000 < a) ∧ (b < 19200 ∨ 30000 < b)) ∧
  (∃ (s : State), s.life ≠ .unpowered) ∧
  (∃ (s : State), s.life = .held ∧ s.bitAt (Reg.clkSynStat 6) 0 = true ∧ s.bitAt (Reg.clkSynStat 7) 0 = true) ∧
  (∃ (s : State) (ns : _), s.life = .up ∧ 20 ≤ ns) ∧
  (∃ (s : State) (r : _), s.life = .up ∧ s.mgt.freezeAt = some r ∧ r ≤ s.now) ∧
  (∃ (s : State) (i : _), s.life = .up ∧ i < 8) ∧
  (∃ (s : State), s.life ≠ .unpowered ∧ s.mgt.failing = true ∧ s.mgt.otherHere = true ∧ s.mgt.handover = false) ∧
  (∃ (s : State), s.life ≠ .unpowered ∧ s.mgt.handover = true) ∧
  (∃ (s : State), s.life ≠ .unpowered ∧ s.mgt.handover = true ∧ s.mgt.forced = true) ∧
  (∃ (s : State), s.life ≠ .unpowered ∧ s.mgt.handover = true ∧ s.mgt.forced = false) ∧
  (∃ (s : State) (feed : _), s.life ≠ .unpowered ∧ feed < 2) :=
  ⟨
    ⟨base, 1000, by decide +kernel⟩,
    ⟨{ base with life := .frozen }, 1000, by decide +kernel⟩,
    ⟨{ base with life := .unpowered }, 30000, by decide +kernel⟩,
    ⟨{ base with life := .unpowered }, 30001, 30000, by decide +kernel⟩,
    ⟨19199, 30001, by decide +kernel⟩,
    ⟨base, by decide +kernel⟩,
    ⟨({ base with life := .held } : State).wr (Reg.clkSynStat 6) 1 |>.wr (Reg.clkSynStat 7) 1, by decide +kernel⟩,
    ⟨base, 20, by decide +kernel⟩,
    ⟨base.onMgt fun m => { m with freezeAt := some 0 }, 0, by decide +kernel⟩,
    ⟨base, 7, by decide +kernel⟩,
    ⟨base.onMgt fun m => { m with feedA := 17999 }, by decide +kernel⟩,
    ⟨base.onMgt fun m => { m with handover := true }, by decide +kernel⟩,
    ⟨base.onMgt fun m => { m with handover := true, forced := true }, by decide +kernel⟩,
    ⟨base.onMgt fun m => { m with handover := true }, by decide +kernel⟩,
    ⟨base, 1, by decide +kernel⟩⟩

theorem test_hyps_TapComplete :
  (∃ (s : State), s.life ≠ .unpowered) ∧
  (∃ (s : State), s.life = .held) ∧
  (∃ (s : State), s.life = .frozen ∧ s.tap.unlocked = true) ∧
  (∃ (s : State), s.life ≠ .unpowered ∧ s.tapOpen = false) :=
  ⟨
    ⟨base, by decide +kernel⟩,
    ⟨{ base with life := .held }, by decide +kernel⟩,
    ⟨{ base with life := .frozen, tap := { unlocked := true } }, by decide +kernel⟩,
    ⟨base, by decide +kernel⟩⟩

theorem test_hyps_RegisterCommandsComplete :
  (∃ (s : State) (h : CmdHdr) (n : _), 1 ≤ n ∧ n ≤ 1018 ∧ Admitted s h 0x0901 { role := .any }) ∧
  (∃ (s : State) (h : CmdHdr) (ws : List (Nat × Word)), 1 ≤ ws.length ∧ ws.length ≤ 509 ∧ Admitted s h 0x0902 {}) ∧
  (∃ (s : State) (h : CmdHdr), Admitted s h 0x0903 { role := .any }) ∧
  (∃ (s : State) (h : CmdHdr) (bits : List Word), bits.length = 8 ∧ Admitted s h 0x0904 { role := .any }) ∧
  (∃ (s : State) (h : CmdHdr) (masks : List Word), masks.length = 8 ∧ Admitted s h 0x0905 { role := .any }) ∧
  (∃ (s : State) (h : CmdHdr) (first : _) (routes : List Nat), first + routes.length ≤ 256 ∧ 1 ≤ routes.length ∧ (∀ r ∈ routes, r < 256) ∧ Admitted s h 0x0906 { reins := [0] }) :=
  ⟨
    ⟨base, hd false, 1018, by unfold Admitted; decide +kernel⟩,
    ⟨base, hd false, [(Reg.sysFreezeEn, 1)], by unfold Admitted; decide +kernel⟩,
    ⟨base, hd false, by unfold Admitted; decide +kernel⟩,
    ⟨base, hd false, List.replicate 8 0, by unfold Admitted; decide +kernel⟩,
    ⟨base, hd false, List.replicate 8 0, by unfold Admitted; decide +kernel⟩,
    ⟨base, hd false, 255, [255], by unfold Admitted; decide +kernel⟩⟩

theorem test_hyps_RegisterWritesComplete :
  (∃ (s : State) (c : Nat), s.life = .up ∧ c < 8) ∧
  (∃ (s : State) (c : Nat) (a : Nat) (v : Word) (r : Row) (i : Nat) (j : Nat), s.life = .up ∧ c < 8 ∧ guardRegs.contains a = false ∧ (a < 4 ∨
    guardRegs.contains (a - 4) = false) ∧ s.regAt a = some (r, i, j) ∧ s.mayWrite c r i v = false) ∧
  (∃ (s : State) (c : Nat) (a : Nat) (v : Word) (r : Row) (i : Nat) (j : Nat), s.life = .up ∧ c < 8 ∧ guardRegs.contains a = false ∧ (a < 4 ∨
    guardRegs.contains (a - 4) = false) ∧ s.regAt a = some (r, i, j) ∧ s.mayWrite c r i v = true ∧ r.act = .plain) ∧
  (∃ (s : State) (c : Nat) (a : Nat) (v : Word) (r : Row) (i : Nat) (j : Nat), s.life = .up ∧ c < 8 ∧ guardRegs.contains a = false ∧ (a < 4 ∨
    guardRegs.contains (a - 4) = false) ∧ s.regAt a = some (r, i, j) ∧ s.mayWrite c r i v = true ∧ r.act = .pairLo) :=
  ⟨
    ⟨base, 7, by decide +kernel⟩,
    ⟨base, 7, Reg.evtRoute 0, 0, rowAt (Reg.evtRoute 0), 0, 0, by decide +kernel⟩,
    ⟨reined base, 0, Reg.evtRoute 255, 0, rowAt (Reg.evtRoute 255), 255, 0, by decide +kernel⟩,
    ⟨(reined base).setOwner 5 0 0, 0, Reg.tgTgtLo 0, 0, rowAt (Reg.tgTgtLo 0), 0, 0, by decide +kernel⟩⟩

theorem test_hyps_GuardedPairsAct :
  (∃ (s : State) (c : Nat) (a : _), s.life = .up ∧ c < 8 ∧ s.role c = .principal ∧ guardRegs.contains a = true) ∧
  (∃ (s : State) (c : Nat) (g : _), s.life = .up ∧ c < 8 ∧ s.role c = .principal ∧ (s.cx c).guard = some g ∧ g.raw.toNat + 1250000 < s.now) ∧
  (∃ (s : State) (c : Nat) (g : _) (x : _), s.life = .up ∧ c < 8 ∧ s.role c = .principal ∧ (s.cx c).guard = some g ∧ s.now ≤ g.raw.toNat + 1250000 ∧ x ≠ ~~~g.value ∧
    g.addr = Reg.sysReset) ∧
  (∃ (s : State) (c : Nat) (g : _), s.life = .up ∧ c < 8 ∧ s.role c = .principal ∧ (s.cx c).guard = some g ∧ s.now ≤ g.raw.toNat + 1250000 ∧ g.addr = Reg.sysReset ∧
    g.value = 1) ∧
  (∃ (s : State) (c : Nat) (g : _), s.life = .up ∧ c < 8 ∧ s.role c = .principal ∧ (s.cx c).guard = some g ∧ s.now ≤ g.raw.toNat + 1250000 ∧ g.addr = Reg.sysReset ∧
    g.value = 2) ∧
  (∃ (s : State) (c : Nat) (g : _), s.life = .up ∧ c < 8 ∧ s.role c = .principal ∧ (s.cx c).guard = some g ∧ s.now ≤ g.raw.toNat + 1250000 ∧ g.addr = Reg.sysFreezeEn) ∧
  (∃ (s : State) (c : Nat) (g : _), s.life = .up ∧ c < 8 ∧ s.role c = .principal ∧ (s.cx c).guard = some g ∧ s.now ≤ g.raw.toNat + 1250000 ∧ g.addr = Reg.sysTapUnlock ∧
    g.value = 1) ∧
  (∃ (s : State) (c : Nat) (g : _), s.life = .up ∧ c < 8 ∧ s.role c = .principal ∧ (s.cx c).guard = some g ∧ s.now ≤ g.raw.toNat + 1250000 ∧ g.addr = Reg.sysTapUnlock ∧
    g.value = 0) ∧
  (∃ (s : State) (c : Nat) (g : _), s.life = .up ∧ c < 8 ∧ s.role c = .principal ∧ (s.cx c).guard = some g ∧ s.now ≤ g.raw.toNat + 1250000 ∧ g.addr = Reg.tsuEpochReset ∧
    g.value = 1) ∧
  (∃ (s : State) (c : Nat) (g : _), s.life = .up ∧ c < 8 ∧ s.role c = .principal ∧ (s.cx c).guard = some g ∧ s.now ≤ g.raw.toNat + 1250000 ∧ g.addr = Reg.mgtFeedForce ∧
    (g.value = 1 ∨ g.value = 2)) ∧
  (∃ (s : State) (c : Nat) (g : _), s.life = .up ∧ c < 8 ∧ s.role c = .principal ∧ (s.cx c).guard = some g ∧ s.now ≤ g.raw.toNat + 1250000 ∧ g.addr = Reg.mgtFeedForce ∧
    (g.value = 1 ∨ g.value = 2) ∧ ((s.onCx c (fun x => { x with guard := none, heldLo := none })).logRec 0x100 9 [g.addr, g.value.toNat]).feedOk (g.value == 2)
    = true ∧ ((s.onCx c (fun x => { x with guard := none, heldLo := none })).logRec 0x100 9 [g.addr, g.value.toNat]).mgt.activeB = (g.value != 2)) ∧
  (∃ (s : State) (c : Nat) (g : _), s.life = .up ∧ c < 8 ∧ s.role c = .principal ∧ (s.cx c).guard = some g ∧ s.now ≤ g.raw.toNat + 1250000 ∧ g.addr = Reg.mgtLaserOvr) ∧
  (∃ (s : State) (c : Nat) (g : _), s.life = .up ∧ c < 8 ∧ s.role c = .principal ∧ (s.cx c).guard = some g ∧ s.now ≤ g.raw.toNat + 1250000 ∧ g.addr = Reg.memStoreErase ∧
    (g.value = 1 ∨ g.value = 3 ∨ g.value = 4) ∧ ((s.onCx c (fun x => { x with guard := none, heldLo := none })).logRec 0x100 9 [g.addr,
    g.value.toNat]).storeBusy = false) :=
  ⟨
    ⟨base, 0, Reg.sysReset, by decide +kernel⟩,
    ⟨later (paired Reg.sysReset 1), 0, { addr := Reg.sysReset, value := 1, raw := 0 }, by decide +kernel⟩,
    ⟨paired Reg.sysReset 1, 0, { addr := Reg.sysReset, value := 1, raw := 0 }, 0, by decide +kernel⟩,
    ⟨paired Reg.sysReset 1, 0, { addr := Reg.sysReset, value := 1, raw := 0 }, by decide +kernel⟩,
    ⟨paired Reg.sysReset 2, 0, { addr := Reg.sysReset, value := 2, raw := 0 }, by decide +kernel⟩,
    ⟨paired Reg.sysFreezeEn 1, 0, { addr := Reg.sysFreezeEn, value := 1, raw := 0 }, by decide +kernel⟩,
    ⟨paired Reg.sysTapUnlock 1, 0, { addr := Reg.sysTapUnlock, value := 1, raw := 0 }, by decide +kernel⟩,
    ⟨paired Reg.sysTapUnlock 0, 0, { addr := Reg.sysTapUnlock, value := 0, raw := 0 }, by decide +kernel⟩,
    ⟨paired Reg.tsuEpochReset 1, 0, { addr := Reg.tsuEpochReset, value := 1, raw := 0 }, by decide +kernel⟩,
    ⟨paired Reg.mgtFeedForce 1, 0, { addr := Reg.mgtFeedForce, value := 1, raw := 0 }, by decide +kernel⟩,
    ⟨(paired Reg.mgtFeedForce 2).onMgt fun m => { m with feedB := 30000 }, 0, { addr := Reg.mgtFeedForce, value := 2, raw := 0 }, by decide +kernel⟩,
    ⟨paired Reg.mgtLaserOvr 65535, 0, { addr := Reg.mgtLaserOvr, value := 65535, raw := 0 }, by decide +kernel⟩,
    ⟨paired Reg.memStoreErase 4, 0, { addr := Reg.memStoreErase, value := 4, raw := 0 }, by decide +kernel⟩⟩

theorem test_hyps_ActingWritesComplete :
  (∃ (s : State) (c : Nat) (p : _), s.life = .up ∧ c < 8 ∧ s.role c ≠ .observer ∧ p < 28 ∧ s.absent p = false ∧ s.ownsPort c p = true ∧ s.holds c (portRein p)
    = true) ∧
  (∃ (s : State) (c : Nat) (p : _), s.life = .up ∧ c < 8 ∧ s.role c ≠ .observer ∧ p < 28 ∧ s.absent p = false ∧ s.ownsPort c p = true ∧ s.holds c (portRein p)
    = true ∧ p < 24) ∧
  (∃ (s : State) (c : Nat) (p : _), s.life = .up ∧ c < 8 ∧ s.role c ≠ .observer ∧ p < 28 ∧ s.absent p = false ∧ s.ownsPort c p = true ∧ s.holds c (portRein p)
    = true ∧ 16 ≤ p ∧ p < 24) ∧
  (∃ (s : State) (c : Nat), s.life = .up ∧ c < 8 ∧ s.role c ≠ .observer ∧ s.holds c 8 = true) ∧
  (∃ (s : State) (c : Nat), s.life = .up ∧ c < 8 ∧ s.role c ≠ .observer ∧ s.holds c 8 = true ∧ s.sw.arbDue = none) ∧
  (∃ (s : State) (c : Nat) (p : _), s.life = .up ∧ c < 8 ∧ s.role c ≠ .observer ∧ s.holds c 8 = true ∧ p < 28 ∧ s.ownsPort c p = true) ∧
  (∃ (s : State) (c : Nat) (n : _), s.life = .up ∧ c < 8 ∧ s.role c ≠ .observer ∧ n < 6 ∧ s.synThere n = true ∧ s.holds c 12 = true) ∧
  (∃ (s : State) (c : Nat), s.life = .up ∧ c < 8 ∧ s.role c ≠ .observer) ∧
  (∃ (s : State) (c : Nat) (g : _), s.life = .up ∧ c < 8 ∧ s.role c ≠ .observer ∧ g < 16 ∧ s.owner 5 g = some c) ∧
  (∃ (s : State) (c : Nat) (u : _), s.life = .up ∧ c < 8 ∧ s.role c ≠ .observer ∧ u < 4 ∧ s.owner 6 u = some c) ∧
  (∃ (s : State) (c : Nat) (m : _), s.life = .up ∧ c < 8 ∧ s.role c ≠ .observer ∧ m < 16 ∧ (m < 12 ∨ s.role c = .principal)) :=
  ⟨
    ⟨reined base, 0, 27, by decide +kernel⟩,
    ⟨reined base, 0, 23, by decide +kernel⟩,
    ⟨reined base, 0, 16, by decide +kernel⟩,
    ⟨reined base, 0, by decide +kernel⟩,
    ⟨reined base, 0, by decide +kernel⟩,
    ⟨reined base, 0, 27, by decide +kernel⟩,
    ⟨reined base, 0, 5, by decide +kernel⟩,
    ⟨base, 0, by decide +kernel⟩,
    ⟨base.setOwner 5 15 0, 0, 15, by decide +kernel⟩,
    ⟨base.setOwner 6 3 0, 0, 3, by decide +kernel⟩,
    ⟨base, 0, 15, by decide +kernel⟩⟩

theorem test_hyps_ReadsComplete :
  (∃ (s : State) (c : Nat), s.life = .up ∧ c < 8) ∧
  (∃ (s : State) (c : Nat) (d : _), s.life = .up ∧ c < 8 ∧ d < 2) ∧
  (∃ (s : State) (c : Nat), s.life = .up ∧ c < 8 ∧ c < 4) ∧
  (∃ (s : State) (c : Nat) (d : _), s.life = .up ∧ c < 8 ∧ c < 4 ∧ d < 2) ∧
  (∃ (s : State) (c : Nat) (p : _), s.life = .up ∧ c < 8 ∧ p < 24 ∧ s.absent p = false) ∧
  (∃ (s : State) (c : Nat) (m : _), s.life = .up ∧ c < 8 ∧ m < 16 ∧ (m ≤ 12 ∨ s.bitAt (Reg.pmcSel m) 10 = false)) ∧
  (∃ (s : State) (c : Nat) (r : _) (rest : _), s.life = .up ∧ c < 8 ∧ (s.cx c).learn = r :: rest) ∧
  (∃ (s : State) (c : Nat) (q : _), s.life = .up ∧ c < 8 ∧ q < 8 ∧ q ≠ c) ∧
  (∃ (s : State) (c : Nat) (u : _) (r : _) (rest : _), s.life = .up ∧ c < 8 ∧ u < 4 ∧ s.owner 6 u = some c ∧ (s.unit u).queue = r :: rest) :=
  ⟨
    ⟨base, 7, by decide +kernel⟩,
    ⟨base, 7, 1, by decide +kernel⟩,
    ⟨base, 3, by decide +kernel⟩,
    ⟨base, 3, 1, by decide +kernel⟩,
    ⟨base, 7, 23, by decide +kernel⟩,
    ⟨base, 7, 15, by decide +kernel⟩,
    ⟨base.onCx 7 fun x => { x with learn := [lrn] }, 7, lrn, [], by decide +kernel⟩,
    ⟨base, 7, 0, by decide +kernel⟩,
    ⟨(base.setOwner 6 3 0).onUnitSt 3 fun x => { x with queue := [res] }, 0, 3, res, [], by decide +kernel⟩⟩

theorem test_hyps_RaiseSetsRoutedBits :
  (∃ (s : State) (n : Nat) (c : Nat), n < 256 ∧ c < 8 ∧ s.bitAt (Reg.evtRoute n) c = true) ∧
  (∃ (s : State) (n : Nat) (c : Nat) (j : _), n < 256 ∧ c < 8 ∧ s.bitAt (Reg.evtRoute n) c = false ∧ j < 8) ∧
  (∃ (n : Nat) (c : Nat) (j : _) (k : _), n < 256 ∧ c < 8 ∧ j < 8 ∧ k < 32 ∧ ¬(j = n / 32 ∧ k = n % 32)) ∧
  (∃ (s : State) (n : Nat) (c : Nat) (j : _), n < 256 ∧ c < 8 ∧ s.bitAt (Reg.evtStat c (n / 32)) (n % 32) = true ∧ j < 8) ∧
  (∃ (n : Nat) (c : Nat) (j : Nat), n < 256 ∧ c < 8 ∧ j < 8) :=
  ⟨
    ⟨base, 255, 0, by decide +kernel⟩,
    ⟨base, 255, 7, 7, by decide +kernel⟩,
    ⟨255, 7, 7, 30, by decide +kernel⟩,
    ⟨base.wr (Reg.evtStat 7 7) 0x80000000, 255, 7, 7, by decide +kernel⟩,
    ⟨255, 7, 7, by decide +kernel⟩⟩

theorem test_hyps_CountersAndMessagesComplete :
  (∃ (a src : Nat), src < 256 ∧ (∀ c j, c < 8 → j < 8 → a ≠ Reg.evtStat c j) ∧ base.rd a + 1 ≠ 0x80000000) ∧
  (∃ (s : State) (a src c : Nat), src < 256 ∧ (∀ c j, c < 8 → j < 8 → a ≠ Reg.evtStat c j) ∧ s.rd a + 1 = 0x80000000 ∧ c < 8 ∧ s.bitAt (Reg.evtRoute src)
    c = true ∧ a ≠ Reg.evtRoute src) ∧
  (∃ (s : State) (c : _), s.life = .up ∧ c < 4 ∧ s.role c ≠ .observer ∧ s.evtPending c = true ∧ (s.cx c).lastMsg = none) ∧
  (∃ (s : State) (c : _) (r : _), s.life = .up ∧ c < 4 ∧ (s.cx c).msgWait = true ∧ (s.cx c).lastMsg = some r ∧ r + s.fld (Reg.evtCfg c) 16 16 * 1250 ≤ s.now ∧
    s.evtPending c = true) ∧
  (∃ (s : State) (c : _) (r : _), s.life = .up ∧ c < 4 ∧ (s.cx c).msgWait = true ∧ (s.cx c).lastMsg = some r ∧ r + s.fld (Reg.evtCfg c) 16 16 * 1250 ≤ s.now ∧
    s.evtPending c = false) ∧
  (∃ (s : State) (m : _), s.life = .up ∧ m < 12 ∧ s.bitAt (Reg.pmcSel m) 9 = true ∧ s.pmcAt m = 2 ^ 48 - 1 ∧ s.fld (Reg.pmcSel m) 0 9 = 0x184 ∧
    s.fixAt 0x184 + 1 < 2 ^ 48) ∧
  (∃ (s : State) (n : _), s.life = .up ∧ n < 512 ∧ perfNamed n = true ∧ s.fixAt n = 2 ^ 48 - 1) :=
  ⟨
    ⟨Reg.rxRunt 23, 255, by decide, fun c j _ _ => by simp only [Reg.rxRunt, Reg.evtStat]; omega, by decide +kernel⟩,
    ⟨base.wr (Reg.rxRunt 23) 0x7FFFFFFF, Reg.rxRunt 23, 255, 0, by decide, fun c j _ _ => by simp only [Reg.rxRunt, Reg.evtStat]; omega, by decide +kernel, by decide, by decide +kernel, by decide⟩,
    ⟨(base.wr (Reg.evtStat 0 0) 1).wr (Reg.evtMask 0 0) 0, 0, by decide +kernel⟩,
    ⟨((base.wr (Reg.evtStat 3 0) 1).wr (Reg.evtMask 3 0) 0).onCx 3 fun x => { x with msgWait := true, lastMsg := some 0 }, 3, 0, by decide +kernel⟩,
    ⟨(later base).onCx 3 fun x => { x with msgWait := true, lastMsg := some 0 }, 3, 0, by decide +kernel⟩,
    ⟨(base.wr (Reg.pmcSel 11) 0x384).setPmc 11 (2 ^ 48 - 1), 11, by decide +kernel⟩,
    ⟨{ base with pmuFix := [(0, 2 ^ 48 - 1)] }, 0, by decide +kernel⟩⟩

theorem test_hyps_StepRunsTheFront :
  (∃ (s : State) (c : Instr) (rest : List Instr), s.pending = c :: rest) ∧
  (∃ (s : State), s.pending = []) :=
  ⟨
    ⟨{ base with pending := [.tapBypass] }, .tapBypass, [], by decide +kernel⟩,
    ⟨base, by decide +kernel⟩⟩

theorem test_hyps_WellFormedCommandsComplete :
  ∃ (i : Instr), i.wellFormed = true :=
  ⟨.ctxNop (hd false), by decide +kernel⟩

theorem test_hyps_StepKeepsInvariant :
  ∃ s t : State, Inv s ∧ step s = .next t :=
  ⟨{ base with pending := [.tapBypass] }, _, ⟨⟨0, by decide, fun d => by
    have h : base.role d = if d = 0 then .principal else .observer := rfl
    show base.role d = _ ↔ _
    rw [h]; split <;> simp_all⟩, rfl⟩, rfl⟩

theorem test_hyps_RolesAndImageChangeOnlyBy :
  (∃ (i : Instr) (s t : State), exec i s = .next t ∧ t.life ≠ .held ∧ t.life ≠ .unpowered) ∧
  (∃ (s t : State) (x : Machine.Copy) (rest : List Machine.Copy) (f : Machine.Frm) (a : Nat), exec .inboundFile s = .next t ∧ t.life = .up ∧
    s.sw.cycIn = x :: rest ∧ s.sw.frame x.id = some f ∧ s.cyc.fill * piWindow + (payBase + (s.cyc.act.i (s.stream f.stream).slot).poff) + (s.cyc.act.i (s.stream f.stream).slot).size ≤ a) :=
  ⟨
    ⟨.tapBypass, base, _, rfl, by decide, by decide⟩,
    ⟨base.onSw fun x => { x with cycIn := [{ id := 1, sent := 0, dram := false, untag := false }], frames := [(1, some frm)] }, _, { id := 1, sent := 0, dram := false, untag := false },
      [], frm, 3000000, rfl, by decide +kernel, rfl, rfl, by decide +kernel⟩⟩

end Sys2Proof.Tests
end

section
/-! R219, an epoch reset: the statement of O32 speaks of every state, and a state may hold a deferred completion of a context that
does not exist. The completion raises the source 224 + c of its context c, and for a large c the event status register of that
source lies at the address of TSU_DOM_A, whose state field the epoch reset has just cleared. -/

namespace Sys2Proof.Machine

/-- A context number far past the eight there are, taken so that its source 224 + c has its status bit for HC0 in TSU_DOM_A. -/
def strayCtx : Nat := 8 * (Reg.tsuDom 0 - Reg.evtStat 0 0) - 224

/-- The status bit of the stray context's source in HC0 is bit 0 of TSU_DOM_A, the low bit of the domain's state. -/
theorem evtStat_strayCtx : Reg.evtStat 0 ((224 + strayCtx) / 32) = Reg.tsuDom 0 ∧ (224 + strayCtx) % 32 = 0 := by decide

/-- The block up with a switch armed whose deferred completion is the stray context's, and that context's source routed to HC0. -/
def strayCompletion : State :=
  { ({ State.reset with life := .up } : State).wr (Reg.evtRoute (224 + strayCtx)) 1 with
    tim := { armed := some { dom := 1, sec := 0, force := false } }
    deferred := [{ ctx := strayCtx, op := 0x0410, tag := 0, idx := 0 }] }

/-- The cancelled switch's completion sets the state of the active domain, UNLOCKED by the reset, back to FIRST_LOCK. -/
theorem epochReset_strayCompletion_domState : strayCompletion.epochReset.domState strayCompletion.tim.active = 1 := by
  decide +kernel

end Sys2Proof.Machine

open Sys2Proof.Machine

/-- Refutes O32: with a switch armed whose deferred completion belongs to a context that does not exist (`strayCompletion`), the
active domain is at FIRST_LOCK after the epoch reset and not UNLOCKED. `State.cmd` runs no command of such a context, so none defers
a completion for it; but the statement speaks of every state and does not ask that of it. -/
theorem not_epochResetRule : ¬ Obligations.EpochResetRule := by
  unfold Obligations.EpochResetRule
  rintro ⟨hReset, -, -⟩
  obtain ⟨-, hUnlocked, -⟩ := hReset strayCompletion _ rfl
  rw [epochReset_strayCompletion_domState] at hUnlocked
  exact absurd hUnlocked (by decide)

end

section
/-! R337, a role change: what comes between the reception of ROLE_SET and its end. Losing reins, raising sources, logging and
answering only set event bits and only free reins; this is said of one relation, `Onward`, whatever context a deferred
completion names, so that it holds of every state. -/

namespace Sys2Proof.Machine

/-- The part of the register map that holds the event status and routing registers (R366). -/
def EvtBlock (a : Nat) : Prop := 0x20000 ≤ a ∧ a < 0x22000

theorem evtStat_mem_evtBlock {c j : Nat} (hc : c < 8) (hj : j < 8) : EvtBlock (Reg.evtStat c j) := by
  unfold EvtBlock Reg.evtStat
  omega

theorem evtRoute_mem_evtBlock {n : Nat} (hn : n < 256) : EvtBlock (Reg.evtRoute n) := by
  unfold EvtBlock Reg.evtRoute
  omega

theorem cycPeriodPend_not_evtBlock : ¬ EvtBlock Reg.cycPeriodPend := by simp [EvtBlock, Reg.cycPeriodPend]

theorem mgtUpdStat_not_evtBlock : ¬ EvtBlock Reg.mgtUpdStat := by simp [EvtBlock, Reg.mgtUpdStat]

theorem hcxCqTail_not_evtBlock {c : Nat} (hc : c < 4) : ¬ EvtBlock (Reg.hcxCqTail c) := by
  unfold EvtBlock Reg.hcxCqTail
  omega

/-- Setting a bit of a word clears none. -/
theorem bit_orBit_of_bit {w : Word} {i k : Nat} (h : bit w k = true) : bit (orBit w i) k = true := by
  unfold bit at *
  simp [orBit, BitVec.toNat_or, Nat.testBit_or, h]

theorem bit_orBit_self (w : Word) {i : Nat} (hi : i < 32) : bit (orBit w i) i = true := by
  have hpow : 2 ^ i < 4294967296 := Nat.pow_lt_pow_right (by omega) hi
  simp [bit, orBit, BitVec.toNat_or, BitVec.toNat_shiftLeft, Nat.testBit_or, Nat.shiftLeft_eq, Nat.mod_eq_of_lt hpow]

/-- What lies beside the firmware's state and the life of the module leaves the firmware serving commands or not as before. -/
theorem Beside.fwOn {A : Nat → Prop} {s t : State} (h : Beside A s t) : t.fwOn = s.fwOn := by
  have hlife : t.life = s.life := by rw [h.eq]
  have hfw : t.mgt.fw = s.mgt.fw := by rw [h.mgt]
  rw [State.fwOn, State.live, hfw, hlife, State.fwOn, State.live]

/-- From `s` to `t` the event bits are only set, a rein keeps its holder or is freed, and the firmware serves commands or does
not as before. -/
structure Onward (s t : State) : Prop where
  bits : ∀ a i, EvtBlock a → s.bitAt a i = true → t.bitAt a i = true
  rein : ∀ r, (t.rein r).map (·.holder) = (s.rein r).map (·.holder) ∨ t.rein r = none
  fwOn : t.fwOn = s.fwOn

namespace Onward

variable {s t u : State}

theorem refl (s : State) : Onward s s := ⟨fun _ _ _ h => h, fun _ => .inl rfl, rfl⟩

theorem trans (h : Onward s t) (k : Onward t u) : Onward s u where
  bits a i ha hs := k.bits a i ha (h.bits a i ha hs)
  rein r := by
    rcases k.rein r with hk | hk
    · rcases h.rein r with hh | hh
      · exact .inl (hk.trans hh)
      · exact .inr (by simpa [hh] using hk)
    · exact .inr hk
  fwOn := k.fwOn.trans h.fwOn

theorem ite {b : Prop} [Decidable b] (h : Onward s t) (k : Onward s u) : Onward s (if b then t else u) := by
  split
  · exact h
  · exact k

theorem foldl {β : Type} (f : State → β → State) (l : List β) (hf : ∀ t b, Onward t (f t b)) (s : State) : Onward s (l.foldl f s) :=
  l.foldlRecOn f (motive := Onward s) (refl s) fun t ht b _ => ht.trans (hf t b)

/-- An update of fields that hold no register, no rein and nothing of the firmware's state. -/
theorem of_eq (hregs : t.regs = s.regs) (hreins : t.reins = s.reins) (hfw : t.mgt.fw = s.mgt.fw) (hlife : t.life = s.life) :
    Onward s t where
  bits a i _ h := by rwa [State.bitAt, State.rd, hregs]
  rein r := .inl (by rw [State.rein, hreins, State.rein])
  fwOn := by rw [State.fwOn, State.live, hfw, hlife, State.fwOn, State.live]

theorem of_beside {A : Nat → Prop} (h : Beside A s t) (hA : ∀ a, A a → ¬ EvtBlock a) : Onward s t where
  bits a i ha hs := by rwa [State.bitAt, h.rd a fun hAa => hA a hAa ha]
  rein r := .inl (h.rein r)
  fwOn := h.fwOn

theorem onCx (s : State) (c : Nat) (f : Ctx → Ctx) : Onward s (s.onCx c f) := of_eq rfl rfl rfl rfl

theorem wr (s : State) {a : Nat} (v : Word) (ha : ¬ EvtBlock a) : Onward s (s.wr a v) :=
  of_beside (A := (· = a)) (Beside.wr s a v rfl) (fun _ hb => hb ▸ ha)

theorem setFld (s : State) {a : Nat} (lo len v : Nat) (ha : ¬ EvtBlock a) : Onward s (s.setFld a lo len v) := wr s _ ha

theorem stick (s : State) (a i : Nat) : Onward s (s.stick a i) where
  bits b k _ h := by
    rw [State.bitAt, State.rd_stick]
    split
    · next hb => subst hb; exact bit_orBit_of_bit h
    · exact h
  rein _ := .inl rfl
  fwOn := rfl

theorem freeRein (s : State) (r : Nat) : Onward s (s.setRein r none) where
  bits _ _ _ h := h
  rein q := by
    rw [State.rein_setRein]
    split
    · exact .inr rfl
    · exact .inl rfl
  fwOn := rfl

theorem deliver (s : State) (c : Nat) (b : Bool) : Onward s (s.deliver c b) :=
  of_beside (deliver_beside (A := fun _ => False) s c b) fun _ h => h.elim

theorem logOne (s : State) (src code : Nat) (args : List Nat) : Onward s (s.logOne src code args) :=
  of_beside (logOne_beside (A := fun _ => False) s src code args) fun _ h => h.elim

theorem raiseIn (s : State) (n c : Nat) : Onward s (s.raiseIn n c) := by
  unfold State.raiseIn
  exact ite ((stick s _ _).trans (deliver _ _ _)) (refl s)

theorem raiseBits (s : State) (n : Nat) : Onward s (s.raiseBits n) := by
  unfold State.raiseBits
  exact foldl _ _ (fun t c => ite (raiseIn t n c) (refl t)) s

theorem logRec (s : State) (src code : Nat) (args : List Nat) : Onward s (s.logRec src code args) := by
  have hu := (logOne s src code args).trans (raiseBits _ 251)
  unfold State.logRec
  exact ite (ite (hu.trans (logOne _ _ _ _)) hu) (logOne s src code args)

theorem raiseBits_raise (s : State) (n : Nat) : Onward (s.raiseBits n) (s.raise n) := by
  unfold State.raise State.raiseAt
  exact ite (logRec _ _ _ _) (refl _)

theorem raise (s : State) (n : Nat) : Onward s (s.raise n) := (raiseBits s n).trans (raiseBits_raise s n)

theorem syncTail (s : State) (c : Nat) : Onward s (s.syncTail c) := by
  unfold State.syncTail
  split
  · next hc => exact wr s _ (hcxCqTail_not_evtBlock hc)
  · exact refl s

theorem reply (s : State) (c op tag st : Nat) (ps : List Nat) (d : Bool) : Onward s (s.reply c op tag st ps d) := by
  unfold State.reply
  have hq : ∀ f, Onward s ((s.onCx c f).syncTail c) := fun f => (onCx s c f).trans (syncTail _ c)
  exact ite (ite ((hq _).trans (raise _ _)) (hq _)) ((onCx s c _).trans (raise _ _))

theorem answerOk (s : State) (h : CmdHdr) (op : Nat) (ps : List Nat) : Onward s (s.answerOk h op ps) := by
  unfold State.answerOk
  exact ite (refl s) (reply s _ _ _ _ _ _)

theorem complete (s : State) (op idx st : Nat) (ps : List Nat) : Onward s (s.complete op idx st ps) := by
  unfold State.complete
  split
  · exact refl s
  · have hd : ∀ l, Onward s { s with deferred := l } := fun _ => of_eq rfl rfl rfl rfl
    exact (hd _).trans (reply _ _ _ _ _ _ _)

theorem raiseFw (s : State) (n : Nat) : Onward s (s.raiseFw n) := ite (raise s n) (refl s)

/-- An update session that ends changes the store, its status and the log, and raises source 252 (R397). -/
theorem abortUpdate (s : State) : Onward s s.abortUpdate := by
  unfold State.abortUpdate
  split
  · exact refl s
  · next x _ =>
    have hStore : Onward s (s.onMgt fun m => { m with update := none, fwBanks := Tab.set (fun _ => {}) m.fwBanks x.bank {} }) :=
      of_eq rfl rfl rfl rfl
    have hStatus : ∀ t : State, Onward t ((t.setFld Reg.mgtUpdStat 0 3 0).setFld Reg.mgtUpdStat 8 24 0) := fun t =>
      (setFld t _ _ _ mgtUpdStat_not_evtBlock).trans (setFld _ _ _ _ mgtUpdStat_not_evtBlock)
    exact hStore.trans ((complete _ _ _ _ _).trans ((complete _ _ _ _ _).trans
      ((hStatus _).trans ((raiseFw _ _).trans (logRec _ _ _ _)))))

theorem restoreStreams (s : State) : Onward s s.restoreStreams := by
  unfold State.restoreStreams
  exact ite (of_eq rfl rfl rfl rfl) (of_eq rfl rfl rfl rfl)

theorem restoreCycle (s : State) : Onward s s.restoreCycle := by
  unfold State.restoreCycle
  have hBanks : ∀ f, Onward s (s.onCyc f) := fun _ => of_eq rfl rfl rfl rfl
  exact ite (hBanks _) ((hBanks _).trans (wr _ _ cycPeriodPend_not_evtBlock))

theorem discardStaged (s : State) (r : Nat) : Onward s (s.discardStaged r) := by
  unfold State.discardStaged
  have hDrop : ∀ p, Onward s (s.dropK p) := fun _ => of_eq rfl rfl rfl rfl
  exact ite (hDrop _) (ite (hDrop _) (ite (restoreStreams s) (ite (restoreCycle s) (ite (abortUpdate s) (refl s)))))

theorem loseRein (s : State) (r : Nat) : Onward s (s.loseRein r) := by
  unfold State.loseRein
  split
  · exact refl s
  · exact (freeRein s r).trans ((discardStaged _ r).trans (raise _ _))

theorem breakReins (s : State) (c : Nat) : Onward s (s.breakReins c) := by
  unfold State.breakReins
  exact foldl _ _ (fun t r => ite (loseRein t r) (refl t)) s

theorem setRole (s : State) (c : Nat) (x : Role) : Onward s (s.setRole c x) := of_eq rfl rfl rfl rfl

theorem roleChange (s : State) (c : Nat) (old new : Role) : Onward s (s.roleChange c old new) := by
  unfold State.roleChange
  exact ite (refl s) ((raiseFw s _).trans (logRec _ _ _ _))

theorem rein_none (h : Onward s t) {r : Nat} (hr : s.rein r = none) : t.rein r = none := by
  simpa [hr] using h.rein r

end Onward

/-! What each operation does that `Onward` does not say. -/

/-- A fold one of whose steps leads from `P` to `Q` leads there, if every step keeps `P` and keeps `Q`. -/
theorem foldl_reaches {β : Type} {P Q : State → Prop} {f : State → β → State} {b : β} (hP : ∀ t x, P t → P (f t x))
    (hQ : ∀ t x, Q t → Q (f t x)) (hb : ∀ t, P t → Q (f t b))
    {l : List β} (hmem : b ∈ l) {s : State} (hs : P s) : Q (l.foldl f s) := by
  obtain ⟨before, after, rfl⟩ := List.append_of_mem hmem
  rw [List.foldl_append, List.foldl_cons]
  have hBefore : P (before.foldl f s) := before.foldlRecOn f hs fun t ht x _ => hP t x ht
  exact after.foldlRecOn f (hb _ hBefore) fun t ht x _ => hQ t x ht

/-- A source raised in a context its route names has its status bit there (R367). -/
theorem raiseIn_sets {s : State} {n c : Nat} (hn : n < 256) (hc : c < 8) (h : s.bitAt (Reg.evtRoute n) c = true) :
    (s.raiseIn n c).bitAt (Reg.evtStat c (n / 32)) (n % 32) = true := by
  rw [State.raiseIn, if_pos h]
  refine (Onward.deliver _ _ _).bits _ _ (evtStat_mem_evtBlock hc (by omega)) ?_
  rw [State.bitAt, State.rd_stick, if_pos rfl]
  exact bit_orBit_self _ (by omega)

/-- A source raised has its status bit in every context its route names (R367). -/
theorem raiseBits_sets {s : State} {n c : Nat} (hn : n < 256) (hc : c < 8) (h : s.bitAt (Reg.evtRoute n) c = true) :
    (s.raiseBits n).bitAt (Reg.evtStat c (n / 32)) (n % 32) = true := by
  unfold State.raiseBits
  dsimp only
  have hstep : ∀ t x, Onward t (if bit (s.rd (Reg.evtRoute n)) x then t.raiseIn n x else t) := fun t x =>
    Onward.ite (Onward.raiseIn t n x) (Onward.refl t)
  refine foldl_reaches (b := c) (P := fun t => t.bitAt (Reg.evtRoute n) c = true)
    (Q := fun t => t.bitAt (Reg.evtStat c (n / 32)) (n % 32) = true) (fun t x => ?_) (fun t x => ?_) (fun t ht => ?_)
    (List.mem_range.mpr hc) h
  · exact (hstep t x).bits _ _ (evtRoute_mem_evtBlock hn)
  · exact (hstep t x).bits _ _ (evtStat_mem_evtBlock hc (by omega))
  · have hRouted : bit (s.rd (Reg.evtRoute n)) c = true := h
    rw [if_pos hRouted]
    exact raiseIn_sets hn hc ht

/-- A source that the firmware raises while it serves commands. -/
theorem raiseFw_sets {s : State} {n c : Nat} (hf : s.fwOn = true) (hn : n < 256) (hc : c < 8)
    (h : s.bitAt (Reg.evtRoute n) c = true) : (s.raiseFw n).bitAt (Reg.evtStat c (n / 32)) (n % 32) = true := by
  rw [State.raiseFw, if_pos hf]
  exact (Onward.raiseBits_raise s n).bits _ _ (evtStat_mem_evtBlock hc (by omega)) (raiseBits_sets hn hc h)

/-- A role that changes raises source 240 in every context its route names (R337). -/
theorem roleChange_sets {s : State} {c d : Nat} {old new : Role} (hne : old ≠ new) (hf : s.fwOn = true) (hd : d < 8)
    (h : s.bitAt (Reg.evtRoute 240) d = true) : (s.roleChange c old new).bitAt (Reg.evtStat d 7) 16 = true := by
  rw [State.roleChange, if_neg hne]
  exact (Onward.logRec _ _ _ _).bits _ _ (evtStat_mem_evtBlock hd (by omega)) (raiseFw_sets hf (by omega) hd h)

/-- A rein that is lost is free (R343). -/
theorem loseRein_rein_self (s : State) (r : Nat) : (s.loseRein r).rein r = none := by
  unfold State.loseRein
  split
  · assumption
  · exact ((Onward.discardStaged _ r).trans (Onward.raise _ _)).rein_none (by rw [State.rein_setRein, if_pos rfl])

theorem holds_iff {s : State} {c r : Nat} : s.holds c r = true ↔ (s.rein r).map (·.holder) = some c := by
  unfold State.holds
  split <;> simp_all

/-- Every rein that a context holds is free once its reins are broken. -/
theorem breakReins_frees {s : State} {c r : Nat} (hr : r < 64) (h : (s.rein r).map (·.holder) = some c) :
    (s.breakReins c).rein r = none := by
  unfold State.breakReins
  have hstep : ∀ (t : State) q, Onward t (if t.holds c q then t.loseRein q else t) := fun t q =>
    Onward.ite (Onward.loseRein t q) (Onward.refl t)
  refine foldl_reaches (b := r) (P := fun t => (t.rein r).map (·.holder) = some c ∨ t.rein r = none) (fun t q ht => ?_)
    (fun t q => (hstep t q).rein_none) (fun t ht => ?_) (List.mem_range.mpr hr) (.inl h)
  · rcases ht with ht | ht
    · exact ((hstep t q).rein r).imp (·.trans ht) id
    · exact .inr ((hstep t q).rein_none ht)
  · split
    · exact loseRein_rein_self t r
    · next hno => exact ht.resolve_left fun hheld => hno (holds_iff.mpr hheld)

/-! The roles. -/

theorem role_of_kept {s t : State} (h : t.kept = s.kept) (d : Nat) : t.role d = s.role d := by
  rw [State.role, kept_roles h, State.role]

@[simp] theorem roleChange_kept (s : State) (c : Nat) (old new : Role) : (s.roleChange c old new).kept = s.kept := by
  unfold State.roleChange
  split
  · rfl
  · rw [logRec_kept, raiseFw_kept]

/-- After a module reset the roles are those of R15. -/
theorem moduleReset_roles (s : State) (cause : Nat) : (s.moduleReset cause).roles = [] := by
  unfold State.moduleReset
  dsimp only
  split <;> rfl

/-! ROLE_SET (R337). -/

/-- The role `new` given to `target` by the context `c`: giving PRINCIPAL makes `c` OPERATOR, and a new OBSERVER loses its reins. -/
def State.giveRole (s : State) (c target : Nat) (new : Role) : State :=
  let a := s.setRole target new
  let b := if new = .principal then a.setRole c .operator else a
  if new = .observer then b.breakReins target else b

/-- What an admitted ROLE_SET leaves before its answer: the roles given and both changes reported. -/
def State.roleSetDone (s : State) (c target : Nat) (new : Role) : State :=
  let t := s.giveRole c target new
  (t.roleChange target (s.role target) new).roleChange c (s.role c) (t.role c)

theorem exec_roleSet {s : State} {h : CmdHdr} {target role : Nat} (ht : target < 8) (hr : role < 3) (hne : target ≠ h.ctx)
    (ha : Admitted s h 0x0A02 { role := .prin }) :
    exec (.roleSet h target role) s = .next (((s.receive h 0x0A02).roleSetDone h.ctx target (roleOf role)).answerOk h 0x0A02 []) :=
  cmd_done ha (by simp [firstBad, ht, hr]) (if_neg hne)

theorem exec_roleSet_caller {s : State} {h : CmdHdr} {role : Nat} (hr : role < 3) (ha : Admitted s h 0x0A02 { role := .prin }) :
    exec (.roleSet h h.ctx role) s = .next ((s.receive h 0x0A02).reply h.ctx 0x0A02 h.tag St.state [] false) :=
  cmd_refused ha (by simp [firstBad, ha.1, hr]) (if_pos rfl)

theorem giveRole_role (s : State) (c target d : Nat) (new : Role) :
    (s.giveRole c target new).role d
      = if new = .principal ∧ d = c then .operator else if d = target then new else s.role d := by
  unfold State.giveRole
  cases new with
  | observer => simp [role_of_kept (breakReins_kept _ _), State.role_setRole]
  | operator => simp [State.role_setRole]
  | principal => simp [State.role_setRole]

theorem giveRole_onward (s : State) (c target : Nat) (new : Role) : Onward s (s.giveRole c target new) := by
  unfold State.giveRole
  have ha := Onward.setRole s target new
  have hb := Onward.ite (b := new = .principal) (ha.trans (Onward.setRole _ c .operator)) ha
  exact Onward.ite (hb.trans (Onward.breakReins _ _)) hb

/-- A context made OBSERVER holds no rein (R337). -/
theorem giveRole_observer_frees {s : State} {c target r : Nat} (hr : r < 64) (h : (s.rein r).map (·.holder) = some target) :
    (s.giveRole c target .observer).rein r = none := by
  unfold State.giveRole
  exact breakReins_frees hr h

theorem roleSetDone_role (s : State) (c target d : Nat) (new : Role) :
    (s.roleSetDone c target new).role d
      = if new = .principal ∧ d = c then .operator else if d = target then new else s.role d := by
  rw [← giveRole_role]
  exact role_of_kept (by rw [State.roleSetDone, roleChange_kept, roleChange_kept]) d

theorem roleSetDone_observer_frees {s : State} {c target r : Nat} (hr : r < 64) (h : (s.rein r).map (·.holder) = some target) :
    (s.roleSetDone c target .observer).rein r = none :=
  ((Onward.roleChange _ _ _ _).trans (Onward.roleChange _ _ _ _)).rein_none (giveRole_observer_frees hr h)

/-- A new role of the target raises source 240 in every context its route names (R337). -/
theorem roleSetDone_sets {s : State} {c target d : Nat} {new : Role} (hne : s.role target ≠ new) (hf : s.fwOn = true) (hd : d < 8)
    (h : s.bitAt (Reg.evtRoute 240) d = true) : (s.roleSetDone c target new).bitAt (Reg.evtStat d 7) 16 = true := by
  have hg := giveRole_onward s c target new
  refine (Onward.roleChange _ _ _ _).bits _ _ (evtStat_mem_evtBlock hd (by omega)) (roleChange_sets hne ?_ hd ?_)
  · exact hg.fwOn.trans hf
  · exact hg.bits _ _ (evtRoute_mem_evtBlock (by omega)) h

/-- What the reception of a command can change lies beside the reins and the firmware's state. -/
theorem receive_beside_any (s : State) (h : CmdHdr) (op : Nat) : Beside (fun _ => True) s (s.receive h op) :=
  receive_beside s h op (fun _ _ => trivial) (fun _ _ => trivial) trivial

theorem roleOf_eq_principal_iff {n : Nat} (h : n < 3) : roleOf n = .principal ↔ n = 2 := by
  interval_cases n <;> decide

end Sys2Proof.Machine

open Sys2Proof.Machine

/-- Settles O2: of the state that ROLE_SET leaves before its answer, the roles are read off (`roleSetDone_role`), the reins of a new
OBSERVER are free (`roleSetDone_observer_frees`) and source 240 is raised (`roleSetDone_sets`); the answer is `Onward` of it. -/
theorem roleSetGivesRole : Obligations.RoleSetGivesRole := by
  unfold Obligations.RoleSetGivesRole
  refine ⟨fun s h target role ht hr hne ha => ?_, fun s h role hr ha => exec_roleSet_caller hr ha,
    fun s c rings => kept_roles (ctxReset_kept s c rings), fun s cause c => ?_⟩
  · have hrecv : ∀ d, (s.receive h 0x0A02).role d = s.role d := role_of_kept (receive_kept s h 0x0A02)
    have hrole : ∀ d, (((s.receive h 0x0A02).roleSetDone h.ctx target (roleOf role)).answerOk h 0x0A02 []).role d
        = if role = 2 ∧ d = h.ctx then .operator else if d = target then roleOf role else s.role d := fun d => by
      rw [role_of_kept (answerOk_kept _ _ _ _), roleSetDone_role, hrecv]
      simp only [roleOf_eq_principal_iff hr]
    have hans := Onward.answerOk ((s.receive h 0x0A02).roleSetDone h.ctx target (roleOf role)) h 0x0A02 []
    refine ⟨_, exec_roleSet ht hr hne ha, ?_, ?_, fun d hdt hdc => ?_, fun h0 r hr64 hheld => ?_, fun hnew c hc hroute => ?_⟩
    · simp [hrole, hne]
    · simp [hrole, hne.symm]
    · simp [hrole, hdt, hdc]
    · subst h0
      exact hans.rein_none (roleSetDone_observer_frees hr64 (((receive_beside_any s h 0x0A02).rein r).trans hheld))
    · obtain ⟨-, hServes, -⟩ := ha
      have hfw : (s.receive h 0x0A02).fwOn = true := (receive_beside_any s h 0x0A02).fwOn.trans hServes
      exact hans.bits _ _ (evtStat_mem_evtBlock hc (by omega)) (roleSetDone_sets (by rwa [hrecv]) hfw hc hroute)
  · rw [State.role, moduleReset_roles]
    rfl

end

section
/-! R367, a source raised: what the event status registers read after it, said once and exactly (`raiseBits_rd`). The contexts are
taken one after the other, and each writes its own register only. -/

namespace Sys2Proof.Machine

theorem evtStat_inj {c d j k : Nat} (hj : j < 8) (hk : k < 8) : Reg.evtStat c j = Reg.evtStat d k ↔ c = d ∧ j = k := by
  unfold Reg.evtStat
  omega

theorem evtRoute_ne_evtStat (n : Nat) {c j : Nat} (hc : c < 8) (hj : j < 8) : Reg.evtRoute n ≠ Reg.evtStat c j := by
  unfold Reg.evtRoute Reg.evtStat
  omega

theorem evtRoute_ne_evtMask (n : Nat) {c j : Nat} (hc : c < 8) (hj : j < 8) : Reg.evtRoute n ≠ Reg.evtMask c j := by
  unfold Reg.evtRoute Reg.evtMask
  omega

/-- A register written leaves every bit of the others. -/
theorem bitAt_wr_of_ne {s : State} {a b : Nat} (v : Word) (i : Nat) (h : b ≠ a) : (s.wr a v).bitAt b i = s.bitAt b i := by
  rw [State.bitAt, State.rd_wr, if_neg h, State.bitAt]

/-- Setting a bit of a word leaves the others. -/
theorem bit_orBit_of_ne (w : Word) {i k : Nat} (h : k ≠ i) : bit (orBit w i) k = bit w k := by
  have hBit : (1#32 <<< i).getLsbD k = false := by
    simp only [BitVec.getLsbD_shiftLeft, BitVec.getLsbD_one, Bool.and_eq_false_iff, Bool.not_eq_false', decide_eq_true_eq,
      decide_eq_false_iff_not]
    omega
  change (w ||| 1#32 <<< i).getLsbD k = w.getLsbD k
  rw [BitVec.getLsbD_or, hBit, Bool.or_false]

/-- Setting a bit that is set changes nothing. -/
theorem orBit_eq_self {w : Word} {i : Nat} (h : bit w i = true) : orBit w i = w := by
  refine BitVec.eq_of_getLsbD_eq fun k _ => ?_
  change bit (orBit w i) k = bit w k
  by_cases hk : k = i
  · rw [hk, bit_orBit_of_bit h, h]
  · exact bit_orBit_of_ne w hk

/-- A source raised in a context sets its bit there where its route names the context, and writes no other status register. -/
theorem raiseIn_rd (s : State) {n b c j : Nat} (hn : n < 256) (hj : j < 8) :
    (s.raiseIn n b).rd (Reg.evtStat c j)
      = if s.bitAt (Reg.evtRoute n) b = true ∧ c = b ∧ j = n / 32 then orBit (s.rd (Reg.evtStat c j)) (n % 32)
        else s.rd (Reg.evtStat c j) := by
  unfold State.raiseIn
  by_cases hRouted : s.bitAt (Reg.evtRoute n) b = true
  · rw [if_pos hRouted, (deliver_beside (A := fun _ => False) _ _ _).rd _ id, State.rd_stick]
    have hn8 : n / 32 < 8 := by omega
    simp only [evtStat_inj hj hn8, hRouted, true_and]
    split
    · next h => rw [h.1, h.2]
    · rfl
  · rw [if_neg hRouted, if_neg fun h => hRouted h.1]

/-- A source raised in those of the contexts below `k` that its route names. -/
def State.raiseBelow (s : State) (n k : Nat) : State :=
  (List.range k).foldl (fun t c => if bit (s.rd (Reg.evtRoute n)) c then t.raiseIn n c else t) s

theorem raiseBits_eq_raiseBelow (s : State) (n : Nat) : s.raiseBits n = s.raiseBelow n 8 := (rfl)

theorem raiseBelow_succ (s : State) (n k : Nat) :
    s.raiseBelow n (k + 1)
      = if s.bitAt (Reg.evtRoute n) k then (s.raiseBelow n k).raiseIn n k else s.raiseBelow n k := by
  rw [State.raiseBelow, List.range_succ, List.foldl_append]
  rfl

/-- Raising a source leaves the routes. -/
theorem raiseBelow_route (s : State) {n k : Nat} (hn : n < 256) (hk : k ≤ 8) (m i : Nat) :
    (s.raiseBelow n k).bitAt (Reg.evtRoute m) i = s.bitAt (Reg.evtRoute m) i := by
  have hBeside : Beside EvtReg s (s.raiseBelow n k) := Beside.foldl _ _
    (fun t c hc => Beside.ite (raiseIn_beside t n c hn (by have := List.mem_range.mp hc; omega) fun _ h => h) (Beside.refl _ t)) s
  have hRoute : ¬ EvtReg (Reg.evtRoute m) := fun ⟨c, j, hc, hj, h⟩ => evtRoute_ne_evtStat m hc hj h
  rw [State.bitAt, hBeside.rd _ hRoute, State.bitAt]

theorem raiseBelow_rd (s : State) {n c j k : Nat} (hn : n < 256) (hj : j < 8) (hk : k ≤ 8) :
    (s.raiseBelow n k).rd (Reg.evtStat c j)
      = if s.bitAt (Reg.evtRoute n) c = true ∧ c < k ∧ j = n / 32 then orBit (s.rd (Reg.evtStat c j)) (n % 32)
        else s.rd (Reg.evtStat c j) := by
  induction k with
  | zero => simp [State.raiseBelow]
  | succ k ih =>
    specialize ih (by omega)
    rw [raiseBelow_succ]
    by_cases hRouted : s.bitAt (Reg.evtRoute n) k = true
    · rw [if_pos hRouted, raiseIn_rd _ hn hj, raiseBelow_route s hn (by omega), ih]
      by_cases hck : c = k
      · subst hck
        simp [hRouted]
      · simp [hck, show c < k + 1 ↔ c < k by omega]
    · rw [if_neg hRouted, ih]
      by_cases hck : c = k
      · subst hck
        simp [hRouted]
      · simp [show c < k + 1 ↔ c < k by omega]

/-- A source raised sets its status bit in the contexts its route names and writes no other status register (R367). -/
theorem raiseBits_rd (s : State) {n c j : Nat} (hn : n < 256) (hc : c < 8) (hj : j < 8) :
    (s.raiseBits n).rd (Reg.evtStat c j)
      = if s.bitAt (Reg.evtRoute n) c = true ∧ j = n / 32 then orBit (s.rd (Reg.evtStat c j)) (n % 32)
        else s.rd (Reg.evtStat c j) := by
  rw [raiseBits_eq_raiseBelow, raiseBelow_rd s hn hj (Nat.le_refl 8)]
  simp only [hc, true_and]

/-- A source raised leaves every status bit but its own (R367). -/
theorem raiseBits_bitAt_of_ne (s : State) {n c j k : Nat} (hn : n < 256) (hc : c < 8) (hj : j < 8) (h : ¬(j = n / 32 ∧ k = n % 32)) :
    (s.raiseBits n).bitAt (Reg.evtStat c j) k = s.bitAt (Reg.evtStat c j) k := by
  rw [State.bitAt, raiseBits_rd s hn hc hj]
  split
  · next hOwn => exact bit_orBit_of_ne _ fun hk => h ⟨hOwn.2, hk⟩
  · rfl

/-- A source raised where its status bit is set changes nothing there (R367). -/
theorem raiseBits_rd_of_bitAt {s : State} {n c j : Nat} (hn : n < 256) (hc : c < 8) (hj : j < 8)
    (h : s.bitAt (Reg.evtStat c (n / 32)) (n % 32) = true) :
    (s.raiseBits n).rd (Reg.evtStat c j) = s.rd (Reg.evtStat c j) := by
  rw [raiseBits_rd s hn hc hj]
  split
  · next hOwn => rw [hOwn.2, orBit_eq_self h]
  · rfl

end Sys2Proof.Machine

open Sys2Proof.Machine

/-- Settles O53: `raiseBits_rd` says what each status register reads after the source; a W1C or a mask written before it leaves the
route, so that `raiseBits_sets` holds of the written state too. -/
theorem raiseSetsRoutedBits : Obligations.RaiseSetsRoutedBits := by
  unfold Obligations.RaiseSetsRoutedBits
  intro s n c hn hc
  have hn8 : n / 32 < 8 := by omega
  have hWritten : ∀ a v, Reg.evtRoute n ≠ a → s.bitAt (Reg.evtRoute n) c = true →
      ((s.wr a v).raiseBits n).bitAt (Reg.evtStat c (n / 32)) (n % 32) = true := fun a v ha hRouted =>
    raiseBits_sets hn hc (by rwa [bitAt_wr_of_ne v c ha])
  refine ⟨raiseBits_sets hn hc, fun hOff j hj => ?_, fun j k hj _ h => raiseBits_bitAt_of_ne s hn hc hj h,
    fun hSet j hj => raiseBits_rd_of_bitAt hn hc hj hSet, fun hRouted v => ?_, fun v j hj => ?_, fun hRouted v => ?_⟩
  · rw [raiseBits_rd s hn hc hj, if_neg (by simp [hOff])]
  · exact hWritten _ _ (evtRoute_ne_evtStat n hc hn8) hRouted
  · rw [State.rd_setFld, if_neg (evtRoute_ne_evtStat n hc hj).symm]
  · exact hWritten _ v (evtRoute_ne_evtMask n hc hn8) hRouted

end

section
/-! R405, R406, the TAP: what each of its instructions leaves. A scan changes the instruction and the bits shifted out alone, so each
instruction is said by one equation where it is available, and the three of the freeze by one more where they act as BYPASS. -/

namespace Sys2Proof.Machine

variable {s : State}

theorem powered_eq_true (h : s.life ≠ .unpowered) : s.powered = true := decide_eq_true h

/-- A scan of a powered module changes the instruction and the bits shifted out alone. -/
theorem scan_of_powered (h : s.life ≠ .unpowered) (ir : Nat) (out : List Nat) :
    s.scan ir out = { s with tap := { s.tap with ir := ir, tdo := out } } :=
  if_pos (powered_eq_true h)

/-- The instructions of the freeze are available in a freeze after an unlock (R405). -/
theorem tapOpen_eq_true (hFrozen : s.life = .frozen) (hUnlocked : s.tap.unlocked = true) : s.tapOpen = true := by
  rw [State.tapOpen, hFrozen, hUnlocked]
  rfl

/-- A frozen module is powered, so an instruction of the freeze that is available scans. -/
theorem powered_of_tapOpen (h : s.tapOpen = true) : s.life ≠ .unpowered := by
  rw [State.tapOpen, Bool.and_eq_true, decide_eq_true_iff] at h
  rw [h.1]
  decide

/-- A word of the TAP memory space within the process image is four bytes of its banks (R406). -/
theorem tapWord_of_image {a : Nat} (hlo : 0x1000000 ≤ a) (hhi : a < 0x1200000) :
    s.tapWord a = leNat ((List.range 4).map fun j => s.bankByte (a - 0x1000000 + j)) := by
  rw [State.tapWord, if_neg (Nat.not_lt.mpr hlo), if_pos hhi]

theorem exec_tapBypass (h : s.life ≠ .unpowered) :
    exec .tapBypass s = .next { s with tap := { s.tap with ir := 0xFF, tdo := [0] } } :=
  congrArg Host.Outcome.next (scan_of_powered h 0xFF [0])

theorem exec_tapIdcode (h : s.life ≠ .unpowered) :
    exec .tapIdcode s = .next { s with tap := { s.tap with ir := 0x01, tdo := [Config.bsdlBits 0x01 0] } } := by
  change execTapIdcode s = _
  rw [execTapIdcode, if_pos (powered_eq_true h), scan_of_powered h]

theorem exec_tapSamplePreload (h : s.life ≠ .unpowered) :
    exec .tapSamplePreload s = .next { s with
      tap := { s.tap with ir := 0x02, tdo := [Config.bsdlBits 0x02 s.freeCtr] }, freeCtr := s.freeCtr + 1 } := by
  change execTapSamplePreload s = _
  rw [execTapSamplePreload, if_pos (powered_eq_true h), scan_of_powered h, State.drawn]

theorem exec_tapFrzStatus (h : s.life ≠ .unpowered) :
    exec .tapFrzStatus s = .next { s with tap := { s.tap with
      ir := 0x43, tdo := [b2n (decide (s.life = .frozen)) + b2n s.tap.unlocked * 2 + b2n s.thermalStop * 4] } } :=
  congrArg Host.Outcome.next (scan_of_powered h 0x43 _)

theorem exec_tapExtest (h : s.life = .held) :
    exec .tapExtest s = .next { s with
      tap := { s.tap with ir := 0x00, tdo := [Config.bsdlBits 0x00 s.freeCtr] }, freeCtr := s.freeCtr + 1 } := by
  have hPowered : s.life ≠ .unpowered := by rw [h]; decide
  change execTapExtest s = _
  rw [execTapExtest, if_pos h, scan_of_powered hPowered, State.drawn]

theorem exec_tapWaferRead (h : s.tapOpen = true) (n : Nat) :
    exec (.tapWaferRead n) s = .next { s with
      tap := { s.tap with ir := 0x40, tdo := (List.range n).map fun i => Config.tapBits s.freeCtr i % 2 },
      freeCtr := s.freeCtr + 1 } := by
  change execTapWaferRead n s = _
  rw [execTapWaferRead, if_pos h, scan_of_powered (powered_of_tapOpen h), State.drawn]

theorem exec_tapMemAddr (h : s.tapOpen = true) (a : Word) :
    exec (.tapMemAddr a) s = .next { s with tap := { s.tap with ir := 0x41, tdo := [], addr := a.toNat } } := by
  change execTapMemAddr a s = _
  rw [execTapMemAddr, if_pos h, scan_of_powered (powered_of_tapOpen h)]

theorem exec_tapMemRead (h : s.tapOpen = true) (n : Nat) :
    exec (.tapMemRead n) s = .next { s with tap := { s.tap with
      ir := 0x42, tdo := (List.range n).map fun i => s.tapWord ((s.tap.addr + 4 * i) % 2 ^ 32),
      addr := (s.tap.addr + 4 * n) % 2 ^ 32 } } := by
  change execTapMemRead n s = _
  rw [execTapMemRead, if_pos h, scan_of_powered (powered_of_tapOpen h)]

theorem exec_tapWaferRead_eq_bypass (h : s.tapOpen = false) (n : Nat) : exec (.tapWaferRead n) s = exec .tapBypass s :=
  congrArg Host.Outcome.next (if_neg (ne_true_of_eq_false h))

theorem exec_tapMemAddr_eq_bypass (h : s.tapOpen = false) (a : Word) : exec (.tapMemAddr a) s = exec .tapBypass s :=
  congrArg Host.Outcome.next (if_neg (ne_true_of_eq_false h))

theorem exec_tapMemRead_eq_bypass (h : s.tapOpen = false) (n : Nat) : exec (.tapMemRead n) s = exec .tapBypass s :=
  congrArg Host.Outcome.next (if_neg (ne_true_of_eq_false h))

end Sys2Proof.Machine

open Sys2Proof.Machine

/-- Settles O47: each instruction by its equation where it is available; the bits of WAFER_READ are below 2 as taken modulo 2, a word
of MEM_READ in the image's area is `tapWord_of_image`, and the three of the freeze are BYPASS where `State.tapOpen` is false. -/
theorem tapComplete : Obligations.TapComplete := by
  unfold Obligations.TapComplete
  refine fun s => ⟨fun hPowered => ⟨exec_tapBypass hPowered, exec_tapIdcode hPowered, ⟨_, exec_tapSamplePreload hPowered⟩,
    exec_tapFrzStatus hPowered⟩, fun hHeld => ⟨_, exec_tapExtest hHeld⟩, fun n a hFrozen hUnlocked => ?_, fun n a _ hClosed => ?_⟩
  · have hOpen := tapOpen_eq_true hFrozen hUnlocked
    refine ⟨⟨_, by simp, fun b hb => ?_, exec_tapWaferRead hOpen n⟩, exec_tapMemAddr hOpen a,
      ⟨_, by simp, exec_tapMemRead hOpen n, fun i hi hlo hhi => ?_⟩⟩
    · obtain ⟨i, -, rfl⟩ := List.mem_map.mp hb
      exact Nat.mod_lt _ Nat.two_pos
    · rw [← tapWord_of_image hlo hhi]
      simp [List.getD, hi]
  · exact ⟨exec_tapWaferRead_eq_bypass hClosed n, exec_tapMemAddr_eq_bypass hClosed a, exec_tapMemRead_eq_bypass hClosed n⟩

end

section
/-! R180, the process image: what a byte reads after a write of any length, and the canonical form kept by it. -/

namespace Sys2Proof.Machine

theorem Memory.read_write (m : List Host.Cell) (a : Nat) (b : Byte) (x : Nat) :
    Memory.read (Memory.write m a b) x = if x = a then b else Memory.read m x := Tab.get_set _ m a x b

/-- The bytes written stand from `a` on in their order; every other byte stands. -/
theorem Memory.read_writeAll (m : List Host.Cell) (a : Nat) (bs : List Byte) (x : Nat) :
    Memory.read (Memory.writeAll m a bs) x = if a ≤ x ∧ x < a + bs.length then bs.getD (x - a) 0 else Memory.read m x := by
  induction bs generalizing m a with
  | nil => rw [Memory.writeAll, if_neg (by simp)]
  | cons b bs ih =>
    rw [Memory.writeAll, ih, Memory.read_write]
    by_cases hx : x = a
    · subst hx
      simp
    · by_cases hlt : a + 1 ≤ x ∧ x < a + 1 + bs.length
      · have hsub : x - a = (x - (a + 1)) + 1 := by omega
        rw [if_pos hlt, if_pos (by simp only [List.length_cons]; omega), hsub, List.getD_cons_succ]
      · rw [if_neg hlt, if_neg hx, if_neg (by simp only [List.length_cons]; omega)]

/-- A byte beside those written stands. -/
theorem Memory.read_writeAll_of_outside {m : List Host.Cell} {a : Nat} {bs : List Byte} {x : Nat} (h : x < a ∨ a + bs.length ≤ x) :
    Memory.read (Memory.writeAll m a bs) x = Memory.read m x := by
  rw [Memory.read_writeAll, if_neg (by omega)]

theorem Memory.wf_writeAll {m : List Host.Cell} (a : Nat) (bs : List Byte) (h : Memory.wf m = true) :
    Memory.wf (Memory.writeAll m a bs) = true := by
  induction bs generalizing m a with
  | nil => exact h
  | cons b bs ih => exact ih (a + 1) (Tab.wf_set _ m a b h)

end Sys2Proof.Machine

open Sys2Proof.Machine

/-- Settles O43, by induction on the bytes written: `Memory.read_writeAll` and `Memory.wf_writeAll`. -/
theorem imageReadsBack : Obligations.ImageReadsBack :=
  ⟨Memory.read_writeAll, fun _ a bs => Memory.wf_writeAll a bs⟩

end

section
/-! R15, R206, R340, R366: the block right after reset. Every table of `State.reset` is empty, so that each of its entries has
its default. -/

namespace Sys2Proof.Machine

theorem reset_rd (a : Nat) : State.reset.rd a = Reg.reset a := (rfl)

theorem reset_evtStat {c j : Nat} (hc : c < 8) (hj : j < 8) : Reg.reset (Reg.evtStat c j) = 0 := by
  interval_cases c <;> interval_cases j <;> rfl

theorem reset_evtMask {c j : Nat} (hc : c < 8) (hj : j < 8) : Reg.reset (Reg.evtMask c j) = 0xFFFFFFFF := by
  interval_cases c <;> interval_cases j <;> rfl

theorem reset_role (c : Nat) : State.reset.role c = if c = 0 then .principal else .observer := (rfl)

theorem reset_piBytes (b a n : Nat) : State.reset.piBytes b a n = List.replicate n 0 := by
  refine List.eq_replicate_iff.mpr ⟨by simp [State.piBytes, Memory.bytes], fun x hx => ?_⟩
  obtain ⟨i, -, rfl⟩ := List.mem_map.mp hx
  rfl

end Sys2Proof.Machine

open Sys2Proof Sys2Proof.Machine

/-- Settles O55: the tables of `State.reset` are empty; the reset values of the event registers are read off the register map. -/
theorem resetLeaves : Obligations.ResetLeaves :=
  ⟨reset_role, fun _ => rfl, fun _ => ⟨rfl, rfl, rfl, rfl⟩, rfl, rfl, reset_rd,
    fun _ _ hc hj => ⟨reset_evtStat hc hj, reset_evtMask hc hj⟩, fun _ => ⟨rfl, rfl⟩, reset_piBytes⟩

/-- Settles O56: `step` matches on the queue alone. -/
theorem stepRunsTheFront : Obligations.StepRunsTheFront := by
  unfold Obligations.StepRunsTheFront
  refine fun s c rest => ⟨fun h => ?_, fun h => ?_⟩
  · rw [step, h]
  · rw [step, h]

/-- Settles O58: at reset HC0 alone is PRINCIPAL (R15) and no byte of the image is listed. -/
theorem resetKeepsInvariant : Obligations.ResetKeepsInvariant := by
  refine ⟨⟨0, by decide, fun d => ?_⟩, rfl⟩
  rw [reset_role]
  split <;> simp_all

end

section
/-! R15, R180, R336: what a step does to the roles and the process image. A register write keeps both or resets the module
(`Reach`); every command but the five that write a role or the image keeps both or leaves the module held or without power
(`Stays`). -/

namespace Sys2Proof.Machine

open Host

/-- What a module reset or a loss of power leaves: the roles and the image of reset, and the module not up. -/
def Restarted (t : State) : Prop := t.roles = [] ∧ t.cyc.image = [] ∧ (t.life = .held ∨ t.life = .unpowered)

/-- Roles, image and life stand, or the module is as a reset leaves it. -/
def Reach (s t : State) : Prop := t.kept = s.kept ∨ t.kept = ([], [], .held)

/-- Roles and image stand, or the module restarted. -/
def Stays (s t : State) : Prop := (t.roles = s.roles ∧ t.cyc.image = s.cyc.image) ∨ Restarted t

/-- Every next state of the outcome keeps roles and image, or the module restarted. -/
def OutStays (s : State) (o : Outcome State Fault Refusal) : Prop := ∀ t, o = .next t → Stays s t

namespace Reach

variable {s t u : State}

theorem refl (s : State) : Reach s s := .inl rfl

theorem of_kept (h : t.kept = s.kept) : Reach s t := .inl h

theorem trans (h : Reach s t) (k : Reach t u) : Reach s u := by
  rcases k with k | k
  · exact h.imp k.trans k.trans
  · exact .inr k

theorem ite {b : Prop} [Decidable b] (h : Reach s t) (k : Reach s u) : Reach s (if b then t else u) := by
  split
  · exact h
  · exact k

theorem onUnitS {n i : Nat} (h : Reach s t) : Reach s (onUnitS n i t s) := ite h (refl s)

theorem foldl {β : Type} (f : State → β → State) (hf : ∀ t b, Reach t (f t b)) (l : List β) (s : State) : Reach s (l.foldl f s) :=
  l.foldlRecOn f (motive := Reach s) (refl s) fun t ht b _ => ht.trans (hf t b)

theorem stays (h : Reach s t) : Stays s t := by
  rcases h with h | h
  · exact .inl ⟨kept_roles h, kept_image h⟩
  · exact .inr ⟨congrArg Prod.fst h, congrArg (·.2.1) h, .inl (congrArg (·.2.2) h)⟩

end Reach

theorem outKept_stays {s : State} {o : Outcome State Fault Refusal} (h : OutKept s o) : OutStays s o :=
  fun t ht => (Reach.of_kept (h t ht)).stays

theorem next_stays {s t : State} (h : Stays s t) : OutStays s (.next t) := fun _ hu => by cases hu; exact h

theorem Stays.refl (s : State) : Stays s s := .inl ⟨rfl, rfl⟩

theorem Stays.ite {b : Prop} [Decidable b] {s t u : State} (h : Stays s t) (k : Stays s u) : Stays s (if b then t else u) := by
  split
  · exact h
  · exact k

/-! The resets. -/

theorem fresh_kept (s : State) (keep : List Nat) (raw : Raw) (uptime epoch : Nat) :
    (s.fresh keep raw uptime epoch).kept = ([], [], .held) := (rfl)

theorem moduleReset_kept (s : State) (cause : Nat) : (s.moduleReset cause).kept = ([], [], .held) := by
  unfold State.moduleReset
  dsimp only
  split <;> rfl

theorem freezeExit_kept (s : State) : s.freezeExit.kept = ([], [], .held) := (rfl)

theorem powerLost_restarted (s : State) : Restarted s.powerLost := ⟨rfl, rfl, .inr rfl⟩

/-! Register writes (R342, R361). -/

theorem guardEffect_reach (s : State) (a : Nat) (v : Word) : Reach s (s.guardEffect a v) := by
  have hLog : (s.logRec 0x100 9 [a, v.toNat]).kept = s.kept := logRec_kept _ _ _ _
  refine (Reach.of_kept hLog).trans ?_
  unfold State.guardEffect
  generalize s.logRec 0x100 9 [a, v.toNat] = t
  have hReset : Reach t (t.moduleReset 2) := .inr (moduleReset_kept t 2)
  have hRaise : ∀ {u : State} (n : Nat), Reach t u → Reach t (u.raise n) := fun n hu => hu.trans (.of_kept (raise_kept _ n))
  dsimp only
  refine .ite (.ite hReset (.ite (.of_kept (fwRestart_kept t 5)) (.refl t))) (.ite ?freezeEn (.ite ?tapUnlock (.ite ?epoch
    (.ite ?feed (.ite ?laser (.ite (.of_kept (storeErase_kept t _)) (.refl t)))))))
  case freezeEn => exact .ite (.ite (.of_kept rfl) (.of_kept rfl)) (hRaise 10 (.ite (.of_kept rfl) (.of_kept rfl)))
  case tapUnlock => exact .ite (hRaise 11 (.of_kept rfl)) (.ite (.of_kept rfl) (.refl t))
  case epoch => exact .ite (.of_kept (epochReset_kept t)) (.refl t)
  case feed => exact .ite (.of_kept (handTo_kept t _)) (.ite (.of_kept (handTo_kept t _)) (.refl t))
  case laser => exact .ite (.of_kept rfl) (hRaise 12 (.of_kept rfl))

theorem complement_reach (s : State) (g : Option GuardPair) (x : Nat) (v : Word) (at_ : Raw) :
    Reach s (s.complement g x v at_) := by
  unfold State.complement
  split
  · exact .ite (guardEffect_reach s _ _) (.refl s)
  · exact .refl s

/-- A register write keeps roles, image and life, or resets the module. -/
theorem busWriteAt_reach (s : State) (c a : Nat) (v : Word) (at_ : Raw) : Reach s (s.busWriteAt c a v at_) := by
  unfold State.busWriteAt
  have hDrop : Reach s (s.onCx c fun x => { x with guard := none, heldLo := none }) := .of_kept (onCx_kept _ _ _)
  refine hDrop.trans ?_
  dsimp only
  refine .ite (.ite (.of_kept (onCx_kept _ _ _)) (.refl _)) (.ite (.ite (complement_reach _ _ _ _ _) (.refl _)) ?_)
  split
  · exact .ite (.of_kept (writeRow_kept _ _ _ _ _ _ _ _)) (.refl _)
  · exact .refl _

theorem busWrite_reach (s : State) (c a : Nat) (v : Word) : Reach s (s.busWrite c a v) := busWriteAt_reach s c a v s.raw

theorem busWrites_reach (s : State) (c : Nat) (l : List (Nat × Word)) : Reach s (s.busWrites c l) :=
  Reach.foldl (fun t (x : Nat × Word) => t.busWriteAt c x.1 x.2 (s.cx c).cmdAt) (fun t x => busWriteAt_reach t c x.1 x.2 _) l s

theorem event_reach {s : State} {f : State → State} (h : Reach s (f s)) : Reach s (s.event f) := .ite h (.refl s)

theorem onBus_stays {c : Nat} {s : State} {f : State → State} (h : ∀ t, Reach t (f t)) : OutStays s (onBus c s f) := by
  unfold onBus onUnit
  split
  · exact next_stays (event_reach (h s)).stays
  · exact outKept_stays (fault_keeps _)

theorem execRegWrite_stays (h : CmdHdr) (writes : List (Nat × Word)) (s : State) : OutStays s (execRegWrite h writes s) := by
  unfold execRegWrite State.cmd
  split
  · refine next_stays (Reach.stays ?_)
    unfold State.command
    refine .ite (.refl s) ?_
    dsimp only
    have hRecv : Reach s (s.receive h 0x0902) := .of_kept (receive_kept _ _ _)
    split
    · exact hRecv.trans (.of_kept (reply_kept _ _ _ _ _ _ _))
    · exact hRecv.trans (.ite (.of_kept (reply_kept _ _ _ _ _ _ _))
        ((busWrites_reach _ _ _).trans (.of_kept (answerOk_kept _ _ _ _))))
  · exact outKept_stays (fault_keeps _)

/-! Power, resets and freezes (R240, R386 to R388, R404, R407). -/

theorem execRstNAssert_stays (ns : Nat) (s : State) : OutStays s (execRstNAssert ns s) := by
  refine next_stays (.ite (.refl s) ?_)
  split
  · exact Reach.stays (.inr (moduleReset_kept s 1))
  · exact Reach.stays (.inr (freezeExit_kept s))
  · exact .refl s

theorem execPowerUp_stays (a b : Nat) (s : State) : OutStays s (execPowerUp a b s) :=
  next_stays (.ite (.inr ⟨rfl, rfl, .inl rfl⟩) (.refl s))

theorem execLossOfPower_stays (s : State) : OutStays s (execLossOfPower s) :=
  next_stays (.ite (.refl s) (.inr (powerLost_restarted s)))

theorem execResetHoldEnd_stays (straps : BitVec 4) (s : State) : OutStays s (execResetHoldEnd straps s) :=
  next_stays (.ite (.inl ⟨rfl, rfl⟩) (.refl s))

theorem execFreezeEnter_stays (s : State) : OutStays s (execFreezeEnter s) := by
  refine next_stays (.ite ?_ (.refl s))
  dsimp only
  split
  · exact .refl s
  · exact .ite (.inl ⟨rfl, rfl⟩) (.refl s)

theorem execThermalStop_stays (i : Nat) (s : State) : OutStays s (execThermalStop i s) := by
  unfold execThermalStop onUnit
  split
  · exact next_stays (.ite (.inl ⟨rfl, rfl⟩) (.refl s))
  · exact outKept_stays (fault_keeps _)

theorem execFeedFailover_stays (regulates : Bool) (s : State) : OutStays s (execFeedFailover regulates s) :=
  next_stays (.ite (.ite (.inl ⟨rfl, rfl⟩) (.inr (powerLost_restarted s))) (.refl s))

theorem execFeedHandoverComplete_stays (regulates : Bool) (s : State) : OutStays s (execFeedHandoverComplete regulates s) := by
  refine next_stays (.ite (.ite ?_ (.ite ?_ (.inr (powerLost_restarted s)))) (.refl s))
  · exact (Reach.of_kept (by simp)).stays
  · exact (Reach.of_kept (by simp)).stays

/-! Every command. -/

/-- The commands that give a role or write the process image. -/
def WritesRoleOrImage : Instr → Prop
  | .roleSet .. => True
  | .cycPiWrite .. => True
  | .piPayloadWrite .. => True
  | .piSeqWrite .. => True
  | .inboundFile => True
  | _ => False

/-- Every other command keeps the roles and the image, or leaves the module held or without power. -/
theorem exec_stays (s : State) : (i : Instr) → ¬ WritesRoleOrImage i → OutStays s (exec i s)
  | .portSet .., _ => outKept_stays (execPortSet_kept _ _ _ _ _)
  | .portHalterGet .., _ => outKept_stays (execPortHalterGet_kept _ _ _)
  | .portQualityGet .., _ => outKept_stays (execPortQualityGet_kept _ _ _)
  | .portFrameSet .., _ => outKept_stays (execPortFrameSet_kept _ _ _ _ _)
  | .portLineExpertSet .., _ => outKept_stays (execPortLineExpertSet_kept _ _ _ _ _ _ _)
  | .portEqExpertSet .., _ => outKept_stays (execPortEqExpertSet_kept _ _ _ _ _ _)
  | .swcQueueSet .., _ => outKept_stays (execSwcQueueSet_kept _ _ _ _)
  | .swcPcpSet .., _ => outKept_stays (execSwcPcpSet_kept _ _ _ _ _)
  | .swcSampleSet .., _ => outKept_stays (execSwcSampleSet_kept _ _ _ _ _)
  | .swcStatsGet .., _ => outKept_stays (execSwcStatsGet_kept _ _ _)
  | .swcQueueExpertSet .., _ => outKept_stays (execSwcQueueExpertSet_kept _ _ _ _ _ _ _ _ _ _)
  | .swcGlobalExpertSet .., _ => outKept_stays (execSwcGlobalExpertSet_kept _ _ _ _ _ _ _ _ _)
  | .swcArbExpertSet .., _ => outKept_stays (execSwcArbExpertSet_kept _ _ _ _)
  | .fdbInsert .., _ => outKept_stays (execFdbInsert_kept _ _ _)
  | .fdbDelete .., _ => outKept_stays (execFdbDelete_kept _ _ _ _)
  | .fdbLookup .., _ => outKept_stays (execFdbLookup_kept _ _ _ _)
  | .fdbFlush .., _ => outKept_stays (execFdbFlush_kept _ _ _ _ _)
  | .fdbBatch .., _ => outKept_stays (execFdbBatch_kept _ _ _)
  | .learnSet .., _ => outKept_stays (execLearnSet_kept _ _ _ _ _)
  | .fdbAgeSet .., _ => outKept_stays (execFdbAgeSet_kept _ _ _)
  | .learnRead .., _ => outKept_stays (execLearnRead_kept _ _ _)
  | .vlanSet .., _ => outKept_stays (execVlanSet_kept _ _ _ _ _)
  | .streamSet .., _ => outKept_stays (execStreamSet_kept _ _ _ _)
  | .streamDelete .., _ => outKept_stays (execStreamDelete_kept _ _ _)
  | .streamGet .., _ => outKept_stays (execStreamGet_kept _ _ _ _)
  | .protSet .., _ => outKept_stays (execProtSet_kept _ _ _ _ _ _ _ _)
  | .protGet .., _ => outKept_stays (execProtGet_kept _ _ _)
  | .protRevert .., _ => outKept_stays (execProtRevert_kept _ _ _)
  | .shadowWrite .., _ => outKept_stays (execShadowWrite_kept _ _ _ _ _)
  | .shadowCtrl .., _ => outKept_stays (execShadowCtrl_kept _ _ _ _)
  | .shadowLogGet .., _ => outKept_stays (execShadowLogGet_kept _ _ _)
  | .fdbRehash .., _ => outKept_stays (execFdbRehash_kept _ _ _)
  | .rehashWalkEnd, _ => outKept_stays (execRehashWalkEnd_kept _)
  | .timeGet .., _ => outKept_stays (execTimeGet_kept _ _)
  | .timeDomSet .., _ => outKept_stays (execTimeDomSet_kept _ _ _ _ _)
  | .timeConvert .., _ => outKept_stays (execTimeConvert_kept _ _ _)
  | .timePortSet .., _ => outKept_stays (execTimePortSet_kept _ _ _ _ _ _ _ _ _)
  | .timePortGet .., _ => outKept_stays (execTimePortGet_kept _ _ _)
  | .timeSwitch .., _ => outKept_stays (execTimeSwitch_kept _ _ _)
  | .timeSwitchCancel .., _ => outKept_stays (execTimeSwitchCancel_kept _ _)
  | .timeDomReset .., _ => outKept_stays (execTimeDomReset_kept _ _ _)
  | .timeExpertSet .., _ => outKept_stays (execTimeExpertSet_kept _ _ _ _ _ _ _ _ _)
  | .timeSwitchForce .., _ => outKept_stays (execTimeSwitchForce_kept _ _ _)
  | .timeEpochReset .., _ => outKept_stays (execTimeEpochReset_kept _ _)
  | .timeLinkSet .., _ => outKept_stays (execTimeLinkSet_kept _ _ _ _ _ _)
  | .timeLinkGet .., _ => outKept_stays (execTimeLinkGet_kept _ _ _)
  | .timeGmSet .., _ => outKept_stays (execTimeGmSet_kept _ _ _ _ _ _ _ _ _ _ _ _)
  | .timeLinkExpertSet .., _ => outKept_stays (execTimeLinkExpertSet_kept _ _ _ _ _ _)
  | .clkRefSet .., _ => outKept_stays (execClkRefSet_kept _ _ _ _ _ _)
  | .clkSelect .., _ => outKept_stays (execClkSelect_kept _ _ _ _)
  | .clkStatusGet .., _ => outKept_stays (execClkStatusGet_kept _ _)
  | .clkSwitchSet .., _ => outKept_stays (execClkSwitchSet_kept _ _ _ _ _)
  | .clkDpllExpertSet .., _ => outKept_stays (execClkDpllExpertSet_kept _ _ _ _)
  | .clkSynExpertSet .., _ => outKept_stays (execClkSynExpertSet_kept _ _ _ _ _)
  | .tioClaim .., _ => outKept_stays (execTioClaim_kept _ _ _ _ _ _ _)
  | .tioRelease .., _ => outKept_stays (execTioRelease_kept _ _ _)
  | .tioStatusGet .., _ => outKept_stays (execTioStatusGet_kept _ _)
  | .iuAlloc .., _ => outKept_stays (execIuAlloc_kept _ _)
  | .iuFree .., _ => outKept_stays (execIuFree_kept _ _ _)
  | .iuSet .., _ => outKept_stays (execIuSet_kept _ _ _ _ _)
  | .iuArm .., _ => outKept_stays (execIuArm_kept _ _ _)
  | .iuRead .., _ => outKept_stays (execIuRead_kept _ _ _ _)
  | .iuCalibrate .., _ => outKept_stays (execIuCalibrate_kept _ _ _)
  | .iuCalibrationEnd .., _ => outKept_stays (execIuCalibrationEnd_kept _ _ _ _ _)
  | .tgAlloc .., _ => outKept_stays (execTgAlloc_kept _ _)
  | .tgFree .., _ => outKept_stays (execTgFree_kept _ _ _)
  | .tgArm .., _ => outKept_stays (execTgArm_kept _ _ _ _ _ _ _ _ _ _)
  | .tgDisarm .., _ => outKept_stays (execTgDisarm_kept _ _ _)
  | .tgStatusGet .., _ => outKept_stays (execTgStatusGet_kept _ _ _)
  | .tgExpertSet .., _ => outKept_stays (execTgExpertSet_kept _ _ _ _ _ _ _ _ _)
  | .cycStartSet .., _ => outKept_stays (execCycStartSet_kept _ _ _ _)
  | .cycTableSet .., _ => outKept_stays (execCycTableSet_kept _ _ _ _)
  | .cycOslotSet .., _ => outKept_stays (execCycOslotSet_kept _ _ _ _ _)
  | .cycIslotSet .., _ => outKept_stays (execCycIslotSet_kept _ _ _ _)
  | .cycStageGet .., _ => outKept_stays (execCycStageGet_kept _ _)
  | .cycStatusGet .., _ => outKept_stays (execCycStatusGet_kept _ _)
  | .cycPeriodStage .., _ => outKept_stays (execCycPeriodStage_kept _ _ _)
  | .cycPiWrite .., h => absurd trivial h
  | .cycPiRead .., _ => outKept_stays (execCycPiRead_kept _ _ _ _ _ _)
  | .cycleCommit .., _ => outKept_stays (execCycleCommit_kept _ _ _ _ _ _)
  | .cycleCancel .., _ => outKept_stays (execCycleCancel_kept _ _)
  | .cycDiscard .., _ => outKept_stays (execCycDiscard_kept _ _ _)
  | .cycleCommitForce .., _ => outKept_stays (execCycleCommitForce_kept _ _ _ _ _)
  | .commitMismatchCheck, _ => outKept_stays (execCommitMismatchCheck_kept _)
  | .sysGet .., _ => outKept_stays (execSysGet_kept _ _)
  | .sensorGet .., _ => outKept_stays (execSensorGet_kept _ _)
  | .updateBegin .., _ => outKept_stays (execUpdateBegin_kept _ _ _)
  | .updateEraseDone, _ => outKept_stays (execUpdateEraseDone_kept _)
  | .updateData .., _ => outKept_stays (execUpdateData_kept _ _ _ _)
  | .updateCommit .., _ => outKept_stays (execUpdateCommit_kept _ _ _)
  | .updateVerifyDone .., _ => outKept_stays (execUpdateVerifyDone_kept _ _)
  | .updateAbort .., _ => outKept_stays (execUpdateAbort_kept _ _)
  | .updateStatusGet .., _ => outKept_stays (execUpdateStatusGet_kept _ _)
  | .cfgSave .., _ => outKept_stays (execCfgSave_kept _ _)
  | .cfgBoardSet .., _ => outKept_stays (execCfgBoardSet_kept _ _ _)
  | .cfgFactory .., _ => outKept_stays (execCfgFactory_kept _ _)
  | .storeStatusGet .., _ => outKept_stays (execStoreStatusGet_kept _ _)
  | .logRead .., _ => outKept_stays (execLogRead_kept _ _ _ _)
  | .logSet .., _ => outKept_stays (execLogSet_kept _ _ _)
  | .feedForce .., _ => outKept_stays (execFeedForce_kept _ _ _)
  | .storeWriteDone, _ => outKept_stays (execStoreWriteDone_kept _)
  | .regRead .., _ => outKept_stays (execRegRead_kept _ _ _ _)
  | .regWrite .., _ => execRegWrite_stays _ _ _
  | .evtGet .., _ => outKept_stays (execEvtGet_kept _ _)
  | .evtClear .., _ => outKept_stays (execEvtClear_kept _ _ _)
  | .evtMaskSet .., _ => outKept_stays (execEvtMaskSet_kept _ _ _ _)
  | .evtRouteSet .., _ => outKept_stays (execEvtRouteSet_kept _ _ _ _)
  | .freeze .., _ => outKept_stays (execFreeze_kept _ _)
  | .ctxNop .., _ => outKept_stays (execCtxNop_kept _ _)
  | .levelSet .., _ => outKept_stays (execLevelSet_kept _ _ _ _)
  | .roleSet .., h => absurd trivial h
  | .ctxGet .., _ => outKept_stays (execCtxGet_kept _ _ _)
  | .ctxBind .., _ => outKept_stays (execCtxBind_kept _ _ _ _ _ _ _)
  | .ctxKeySet .., _ => outKept_stays (execCtxKeySet_kept _ _ _ _)
  | .ctxReset .., _ => outKept_stays (execCtxReset_kept _ _ _)
  | .reinTake .., _ => outKept_stays (execReinTake_kept _ _ _ _)
  | .reinDrop .., _ => outKept_stays (execReinDrop_kept _ _ _)
  | .reinGet .., _ => outKept_stays (execReinGet_kept _ _)
  | .ownSet .., _ => outKept_stays (execOwnSet_kept _ _ _ _ _ _)
  | .ownGet .., _ => outKept_stays (execOwnGet_kept _ _ _ _ _)
  | .reinBreak .., _ => outKept_stays (execReinBreak_kept _ _ _)
  | .leaseExpiry, _ => outKept_stays (execLeaseExpiry_kept _)
  | .hcxDoorbell .., _ => outKept_stays (execHcxDoorbell_kept _ _ _)
  | .sqEntryRead .., _ => outKept_stays (execSqEntryRead_kept _ _ _)
  | .cqSlotFreed .., _ => outKept_stays (execCqSlotFreed_kept _ _ _)
  | .queueDmaError .., _ => outKept_stays (execQueueDmaError_kept _ _ _)
  | .spiWrite .., _ => outKept_stays (execSpiWrite_kept _ _ _)
  | .spiRead .., _ => outKept_stays (execSpiRead_kept _ _ _)
  | .spiStatus .., _ => outKept_stays (execSpiStatus_kept _ _)
  | .spiReset .., _ => outKept_stays (execSpiReset_kept _ _ _)
  | .spiVoidTransaction .., _ => outKept_stays (execSpiVoidTransaction_kept _ _)
  | .inBandCommandFrame .., _ => outKept_stays (execInBandCommandFrame_kept _ _ _)
  | .eventFrameRepeat .., _ => outKept_stays (execEventFrameRepeat_kept _ _)
  | .pcieFlr .., _ => outKept_stays (execPcieFlr_kept _ _)
  | .pcieLinkLoss, _ => outKept_stays (execPcieLinkLoss_kept _)
  | .perstNAssert, _ => outKept_stays (execPerstNAssert_kept _)
  | .rstNAssert .., _ => execRstNAssert_stays _ _
  | .sysResetModuleReset .., _ => onBus_stays fun t => busWrite_reach t _ _ _
  | .sysResetFirmwareRestart .., _ => onBus_stays fun t => busWrite_reach t _ _ _
  | .watchdogRestart, _ => outKept_stays (execWatchdogRestart_kept _)
  | .powerUp .., _ => execPowerUp_stays _ _ _
  | .lossOfPower, _ => execLossOfPower_stays _
  | .resetHoldEnd .., _ => execResetHoldEnd_stays _ _
  | .boot .., _ => outKept_stays (execBoot_kept _ _ _)
  | .firmwareReady, _ => outKept_stays (execFirmwareReady_kept _)
  | .bootConfirm, _ => outKept_stays (execBootConfirm_kept _)
  | .frzNAssert .., _ => outKept_stays (execFrzNAssert_kept _ _)
  | .freezeEnter, _ => execFreezeEnter_stays _
  | .thermalStop .., _ => execThermalStop_stays _ _
  | .dgFirstWrite .., _ => onBus_stays fun t => Reach.ite (busWrite_reach t _ _ _) (.refl t)
  | .dgPairTimeout .., _ => outKept_stays (execDgPairTimeout_kept _ _)
  | .sysFreezeEnWrite .., _ => onBus_stays fun t => busWrite_reach t _ _ _
  | .sysTapUnlock .., _ => onBus_stays fun t => busWrite_reach t _ _ _
  | .sysTapLock .., _ => onBus_stays fun t => busWrite_reach t _ _ _
  | .tsuEpochReset .., _ => onBus_stays fun t => busWrite_reach t _ _ _
  | .mgtFeedForce .., _ => onBus_stays fun t => busWrite_reach t _ _ _
  | .mgtLaserOvr .., _ => onBus_stays fun t => busWrite_reach t _ _ _
  | .memStoreErase .., _ => onBus_stays fun t => busWrite_reach t _ _ _
  | .regWriteGeneric .., _ => onBus_stays fun t => Reach.ite (busWrite_reach t _ _ _) (.of_kept rfl)
  | .pairLoRead .., _ => outKept_stays (execPairLoRead_kept _ _ _)
  | .pairLoWrite .., _ => onBus_stays fun t => busWrite_reach t _ _ _
  | .tsuRawLoRead .., _ => outKept_stays (execTsuRawLoRead_kept _ _)
  | .tsuGenRead .., _ => outKept_stays (execTsuGenRead_kept _ _ _)
  | .ftRawLoRead .., _ => outKept_stays (execFtRawLoRead_kept _ _)
  | .ftGenRead .., _ => outKept_stays (execFtGenRead_kept _ _ _)
  | .portHalterRx0Read .., _ => outKept_stays (execPortHalterRx0Read_kept _ _ _)
  | .pmcChainRead .., _ => outKept_stays (execPmcChainRead_kept _ _ _)
  | .tblLrnPop .., _ => outKept_stays (execTblLrnPop_kept _ _ _)
  | .iuResPop .., _ => outKept_stays (execIuResPop_kept _ _ _)
  | .tblRdSel .., _ => onBus_stays fun t => busWrite_reach t _ _ _
  | .cycRdSel .., _ => onBus_stays fun t => busWrite_reach t _ _ _
  | .portCommit .., _ => onBus_stays fun t => Reach.onUnitS (busWrite_reach t _ _ _)
  | .swcCommit .., _ => onBus_stays fun t => busWrite_reach t _ _ _
  | .arbCommit .., _ => onBus_stays fun t => busWrite_reach t _ _ _
  | .arbCommitApply, _ => outKept_stays (execArbCommitApply_kept _)
  | .portEnableWrite .., _ => onBus_stays fun t => Reach.onUnitS (busWrite_reach t _ _ _)
  | .portCapAdvWrite .., _ => onBus_stays fun t => Reach.onUnitS (busWrite_reach t _ _ _)
  | .clkSynCfgWrite .., _ => onBus_stays fun t => Reach.onUnitS (busWrite_reach t _ _ _)
  | .swcSampleWrite .., _ => onBus_stays fun t => Reach.onUnitS (busWrite_reach t _ _ _)
  | .hcxRingTailWrite .., _ => outKept_stays (execHcxRingTailWrite_kept _ _ _ _ _)
  | .txRingTimeout .., _ => outKept_stays (execTxRingTimeout_kept _ _ _)
  | .ringDmaError .., _ => outKept_stays (execRingDmaError_kept _ _ _)
  | .txTimestampWriteback .., _ => outKept_stays (execTxTimestampWriteback_kept _ _ _)
  | .evtRearmWrite .., _ => onBus_stays fun t => busWrite_reach t _ _ _
  | .eventHoldoffExpiry .., _ => outKept_stays (execEventHoldoffExpiry_kept _ _)
  | .logSuppressReport, _ => outKept_stays (execLogSuppressReport_kept _)
  | .savedStateHourlyWrite, _ => outKept_stays (execSavedStateHourlyWrite_kept _)
  | .tgCtrlArmWrite .., _ => onBus_stays fun t => Reach.onUnitS (busWrite_reach t _ _ _)
  | .tgCtrlDisarmWrite .., _ => onBus_stays fun t => Reach.onUnitS (busWrite_reach t _ _ _)
  | .iuCtrlArm .., _ => onBus_stays fun t => Reach.onUnitS (busWrite_reach t _ _ _)
  | .iuCtrlDisarm .., _ => onBus_stays fun t => Reach.onUnitS (busWrite_reach t _ _ _)
  | .iuCtrlFlush .., _ => onBus_stays fun t => Reach.onUnitS (busWrite_reach t _ _ _)
  | .pmcSelWrite .., _ => onBus_stays fun t => Reach.onUnitS (busWrite_reach t _ _ _)
  | .piPayloadWrite .., h => absurd trivial h
  | .piSeqWrite .., h => absurd trivial h
  | .tapExtest, _ => outKept_stays (execTapExtest_kept _)
  | .tapIdcode, _ => outKept_stays (execTapIdcode_kept _)
  | .tapSamplePreload, _ => outKept_stays (execTapSamplePreload_kept _)
  | .tapWaferRead .., _ => outKept_stays (execTapWaferRead_kept _ _)
  | .tapMemAddr .., _ => outKept_stays (execTapMemAddr_kept _ _)
  | .tapMemRead .., _ => outKept_stays (execTapMemRead_kept _ _)
  | .tapFrzStatus, _ => outKept_stays (execTapFrzStatus_kept _)
  | .tapBypass, _ => outKept_stays (execTapBypass_kept _)
  | .feedFailover .., _ => execFeedFailover_stays _ _
  | .feedHandoverComplete .., _ => execFeedHandoverComplete_stays _ _
  | .feedPresenceChange .., _ => outKept_stays (execFeedPresenceChange_kept _ _ _)
  | .feedLockout .., _ => outKept_stays (execFeedLockout_kept _ _)
  | .sensorRead .., _ => outKept_stays (execSensorRead_kept _ _)
  | .ovenReady, _ => outKept_stays (execOvenReady_kept _)
  | .ovenOor .., _ => outKept_stays (execOvenOor_kept _ _)
  | .ovenWarmFail, _ => outKept_stays (execOvenWarmFail_kept _)
  | .lossOfSignal .., _ => outKept_stays (execLossOfSignal_kept _ _)
  | .signalDetect .., _ => outKept_stays (execSignalDetect_kept _ _)
  | .receiverSettled .., _ => outKept_stays (execReceiverSettled_kept _ _)
  | .receiverSettleTimeout .., _ => outKept_stays (execReceiverSettleTimeout_kept _ _)
  | .markReceive .., _ => outKept_stays (execMarkReceive_kept _ _ _ _)
  | .missedMark .., _ => outKept_stays (execMissedMark_kept _ _)
  | .markSend .., _ => outKept_stays (execMarkSend_kept _ _)
  | .crumbDue .., _ => outKept_stays (execCrumbDue_kept _ _)
  | .crumbForced .., _ => outKept_stays (execCrumbForced_kept _ _)
  | .crumbDelete .., _ => outKept_stays (execCrumbDelete_kept _ _ _)
  | .crumbInsert .., _ => outKept_stays (execCrumbInsert_kept _ _ _)
  | .elasticOverrun .., _ => outKept_stays (execElasticOverrun_kept _ _ _)
  | .controlBeatDiscard .., _ => outKept_stays (execControlBeatDiscard_kept _ _ _ _)
  | .frameReceive .., _ => outKept_stays (execFrameReceive_kept _ _ _)
  | .fillCrumbAbort .., _ => outKept_stays (execFillCrumbAbort_kept _ _)
  | .preemptReceive .., _ => outKept_stays (execPreemptReceive_kept _ _ _)
  | .resumeReceive .., _ => outKept_stays (execResumeReceive_kept _ _)
  | .inboundFile, h => absurd trivial h
  | .cellSlot, _ => outKept_stays (execCellSlot_kept _)
  | .headSweep, _ => outKept_stays (execHeadSweep_kept _)
  | .dramReturn .., _ => outKept_stays (execDramReturn_kept _ _ _)
  | .overflowRecordWrite, _ => outKept_stays (execOverflowRecordWrite_kept _)
  | .dramSlotDraw .., _ => outKept_stays (execDramSlotDraw_kept _ _)
  | .dramReadyChange .., _ => outKept_stays (execDramReadyChange_kept _ _)
  | .bufferEccError .., _ => outKept_stays (execBufferEccError_kept _ _)
  | .reservedConnectionSetup .., _ => outKept_stays (execReservedConnectionSetup_kept _ _ _)
  | .gateEntryStart .., _ => outKept_stays (execGateEntryStart_kept _ _ _)
  | .gateEntryEnd .., _ => outKept_stays (execGateEntryEnd_kept _ _)
  | .frameTransmit .., _ => outKept_stays (execFrameTransmit_kept _ _ _ _ _)
  | .mPortTxAttempt .., _ => outKept_stays (execMPortTxAttempt_kept _ _ _)
  | .mPortCollision .., _ => outKept_stays (execMPortCollision_kept _ _ _)
  | .mPortBackoffExpiry .., _ => outKept_stays (execMPortBackoffExpiry_kept _ _)
  | .segmentFault .., _ => outKept_stays (execSegmentFault_kept _ _)
  | .segmentRetry .., _ => outKept_stays (execSegmentRetry_kept _ _ _)
  | .sgmiiInbandWord .., _ => outKept_stays (execSgmiiInbandWord_kept _ _ _ _)
  | .stdBlockLockChange .., _ => outKept_stays (execStdBlockLockChange_kept _ _ _)
  | .laserFault .., _ => outKept_stays (execLaserFault_kept _ _)
  | .qualityUpdate .., _ => outKept_stays (execQualityUpdate_kept _ _ _)
  | .halterSend .., _ => outKept_stays (execHalterSend_kept _ _)
  | .halterPeriodic .., _ => outKept_stays (execHalterPeriodic_kept _ _)
  | .halterReceive .., _ => outKept_stays (execHalterReceive_kept _ _ _)
  | .halterTimeout .., _ => outKept_stays (execHalterTimeout_kept _ _)
  | .messageDiscard .., _ => outKept_stays (execMessageDiscard_kept _ _ _)
  | .dozeEntry .., _ => outKept_stays (execDozeEntry_kept _ _)
  | .dozeReceive .., _ => outKept_stays (execDozeReceive_kept _ _)
  | .dozeWake .., _ => outKept_stays (execDozeWake_kept _ _)
  | .trainAlignment .., _ => outKept_stays (execTrainAlignment_kept _ _ _)
  | .timeReqSend .., _ => outKept_stays (execTimeReqSend_kept _ _ _)
  | .timeReqReceive .., _ => outKept_stays (execTimeReqReceive_kept _ _ _ _ _)
  | .timeRespReceive .., _ => outKept_stays (execTimeRespReceive_kept _ _ _ _)
  | .exchangeLost .., _ => outKept_stays (execExchangeLost_kept _ _)
  | .infoSend .., _ => outKept_stays (execInfoSend_kept _ _ _)
  | .infoReceive .., _ => outKept_stays (execInfoReceive_kept _ _ _)
  | .infoVoid .., _ => outKept_stays (execInfoVoid_kept _ _ _)
  | .upstreamSelect .., _ => outKept_stays (execUpstreamSelect_kept _ _)
  | .upstreamChange .., _ => outKept_stays (execUpstreamChange_kept _ _)
  | .firstLockTimeout .., _ => outKept_stays (execFirstLockTimeout_kept _ _)
  | .traceHoldExpiry .., _ => outKept_stays (execTraceHoldExpiry_kept _ _)
  | .vernierFitLoss .., _ => outKept_stays (execVernierFitLoss_kept _ _)
  | .ppsAlignMeasure .., _ => outKept_stays (execPpsAlignMeasure_kept _ _ _)
  | .timeSwitchStart, _ => outKept_stays (execTimeSwitchStart_kept _)
  | .slewEnd, _ => outKept_stays (execSlewEnd_kept _)
  | .targetReconvert, _ => outKept_stays (execTargetReconvert_kept _)
  | .ptpMessageReceive .., _ => outKept_stays (execPtpMessageReceive_kept _ _ _)
  | .ptpIntervalSend .., _ => outKept_stays (execPtpIntervalSend_kept _ _ _ _)
  | .ptpAnnounceSend .., _ => outKept_stays (execPtpAnnounceSend_kept _ _ _)
  | .announceReceiptTimeout .., _ => outKept_stays (execAnnounceReceiptTimeout_kept _ _)
  | .dpllComparison .., _ => outKept_stays (execDpllComparison_kept _ _ _)
  | .referenceQualification .., _ => outKept_stays (execReferenceQualification_kept _ _)
  | .referenceLost .., _ => outKept_stays (execReferenceLost_kept _ _)
  | .autoDecision, _ => outKept_stays (execAutoDecision_kept _)
  | .rselChange .., _ => outKept_stays (execRselChange_kept _ _)
  | .referenceSwitchDone .., _ => outKept_stays (execReferenceSwitchDone_kept _ _)
  | .synthLock .., _ => outKept_stays (execSynthLock_kept _ _ _ _)
  | .synthLockRetry .., _ => outKept_stays (execSynthLockRetry_kept _ _)
  | .lineSynthUnlock .., _ => outKept_stays (execLineSynthUnlock_kept _ _)
  | .coreSynthUnlock, _ => outKept_stays (execCoreSynthUnlock_kept _)
  | .dramSynthUnlock, _ => outKept_stays (execDramSynthUnlock_kept _)
  | .protSwitch .., _ => outKept_stays (execProtSwitch_kept _ _)
  | .protWtrReturn .., _ => outKept_stays (execProtWtrReturn_kept _ _)
  | .ageScanVisit .., _ => outKept_stays (execAgeScanVisit_kept _ _)
  | .learnFilterExpiry, _ => outKept_stays (execLearnFilterExpiry_kept _)
  | .shadowCompareUnit, _ => outKept_stays (execShadowCompareUnit_kept _)
  | .tableEccError .., _ => outKept_stays (execTableEccError_kept _ _)
  | .tgFire .., _ => outKept_stays (execTgFire_kept _ _)
  | .tgPulseEnd .., _ => outKept_stays (execTgPulseEnd_kept _ _)
  | .cycGenAutoArm, _ => outKept_stays (execCycGenAutoArm_kept _)
  | .cycleStart, _ => outKept_stays (execCycleStart_kept _)
  | .launchCapture .., _ => outKept_stays (execLaunchCapture_kept _ _)
  | .launch .., _ => outKept_stays (execLaunch_kept _ _ _)
  | .iuStartEdge .., _ => outKept_stays (execIuStartEdge_kept _ _ _ _)
  | .iuStopEdge .., _ => outKept_stays (execIuStopEdge_kept _ _ _ _)
  | .iuGateEdge .., _ => outKept_stays (execIuGateEdge_kept _ _ _)
  | .iuConversionDone .., _ => outKept_stays (execIuConversionDone_kept _ _)
  | .iuDeadTimeEnd .., _ => outKept_stays (execIuDeadTimeEnd_kept _ _)
  | .iuWindowExpiry .., _ => outKept_stays (execIuWindowExpiry_kept _ _)
  | .iuStopOverflow .., _ => outKept_stays (execIuStopOverflow_kept _ _)
  | .pmuCounterWrap .., _ => outKept_stays (execPmuCounterWrap_kept _ _)
  | .fixedCounterWrap .., _ => outKept_stays (execFixedCounterWrap_kept _ _)
  | .firmwareStop, _ => outKept_stays (execFirmwareStop_kept _)
  | .mPortEntersUp .., _ => outKept_stays (execMPortEntersUp_kept _ _)
  | .feedLockoutEnd .., _ => outKept_stays (execFeedLockoutEnd_kept _ _)
  | .fineValidReturn .., _ => outKept_stays (execFineValidReturn_kept _ _)

/-! The four commands that write the image (R180, R182, R183, R189). -/

/-- Roles stand, and a canonical image stays canonical. -/
def Stores (s t : State) : Prop := t.roles = s.roles ∧ (Memory.wf s.cyc.image = true → Memory.wf t.cyc.image = true)

namespace Stores

variable {s t u : State}

theorem refl (s : State) : Stores s s := ⟨rfl, id⟩

theorem trans (h : Stores s t) (k : Stores t u) : Stores s u := ⟨k.1.trans h.1, k.2 ∘ h.2⟩

theorem of_kept (h : t.kept = s.kept) : Stores s t := ⟨kept_roles h, fun hw => by rwa [kept_image h]⟩

theorem ite {b : Prop} [Decidable b] (h : Stores s t) (k : Stores s u) : Stores s (if b then t else u) := by
  split
  · exact h
  · exact k

theorem piWrite (s : State) (bank off : Nat) (b : List Byte) : Stores s (s.piWrite bank off b) := ⟨rfl, Memory.wf_writeAll _ b⟩

end Stores

theorem piStore_stores (s : State) (c off : Nat) (v : Word) : Stores s (s.piStore c off v) := by
  have hStored : ∀ n f, Stores s ((s.piWrite (s.oslot n).wbank off (leBytes 4 v.toNat)).onOslot n f) := fun n f =>
    (Stores.piWrite s _ _ _).trans (.of_kept (onOslot_kept _ _ _))
  unfold State.piStore
  refine .ite (.refl s) (.ite (.ite (hStored _ _) (.refl s)) (.ite (.refl s) ?_))
  split
  · exact .ite (hStored _ _) (.refl s)
  · exact .refl s

/-- A frame filed changes the image in the payload area of its slot alone (R189). -/
theorem fileFrame_image (s : State) (f : Frm) :
    (s.fileFrame f).cyc.image = s.cyc.image ∨
      (s.fileFrame f).cyc.image = Memory.writeAll s.cyc.image
        (s.cyc.fill * piWindow + (payBase + (s.cyc.act.i (s.stream f.stream).slot).poff))
        (slice f.bytes (s.cyc.act.i (s.stream f.stream).slot).inOff (s.cyc.act.i (s.stream f.stream).slot).size) := by
  have hCount : ∀ (t : State) a n, (t.count a n).cyc.image = t.cyc.image := fun t a n => kept_image (count_kept t a n)
  have hStatus : ∀ b n g a k j, (((s.onIslot b n g).count a k).raise j).cyc.image = s.cyc.image := fun b n g a k j => by
    rw [kept_image (raise_kept _ _), hCount]
    rfl
  unfold State.fileFrame
  dsimp only
  by_cases hRun : (!s.running) = true
  · exact .inl (by rw [if_pos hRun])
  by_cases hSlot : (!(s.cyc.act.i (s.stream f.stream).slot).valid) = true ∨ (s.gateEnt 31 (s.stream f.stream).window).duration = 0
  · exact .inl (by rw [if_neg hRun, if_pos hSlot, kept_image (countT_kept _ _)])
  rw [if_neg hRun, if_neg hSlot]
  split
  · exact .inl (hStatus _ _ _ _ _ _)
  split
  · exact .inl (hStatus _ _ _ _ _ _)
  split
  · exact .inl (hStatus _ _ _ _ _ _)
  refine .inr ?_
  rw [kept_image (perf_kept _ _), hCount]
  split
  · exact hCount _ _ _
  · rfl

end Sys2Proof.Machine
end

section
/-! R15, R180, R189, R336, R337: the invariants over a step, and who changes a role or a byte of the image. -/

namespace Sys2Proof.Machine

open Host

/-- What a command that is refused or done leaves: what the invariants read, as before; or, where its checks pass, as its own rules
leave it. -/
theorem cmd_kept_or_done {s t : State} {h : CmdHdr} {op : Nat} {need : State → Need} {body : State → CmdEnd}
    (hb : ∀ r, (∃ st ps, body r = .refuse st ps) ∨ ∃ ps u, body r = .done ps u) (ht : s.cmd h op need body = .next t) :
    t.kept = s.kept ∨ (s.receive h op).check h op (need (s.receive h op)) = none ∧
      ∃ ps u, body (s.receive h op) = .done ps u ∧ t.kept = u.kept := by
  have hrecv := receive_kept s h op
  have href : ∀ st ps, ((s.receive h op).reply h.ctx op h.tag st ps false).kept = s.kept := fun st ps => by rw [reply_kept, hrecv]
  unfold State.cmd at ht
  split at ht
  · obtain rfl := (Outcome.next.inj ht).symm
    unfold State.command
    dsimp only
    split
    · exact .inl rfl
    split
    · exact .inl (href _ _)
    next hcheck =>
    split
    · exact .inl (href _ _)
    rcases hb (s.receive h op) with ⟨st, ps, e⟩ | ⟨ps, u, e⟩ <;> rw [e]
    · exact .inl (href _ _)
    · exact .inr ⟨hcheck, ps, u, rfl, answerOk_kept _ _ _ _⟩
  · cases ht

/-- A command whose checks pass has the role it needs, names what exists, and its fields are in range (R333, R336). -/
theorem check_none {s : State} {h : CmdHdr} {op : Nat} {n : Need} (hc : s.check h op n = none) :
    (s.role h.ctx).may n.role = true ∧ n.gone = none ∧ n.bad = none := by
  unfold State.check at hc
  dsimp only at hc
  split at hc
  · cases hc
  split at hc
  · cases hc
  next hRole =>
  split at hc
  · cases hc
  next hGone =>
  split at hc
  · cases hc
  split at hc
  · cases hc
  split at hc
  · cases hc
  exact ⟨by simpa using hRole, hGone, Option.map_eq_none_iff.mp hc⟩

theorem execCycPiWrite_stores {s t : State} {h : CmdHdr} {slot offset : Nat} {data : List Byte} {seq : Word}
    (ht : execCycPiWrite h slot offset data seq s = .next t) : Stores s t := by
  rcases cmd_kept_or_done (fun _ => .inr ⟨_, _, rfl⟩) ht with hk | ⟨-, ps, u, hb, hk⟩
  · exact .of_kept hk
  · cases hb
    exact (Stores.of_kept (receive_kept s h 0x0708)).trans ((Stores.piWrite _ _ _ _).trans ((Stores.piWrite _ _ _ _).trans
      ((Stores.of_kept (onOslot_kept _ _ _)).trans (.of_kept hk))))

theorem onBus_stores {c : Nat} {s t : State} {f : State → State} (ht : onBus c s f = .next t) (hf : Stores s (f s)) : Stores s t := by
  unfold onBus onUnit at ht
  split at ht
  · cases ht
    exact .ite hf (.refl s)
  · cases ht

theorem execPiPayloadWrite_stores {s t : State} {c offset : Nat} {data : List Word}
    (ht : execPiPayloadWrite c offset data s = .next t) : Stores s t :=
  onBus_stores ht (.ite (.refl s) ((List.range data.length).foldlRecOn _ (motive := Stores s) (.refl s) fun _ hu _ _ =>
    hu.trans (piStore_stores _ _ _ _)))

theorem execPiSeqWrite_stores {s t : State} {c slot : Nat} {value : Word} (ht : execPiSeqWrite c slot value s = .next t) :
    Stores s t :=
  onBus_stores ht (.ite (.refl s) (.ite (piStore_stores _ _ _ _) (.refl s)))

theorem fileFrame_roles (s : State) (f : Frm) : (s.fileFrame f).roles = s.roles := by
  have hCount : ∀ (t : State) a n, (t.count a n).roles = t.roles := fun t a n => kept_roles (count_kept t a n)
  have hRaise : ∀ (t : State) n, (t.raise n).roles = t.roles := fun t n => kept_roles (raise_kept t n)
  have hPerf : ∀ (t : State) n, (t.perf n).roles = t.roles := fun t n => kept_roles (perf_kept t n)
  unfold State.fileFrame
  dsimp only
  simp only [apply_ite State.roles, hCount, hRaise, hPerf, kept_roles (countT_kept _ _), State.piWrite, State.onIslot, State.onCyc_roles,
    ite_self]

/-- INBOUND_FILE on a block that is up with a frame at the front of the queue (R189). -/
theorem inboundFile_eq {s : State} {x : Copy} {rest : List Copy} {f : Frm} (hup : s.life = .up) (hx : s.sw.cycIn = x :: rest)
    (hf : s.sw.frame x.id = some f) :
    execInboundFile s = .next (((s.onSw fun y => { y with cycIn := rest }).fileFrame f).dropCopy 255 x) := by
  unfold execInboundFile
  rw [event_of_up hup, hx]
  dsimp only
  rw [State.onSw_sw]
  change Outcome.next (match s.sw.frame x.id with | none => _ | some f => _) = _
  rw [hf]

/-- INBOUND_FILE keeps roles and image, or files the frame at the front of the queue (R189). -/
theorem execInboundFile_cases {s t : State} (ht : execInboundFile s = .next t) :
    t.kept = s.kept ∨ ∃ x rest f, s.sw.cycIn = x :: rest ∧ s.sw.frame x.id = some f ∧
      t = (((s.onSw fun y => { y with cycIn := rest }).fileFrame f).dropCopy 255 x) := by
  by_cases hup : s.life = .up
  · cases hx : s.sw.cycIn with
    | nil =>
      refine .inl ?_
      unfold execInboundFile at ht
      rw [event_of_up hup, hx] at ht
      cases ht
      rfl
    | cons x rest =>
      cases hf : s.sw.frame x.id with
      | none =>
        refine .inl ?_
        unfold execInboundFile at ht
        rw [event_of_up hup, hx] at ht
        dsimp only at ht
        rw [State.onSw_sw] at ht
        change Outcome.next (match s.sw.frame x.id with | none => _ | some f => _) = _ at ht
        rw [hf] at ht
        cases ht
        rfl
      | some f =>
        rw [inboundFile_eq hup hx hf] at ht
        exact .inr ⟨x, rest, f, rfl, hf, (Outcome.next.inj ht).symm⟩
  · refine .inl ?_
    unfold execInboundFile at ht
    rw [event_of_not_up hup] at ht
    cases ht
    rfl

theorem execInboundFile_stores {s t : State} (ht : execInboundFile s = .next t) : Stores s t := by
  rcases execInboundFile_cases ht with hk | ⟨x, rest, f, -, -, rfl⟩
  · exact .of_kept hk
  · refine Stores.trans (t := (s.onSw fun y => { y with cycIn := rest }).fileFrame f) ⟨fileFrame_roles _ f, fun hw => ?_⟩
      (.of_kept (dropCopy_kept _ _ _))
    rcases fileFrame_image (s.onSw fun y => { y with cycIn := rest }) f with e | e <;> rw [e]
    · exact hw
    · exact Memory.wf_writeAll _ _ hw

/-! The invariants. -/

theorem inv_of_stays {s t : State} (h : Stays s t) (hs : Inv s) : Inv t := by
  rcases h with ⟨hRoles, hImage⟩ | ⟨hRoles, hImage, -⟩
  · rw [Inv, OnePrincipal, ImageWf] at *
    simp only [State.role, hRoles, hImage] at *
    exact hs
  · refine ⟨⟨0, by decide, fun d => ?_⟩, by rw [ImageWf, hImage]; rfl⟩
    rw [State.role, hRoles]
    change (if d = 0 then Role.principal else .observer) = .principal ↔ d = 0
    split <;> simp_all

theorem inv_of_stores {s t : State} (h : Stores s t) (hs : Inv s) : Inv t := by
  obtain ⟨⟨c, hc, huniq⟩, hw⟩ := hs
  refine ⟨⟨c, hc, fun d => ?_⟩, h.2 hw⟩
  rw [State.role, h.1]
  exact huniq d

/-- A context that is PRINCIPAL and gives `new` to another: there is one PRINCIPAL context again, the other where `new` is PRINCIPAL. -/
theorem onePrincipal_roleSetDone {s : State} {c target : Nat} (new : Role) (hs : OnePrincipal s) (hc : s.role c = .principal)
    (ht : target < 8) (hne : target ≠ c) : OnePrincipal (s.roleSetDone c target new) := by
  obtain ⟨e, he, huniq⟩ := hs
  obtain rfl := (huniq c).mp hc
  by_cases hnew : new = .principal
  · subst hnew
    refine ⟨target, ht, fun d => ?_⟩
    rw [roleSetDone_role]
    by_cases hdt : d = target
    · simp [hdt, hne]
    · by_cases hd : d = c <;> simp [hd, hdt, huniq, hne.symm]
  · refine ⟨c, he, fun d => ?_⟩
    rw [roleSetDone_role]
    by_cases hdt : d = target
    · simp [hdt, hnew, hne]
    · simp [hnew, hdt, huniq]

theorem roleSetDone_image (s : State) (c target : Nat) (new : Role) : (s.roleSetDone c target new).cyc.image = s.cyc.image := by
  rw [State.roleSetDone, kept_image (roleChange_kept _ _ _ _), kept_image (roleChange_kept _ _ _ _), State.giveRole]
  simp only [apply_ite (fun t : State => t.cyc.image), kept_image (breakReins_kept _ _), State.setRole_cyc, ite_self]

/-- ROLE_SET leaves what the invariants read, or is `State.roleSetDone` of another context than the caller's (R337). -/
theorem execRoleSet_cases {s t : State} {h : CmdHdr} {target role : Nat} (ht : execRoleSet h target role s = .next t) :
    t.kept = s.kept ∨ (s.receive h 0x0A02).role h.ctx = .principal ∧ target < 8 ∧ target ≠ h.ctx ∧
      t.kept = ((s.receive h 0x0A02).roleSetDone h.ctx target (roleOf role)).kept := by
  by_cases hself : target = h.ctx
  · rcases cmd_kept_or_done (fun _ => .inl ⟨_, _, if_pos hself⟩) ht with hk | ⟨-, ps, u, hbody, -⟩
    · exact .inl hk
    · rw [if_pos hself] at hbody
      cases hbody
  · rcases cmd_kept_or_done (fun _ => .inr ⟨_, _, if_neg hself⟩) ht with hk | ⟨hcheck, ps, u, hbody, hk⟩
    · exact .inl hk
    · obtain ⟨hMay, hGone, -⟩ := check_none hcheck
      rw [if_neg hself] at hbody
      cases hbody
      refine .inr ⟨?_, ?_, hself, hk⟩
      · cases hrole : (s.receive h 0x0A02).role h.ctx <;> simp [hrole, Role.may] at hMay ⊢
      · by_contra hno
        simp [firstBad, hno] at hGone

theorem execRoleSet_keeps_inv {s t : State} {h : CmdHdr} {target role : Nat} (hs : Inv s)
    (ht : execRoleSet h target role s = .next t) : Inv t := by
  rcases execRoleSet_cases ht with hk | ⟨hPrin, hTarget, hne, hk⟩
  · exact inv_of_stays (Reach.of_kept hk).stays hs
  · obtain ⟨hOne, hWf⟩ := inv_of_stays (Reach.of_kept (receive_kept s h 0x0A02)).stays hs
    refine inv_of_stays (Reach.of_kept hk).stays ⟨onePrincipal_roleSetDone _ hOne hPrin hTarget hne, ?_⟩
    rw [ImageWf, roleSetDone_image]
    exact hWf

/-- Every command keeps the invariants. -/
theorem exec_keeps_inv {i : Instr} {s t : State} (hs : Inv s) (ht : exec i s = .next t) : Inv t := by
  by_cases hi : WritesRoleOrImage i
  · cases i with
    | roleSet h target role => exact execRoleSet_keeps_inv hs ht
    | cycPiWrite h slot offset data seq => exact inv_of_stores (execCycPiWrite_stores ht) hs
    | piPayloadWrite c offset data => exact inv_of_stores (execPiPayloadWrite_stores ht) hs
    | piSeqWrite c slot value => exact inv_of_stores (execPiSeqWrite_stores ht) hs
    | inboundFile => exact inv_of_stores (execInboundFile_stores ht) hs
    | _ => exact hi.elim
  · exact inv_of_stays (exec_stays s i hi t ht) hs

/-- A command that neither gives a role nor writes the image, and leaves the module neither held nor without power, keeps both. -/
theorem exec_keeps_roles_image {i : Instr} {s t : State} (hi : ¬ WritesRoleOrImage i) (ht : exec i s = .next t) (hh : t.life ≠ .held)
    (hu : t.life ≠ .unpowered) : t.roles = s.roles ∧ ∀ a, Memory.read t.cyc.image a = Memory.read s.cyc.image a := by
  rcases exec_stays s i hi t ht with ⟨hRoles, hImage⟩ | ⟨-, -, hlife⟩
  · exact ⟨hRoles, fun a => by rw [hImage]⟩
  · exact absurd hlife (by simp [hh, hu])

/-- ROLE_SET leaves the image (R337). -/
theorem execRoleSet_image {s t : State} {h : CmdHdr} {target role : Nat} (ht : execRoleSet h target role s = .next t) :
    t.cyc.image = s.cyc.image := by
  rcases execRoleSet_cases ht with hk | ⟨-, -, -, hk⟩
  · exact kept_image hk
  · rw [kept_image hk, roleSetDone_image, kept_image (receive_kept _ _ _)]

/-- INBOUND_FILE leaves every byte outside the payload area of the slot that the frame's stream names, in the filling bank (R189). -/
theorem execInboundFile_image {s t : State} {x : Copy} {rest : List Copy} {f : Frm} {a : Nat}
    (ht : execInboundFile s = .next t) (hx : s.sw.cycIn = x :: rest) (hf : s.sw.frame x.id = some f)
    (ha : a < s.cyc.fill * piWindow + (payBase + (s.cyc.act.i (s.stream f.stream).slot).poff) ∨
      s.cyc.fill * piWindow + (payBase + (s.cyc.act.i (s.stream f.stream).slot).poff) + (s.cyc.act.i (s.stream f.stream).slot).size ≤ a) :
    Memory.read t.cyc.image a = Memory.read s.cyc.image a := by
  rcases execInboundFile_cases ht with hk | ⟨y, tail, g, hy, hg, rfl⟩
  · rw [kept_image hk]
  · obtain ⟨rfl, rfl⟩ := List.cons.inj (hy.symm.trans hx)
    obtain rfl := Option.some.inj (hg.symm.trans hf)
    rw [kept_image (dropCopy_kept _ _ _)]
    rcases fileFrame_image (s.onSw fun z => { z with cycIn := tail }) g with e | e <;> rw [e]
    · rfl
    · refine Memory.read_writeAll_of_outside ?_
      have hLen : ∀ i n, (slice g.bytes i n).length ≤ n := fun i n => by simp [slice]
      exact ha.imp id fun h => le_trans (Nat.add_le_add_left (hLen _ _) _) h

end Sys2Proof.Machine

open Sys2Proof Sys2Proof.Machine

/-- Settles O59: a step is the front command (`exec_keeps_inv`) or a tick, which keeps what the invariants read (`tick_kept`). -/
theorem stepKeepsInvariant : Obligations.StepKeepsInvariant := by
  unfold Obligations.StepKeepsInvariant
  intro s t hs ht
  cases hq : s.pending with
  | nil =>
    rw [(stepRunsTheFront s .tapBypass []).2 hq] at ht
    cases ht
    exact inv_of_stays (Reach.of_kept (tick_kept s)).stays hs
  | cons c rest =>
    rw [(stepRunsTheFront s c rest).1 hq] at ht
    exact exec_keeps_inv (inv_of_stays (t := { s with pending := rest }) (.inl ⟨rfl, rfl⟩) hs) ht

/-- Settles O60: `exec_keeps_roles_image` for every command but ROLE_SET and the four that write the image, and for those what each
keeps. -/
theorem rolesAndImageChangeOnlyBy : Obligations.RolesAndImageChangeOnlyBy := by
  unfold Obligations.RolesAndImageChangeOnlyBy
  intro i s t ht hh hu
  by_cases hi : WritesRoleOrImage i
  · cases i with
    | roleSet h target role => exact ⟨trivial, fun a => by rw [execRoleSet_image ht]⟩
    | cycPiWrite h slot offset data seq => exact ⟨(execCycPiWrite_stores ht).1, trivial⟩
    | piPayloadWrite c offset data => exact ⟨(execPiPayloadWrite_stores ht).1, trivial⟩
    | piSeqWrite c slot value => exact ⟨(execPiSeqWrite_stores ht).1, trivial⟩
    | inboundFile =>
      exact ⟨(execInboundFile_stores ht).1, fun x rest f hx hf a ha => execInboundFile_image ht hx hf ha⟩
    | _ => exact hi.elim
  · have hkeeps := exec_keeps_roles_image hi ht hh hu
    cases i with
    | roleSet | cycPiWrite | piPayloadWrite | piSeqWrite | inboundFile => exact absurd trivial hi
    | _ => exact hkeeps

end

section
/-! R367 to R370, R395, R396, R102, R104: what raising a source, logging and counting leave, said of one relation. It keeps more than
`Beside` does: the reins with their leases, and of a context everything but its event messages. -/

namespace Sys2Proof.Machine

open Host

/-- The context but for its event messages (R369). -/
def Ctx.quiet (x : Ctx) : Ctx := { x with msix := [], lastMsg := none, msgWait := false, out := [] }

/-- The management state but for the log (R395, R396). -/
def Mgt.unlogged (m : Mgt) : Mgt := { m with log := [], logSeq := 0, logSecond := 0, logCount := 0, suppressed := 0 }

/-- `t` is `s` but for registers that `A` names, event messages, the log and the counters of the PMU. -/
structure Noted (A : Nat → Prop) (s t : State) : Prop where
  eq : t = { s with regs := t.regs, ctx := t.ctx, mgt := t.mgt, pmuFix := t.pmuFix, pmc := t.pmc, freeCtr := t.freeCtr,
                    setAt := t.setAt, setNow := t.setNow }
  rd : ∀ a, ¬ A a → t.rd a = s.rd a
  cx : ∀ c, (t.cx c).quiet = (s.cx c).quiet
  mgt : t.mgt.unlogged = s.mgt.unlogged

namespace Noted

variable {A B : Nat → Prop} {s t u : State}

theorem refl (s : State) : Noted A s s := ⟨rfl, fun _ _ => rfl, fun _ => rfl, rfl⟩

theorem trans (h : Noted A s t) (k : Noted A t u) : Noted A s u :=
  ⟨by rw [k.eq, h.eq], fun a ha => (k.rd a ha).trans (h.rd a ha), fun c => (k.cx c).trans (h.cx c), k.mgt.trans h.mgt⟩

theorem mono (h : Noted A s t) (hab : ∀ a, A a → B a) : Noted B s t :=
  ⟨h.eq, fun a ha => h.rd a fun hA => ha (hab a hA), h.cx, h.mgt⟩

theorem any (h : Noted A s t) : Noted (fun _ => True) s t := h.mono fun _ _ => trivial

theorem ite {b : Prop} [Decidable b] (h : Noted A s t) (k : Noted A s u) : Noted A s (if b then t else u) := by
  split
  · exact h
  · exact k

theorem foldl {β : Type} (f : State → β → State) (l : List β) (hf : ∀ t, ∀ b ∈ l, Noted A t (f t b)) (s : State) :
    Noted A s (l.foldl f s) :=
  l.foldlRecOn f (motive := Noted A s) (refl s) fun t ht b hb => ht.trans (hf t b hb)

/-! What such a change keeps, field by field. -/

theorem reins (h : Noted A s t) : t.reins = s.reins := by rw [h.eq]
theorem rein (h : Noted A s t) (r : Nat) : t.rein r = s.rein r := by rw [State.rein, h.reins, State.rein]
theorem owners (h : Noted A s t) : t.owners = s.owners := by rw [h.eq]
theorem uptime (h : Noted A s t) : t.uptime = s.uptime := by rw [h.eq]
theorem raw (h : Noted A s t) : t.raw = s.raw := by rw [h.eq]
theorem now (h : Noted A s t) : t.now = s.now := by rw [State.now, h.raw, State.now]
theorem life (h : Noted A s t) : t.life = s.life := by rw [h.eq]
theorem code (h : Noted A s t) : t.code = s.code := by rw [h.eq]
theorem epoch (h : Noted A s t) : t.epoch = s.epoch := by rw [h.eq]
theorem tim (h : Noted A s t) : t.tim = s.tim := by rw [h.eq]
theorem sw (h : Noted A s t) : t.sw = s.sw := by rw [h.eq]
theorem tbl (h : Noted A s t) : t.tbl = s.tbl := by rw [h.eq]
theorem cyc (h : Noted A s t) : t.cyc = s.cyc := by rw [h.eq]
theorem clk (h : Noted A s t) : t.clk = s.clk := by rw [h.eq]
theorem iu (h : Noted A s t) : t.iu = s.iu := by rw [h.eq]
theorem tg (h : Noted A s t) : t.tg = s.tg := by rw [h.eq]
theorem tap (h : Noted A s t) : t.tap = s.tap := by rw [h.eq]
theorem deferred (h : Noted A s t) : t.deferred = s.deferred := by rw [h.eq]
theorem pendK (h : Noted A s t) : t.pendK = s.pendK := by rw [h.eq]
theorem pt (h : Noted A s t) (p : Nat) : t.pt p = s.pt p := by rw [h.eq]; rfl
theorem ptm (h : Noted A s t) (p : Nat) : t.ptm p = s.ptm p := by rw [h.eq]; rfl
theorem dm (h : Noted A s t) (d : Nat) : t.dm d = s.dm d := by rw [State.dm, h.tim, State.dm]
theorem unit (h : Noted A s t) (u : Nat) : t.unit u = s.unit u := by rw [h.eq]; rfl
theorem gen (h : Noted A s t) (g : Nat) : t.gen g = s.gen g := by rw [h.eq]; rfl
theorem bitAt (h : Noted A s t) {a : Nat} (ha : ¬ A a) (i : Nat) : t.bitAt a i = s.bitAt a i := by rw [State.bitAt, h.rd a ha, State.bitAt]
theorem fld (h : Noted A s t) {a : Nat} (ha : ¬ A a) (lo len : Nat) : t.fld a lo len = s.fld a lo len := by
  rw [State.fld, h.rd a ha, State.fld]
theorem fw (h : Noted A s t) : t.mgt.fw = s.mgt.fw :=
  (congrArg Mgt.fw h.mgt : t.mgt.unlogged.fw = s.mgt.unlogged.fw)
theorem held (h : Noted A s t) (c : Nat) : (t.cx c).held = (s.cx c).held :=
  (congrArg Ctx.held (h.cx c) : (t.cx c).quiet.held = (s.cx c).quiet.held)
theorem expSeq (h : Noted A s t) (c : Nat) : (t.cx c).expSeq = (s.cx c).expSeq :=
  (congrArg Ctx.expSeq (h.cx c) : (t.cx c).quiet.expSeq = (s.cx c).quiet.expSeq)
theorem fwOn (h : Noted A s t) : t.fwOn = s.fwOn := by rw [State.fwOn, State.live, h.life, h.fw, State.fwOn, State.live]

/-! The operations. -/

theorem wr (s : State) {a : Nat} (v : Word) (ha : A a) : Noted A s (s.wr a v) :=
  ⟨rfl, fun b hb => by rw [State.rd_wr, if_neg]; rintro rfl; exact hb ha, fun _ => rfl, rfl⟩

theorem setFld (s : State) {a : Nat} (lo len v : Nat) (ha : A a) : Noted A s (s.setFld a lo len v) := wr s _ ha

theorem stick (s : State) {a : Nat} (i : Nat) (ha : A a) : Noted A s (s.stick a i) :=
  ⟨rfl, fun b hb => by rw [State.rd_stick, if_neg]; rintro rfl; exact hb ha, fun _ => rfl, rfl⟩

theorem onCx (s : State) (c : Nat) {f : Ctx → Ctx} (hf : (f (s.cx c)).quiet = (s.cx c).quiet) : Noted A s (s.onCx c f) := by
  refine ⟨rfl, fun _ _ => rfl, fun d => ?_, rfl⟩
  rw [State.cx_onCx]
  split
  · next h => rw [hf, h]
  · rfl

theorem onMgt (s : State) {f : Mgt → Mgt} (hf : (f s.mgt).unlogged = s.mgt.unlogged) : Noted A s (s.onMgt f) :=
  ⟨rfl, fun _ _ => rfl, fun _ => rfl, hf⟩

theorem drawn (s : State) : Noted A s s.drawn := ⟨rfl, fun _ _ => rfl, fun _ => rfl, rfl⟩

theorem postMsg (s : State) (c : Nat) : Noted A s (s.postMsg c) := by
  unfold State.postMsg
  exact ite (onCx s c rfl) (onCx s c rfl)

theorem eventFrame (s : State) (c : Nat) : Noted A s (s.eventFrame c) := by
  unfold State.eventFrame
  split
  · exact refl s
  · exact ite (onCx s c rfl) (refl s)

theorem deliver (s : State) (c : Nat) (b : Bool) : Noted A s (s.deliver c b) := by
  unfold State.deliver
  exact ite (ite (postMsg s c) (ite (eventFrame s c) (refl s))) (refl s)

theorem raiseIn (s : State) {n c : Nat} (h : A (Reg.evtStat c (n / 32))) : Noted A s (s.raiseIn n c) := by
  unfold State.raiseIn
  exact ite ((stick s _ h).trans (deliver _ _ _)) (refl s)

theorem raiseBits (s : State) {n : Nat} (h : ∀ c, c < 8 → A (Reg.evtStat c (n / 32))) : Noted A s (s.raiseBits n) := by
  unfold State.raiseBits
  exact foldl _ _ (fun t c hc => ite (raiseIn t (h c (List.mem_range.mp hc))) (refl t)) s

theorem logOne (s : State) (src code : Nat) (args : List Nat) : Noted A s (s.logOne src code args) := by
  unfold State.logOne
  exact ite (refl s) (ite (onMgt s rfl) (onMgt s rfl))

theorem logRec (s : State) (src code : Nat) (args : List Nat) (h : ∀ c, c < 8 → A (Reg.evtStat c 7)) :
    Noted A s (s.logRec src code args) := by
  have hOne := logOne (A := A) s src code args
  have hBits := hOne.trans (raiseBits (n := 251) _ h)
  unfold State.logRec
  exact ite (ite (hBits.trans (logOne _ _ _ _)) hBits) hOne

theorem raiseAt (s : State) {n : Nat} (w : Word) (u : Nat) (h : ∀ c, c < 8 → A (Reg.evtStat c (n / 32)))
    (h7 : ∀ c, c < 8 → A (Reg.evtStat c 7)) : Noted A s (s.raiseAt n w u) := by
  unfold State.raiseAt
  exact ite ((raiseBits s h).trans (logRec _ _ _ _ h7)) (raiseBits s h)

theorem raise (s : State) {n : Nat} (h : ∀ c, c < 8 → A (Reg.evtStat c (n / 32))) (h7 : ∀ c, c < 8 → A (Reg.evtStat c 7)) :
    Noted A s (s.raise n) := raiseAt s _ _ h h7

theorem raiseFw (s : State) {n : Nat} (h : ∀ c, c < 8 → A (Reg.evtStat c (n / 32))) (h7 : ∀ c, c < 8 → A (Reg.evtStat c 7)) :
    Noted A s (s.raiseFw n) := ite (raise s h h7) (refl s)

theorem raiseIf (s : State) (b : Bool) {n : Nat} (h : ∀ c, c < 8 → A (Reg.evtStat c (n / 32)))
    (h7 : ∀ c, c < 8 → A (Reg.evtStat c 7)) : Noted A s (s.raiseIf b n) := ite (raise s h h7) (refl s)

theorem count (s : State) {a src : Nat} (ha : A a) (h : ∀ c, c < 8 → A (Reg.evtStat c (src / 32)))
    (h7 : ∀ c, c < 8 → A (Reg.evtStat c 7)) : Noted A s (s.count a src) := by
  unfold State.count
  exact ite ((wr s _ ha).trans (raise _ h h7)) (wr s _ ha)

end Noted

theorem evtReg_evtStat {c j : Nat} (hc : c < 8) (hj : j < 8) : EvtReg (Reg.evtStat c j) := ⟨c, j, hc, hj, rfl⟩

/-- A register outside the block of the event registers is no event status register. -/
theorem not_evtReg_of_lt {a : Nat} (h : a < 0x20000) : ¬ EvtReg a := by
  rintro ⟨c, j, -, -, rfl⟩
  unfold Reg.evtStat at h
  omega

theorem not_evtReg_of_le {a : Nat} (h : 0x20800 ≤ a) : ¬ EvtReg a := by
  rintro ⟨c, j, hc, hj, rfl⟩
  unfold Reg.evtStat at h
  omega

/-- A source that there is sets bits of event status registers alone. -/
theorem raise_noted (s : State) {n : Nat} (hn : n < 256) : Noted EvtReg s (s.raise n) :=
  Noted.raise s (fun _ hc => evtReg_evtStat hc (by omega)) fun _ hc => evtReg_evtStat hc (by omega)

theorem raiseAt_noted (s : State) {n : Nat} (w : Word) (u : Nat) (hn : n < 256) : Noted EvtReg s (s.raiseAt n w u) :=
  Noted.raiseAt s w u (fun _ hc => evtReg_evtStat hc (by omega)) fun _ hc => evtReg_evtStat hc (by omega)

theorem raiseFw_noted (s : State) {n : Nat} (hn : n < 256) : Noted EvtReg s (s.raiseFw n) := .ite (raise_noted s hn) (.refl s)

theorem raiseIf_noted (s : State) (b : Bool) {n : Nat} (hn : n < 256) : Noted EvtReg s (s.raiseIf b n) := .ite (raise_noted s hn) (.refl s)

theorem logRec_noted (s : State) (src code : Nat) (args : List Nat) : Noted EvtReg s (s.logRec src code args) :=
  Noted.logRec s src code args fun _ hc => evtReg_evtStat hc (by omega)

/-- A counter counts in its own register, and sets bits of event status registers. -/
theorem count_noted (s : State) (a : Nat) {src : Nat} (hn : src < 256) : Noted (fun b => b = a ∨ EvtReg b) s (s.count a src) :=
  Noted.count s (.inl rfl) (fun _ hc => .inr (evtReg_evtStat hc (by omega))) fun _ hc => .inr (evtReg_evtStat hc (by omega))

/-! A source of any number, as a state may name one in a rein, a pin or a completion. -/

theorem raise_noted_any (s : State) (n : Nat) : Noted (fun _ => True) s (s.raise n) := Noted.raise s (fun _ _ => trivial) fun _ _ => trivial

theorem logRec_noted_any (s : State) (src code : Nat) (args : List Nat) : Noted (fun _ => True) s (s.logRec src code args) :=
  (logRec_noted s src code args).any

/-! An event that names a unit that exists, while the block is up. -/

theorem onUnit_event {n i : Nat} {s : State} (hi : i < n) (hup : s.life = .up) (f : State → State) :
    onUnit n i (s.event f) = .next (f s) := by rw [onUnit_of_lt hi, event_of_up hup]

theorem onBus_of_up {c : Nat} {s : State} (hc : c < 8) (hup : s.life = .up) (f : State → State) : onBus c s f = .next (f s) :=
  onUnit_event hc hup f

theorem next_event {s : State} (hup : s.life = .up) (f : State → State) :
    (Outcome.next (s.event f) : Outcome State Fault Refusal) = .next (f s) := by rw [event_of_up hup]

end Sys2Proof.Machine
end

section
/-! R327, R335, R348: the context commands, each by the lemma about an admitted command that its end names. -/

namespace Sys2Proof.Machine

open Host

variable {s : State} {h : CmdHdr}

theorem exec_ctxNop (ha : Admitted s h 0x0A00 { role := .any }) :
    exec (.ctxNop h) s = .next ((s.receive h 0x0A00).answerOk h 0x0A00 []) := cmd_done ha rfl rfl

theorem exec_levelSet {level : Nat} (hl : level < 2) (ha : Admitted s h 0x0A01 { role := .any }) :
    exec (.levelSet h level (255 - level)) s
      = .next (((s.receive h 0x0A01).onCx h.ctx fun x => { x with expert := decide (level = 1) }).answerOk h 0x0A01 []) :=
  cmd_done ha (by simp [firstBad, hl]) rfl

theorem exec_ctxGet {target : Nat} (ht : target < 8) (ha : Admitted s h 0x0A03 { role := .any }) :
    exec (.ctxGet h target) s = .next ((s.receive h 0x0A03).reply h.ctx 0x0A03 h.tag St.ok
        ([((s.receive h 0x0A03).role target).num, b2n ((s.receive h 0x0A03).cx target).expert, target,
            ((s.receive h 0x0A03).rd (Reg.hcxBind target)).toNat, ((s.receive h 0x0A03).cx target).mac]
          ++ ((List.range 64).filter ((s.receive h 0x0A03).holds target)).flatMap (fun r => [r, (s.receive h 0x0A03).leaseLeft r])
          ++ [((s.receive h 0x0A03).ctxStat target).toNat, ((s.receive h 0x0A03).rd (Reg.hcxSeqGaps target)).toNat,
              ((s.receive h 0x0A03).rd (Reg.hcxCmdCount target)).toNat, ((s.receive h 0x0A03).rd (Reg.hcxAuthFail target)).toNat]) false) :=
  cmd_answers ha (by simp [firstBad, ht]) rfl (by simp)

theorem exec_reinGet (ha : Admitted s h 0x0A12 { role := .any }) :
    exec (.reinGet h) s = .next ((s.receive h 0x0A12).reply h.ctx 0x0A12 h.tag St.ok
        ((List.range 64).flatMap fun r => [(((s.receive h 0x0A12).rein r).map (·.holder)).getD 0xFF, (s.receive h 0x0A12).leaseLeft r])
        false) :=
  cmd_answers ha rfl rfl (List.ne_nil_of_mem (a := (((s.receive h 0x0A12).rein 0).map (·.holder)).getD 0xFF)
    (List.mem_flatMap.mpr ⟨0, by simp, by simp⟩))

theorem exec_ownGet {kind first count : Nat} (hk : kind < 7) (hc : 0 < count)
    (hi : ∀ i, i < count → first + i < ownCount kind ∧ (kind = 0 → (s.receive h 0x0A21).exists (first + i)))
    (ha : Admitted s h 0x0A21 { role := .any }) :
    exec (.ownGet h kind first count) s = .next ((s.receive h 0x0A21).reply h.ctx 0x0A21 h.tag St.ok
        ((List.range count).map fun i => ((s.receive h 0x0A21).owner kind (first + i)).getD 0xFF) false) := by
  refine cmd_answers ha ?_ rfl (by simp; omega)
  have hAll : ((List.range count).all fun i =>
      decide (first + i < ownCount kind) && (decide (kind ≠ 0) || (s.receive h 0x0A21).exists (first + i))) = true := by
    rw [List.all_eq_true]
    intro i hmem
    obtain ⟨hlt, hex⟩ := hi i (List.mem_range.mp hmem)
    by_cases h0 : kind = 0 <;> simp_all
  simp only [firstBad, hAll, hk, decide_true, if_true]

theorem exec_ctxKeySet {target : Nat} {key : List Byte} (ht : target = 6 ∨ target = 7) (hk : key.length = 32) (hc : h.ctx < 6)
    (ha : Admitted s h 0x0A05 { role := .prin, reins := [0] }) :
    exec (.ctxKeySet h target key) s
      = .next (((s.receive h 0x0A05).onCx target fun x => { x with key := if key.all (· == 0) then [] else key }).answerOk h 0x0A05 []) :=
  cmd_done ha (by simp [firstBad, ht, hk]) (if_neg (by omega))

theorem exec_ctxReset {target : Nat} (ht : target < 8) (hne : target ≠ h.ctx) (ha : Admitted s h 0x0A06 { role := .prin }) :
    exec (.ctxReset h target) s = .next (((s.receive h 0x0A06).ctxReset target true).answerOk h 0x0A06 []) :=
  cmd_done ha (by simp [firstBad, ht]) (if_neg hne)

theorem exec_ctxBind_unbind {target : Nat} (port vid mac : Nat) (ht : target = 6 ∨ target = 7)
    (ha : Admitted s h 0x0A04 { role := .prin, reins := [0, 9] }) :
    exec (.ctxBind h target port vid mac true) s
      = .next ((((s.receive h 0x0A04).unbind target).ctxReset target true).answerOk h 0x0A04 []) :=
  cmd_done ha (by simp [firstBad, ht]) rfl

theorem exec_ctxBind {target port vid mac : Nat} {u : State} (ht : target = 6 ∨ target = 7) (hp : port < 28)
    (hex : (s.receive h 0x0A04).exists port = true) (hv : 1 ≤ vid) (hv' : vid ≤ 4094) (hm : mac < 2 ^ 48) (hu : mac / 2 ^ 40 % 2 = 0)
    (hother : (s.receive h 0x0A04).bitAt (Reg.hcxBind (13 - target)) 7 = false)
    (hb : (s.receive h 0x0A04).bind target port vid mac = .done [] u) (ha : Admitted s h 0x0A04 { role := .prin, reins := [0, 9] }) :
    exec (.ctxBind h target port vid mac false) s = .next (u.answerOk h 0x0A04 []) := by
  have hOther : (s.receive h 0x0A04).bitAt (Reg.hcxBind (if target = 6 then 7 else 6)) 7 = false := by
    rcases ht with rfl | rfl <;> exact hother
  have hMac : mac < 2 ^ 48 ∧ mac / 2 ^ 40 % 2 = 0 := ⟨hm, hu⟩
  refine cmd_done ha (by simp only [firstBad, ht, hp, hex, hv, hv', hMac]; rfl) ?_
  simp only [Bool.false_eq_true, if_false, hOther, Bool.false_and]
  exact hb

/-- A binding made stands in HCX_BIND and in the context (R327). -/
theorem bind_done {t u : State} {c port vid mac : Nat} (hb : t.bind c port vid mac = .done [] u) :
    u.rd (Reg.hcxBind c) = w32 (port + 128 + vid * 256) ∧ (u.cx c).mac = mac ∧ (u.cx c).vid = vid := by
  unfold State.bind at hb
  dsimp only at hb
  split at hb
  · cases hb
    simp
  · cases hb

end Sys2Proof.Machine

open Sys2Proof Sys2Proof.Machine

/-- Settles O1: each command by its equation; `bind_done` reads a binding back. -/
theorem contextCommandsComplete : Obligations.ContextCommandsComplete := by
  unfold Obligations.ContextCommandsComplete
  exact ⟨fun s h => ⟨exec_ctxNop, fun _ => exec_levelSet, fun _ => exec_ctxGet, exec_reinGet, fun _ _ _ => exec_ownGet,
    fun _ _ => exec_ctxKeySet, fun _ => exec_ctxReset⟩, fun s h target port vid mac ht ha =>
    ⟨exec_ctxBind_unbind port vid mac ht ha, fun hp hex hv hv' hm hu hother u hb =>
      ⟨exec_ctxBind ht hp hex hv hv' hm hu hother hb ha, bind_done hb⟩⟩⟩

end

section
/-! R338: OWN_SET. The owner of a port, a stream entry or a slot is one cell of the owners' table, so a transfer of several is a fold of
writes to different cells. -/

namespace Sys2Proof.Machine

open Host

theorem owner_eq_of_owners {s t : State} {k : Nat} (hk : k < 4) (h : t.owners = s.owners) (i : Nat) : t.owner k i = s.owner k i := by
  interval_cases k <;> simp only [State.owner, h]

/-- A port that has no owner: CPU and CYC (R338). -/
def Ownerless (k i : Nat) : Prop := k = 0 ∧ (i = 28 ∨ i = 31)

theorem owner_eq_none {k i : Nat} (h : Ownerless k i) (s : State) : s.owner k i = none := by
  obtain ⟨rfl, hi⟩ := h
  exact if_pos ⟨rfl, hi⟩

theorem owner_eq_some {k i : Nat} (hk : k < 4) (h : ¬ Ownerless k i) (s : State) :
    s.owner k i = some (Tab.get (fun _ => 0) s.owners (ownKey k i)) := by
  unfold State.owner
  split
  · omega
  · omega
  · omega
  · exact if_neg h

theorem owner_setOwner {s : State} {kind k i j : Nat} (c : Nat) (hkind : kind < 4) (hk : k < 4) (hi : i < 65536) (hj : j < 65536)
    (hown : ¬ Ownerless kind i) :
    (s.setOwner kind i c).owner k j = if k = kind ∧ j = i then some c else s.owner k j := by
  by_cases hno : Ownerless k j
  · rw [owner_eq_none hno, owner_eq_none hno, if_neg]
    rintro ⟨rfl, rfl⟩
    exact hown hno
  · have hKey : ownKey k j = ownKey kind i ↔ k = kind ∧ j = i := by unfold ownKey; omega
    have hSet : (s.setOwner kind i c).owners = Tab.set (fun _ => 0) s.owners (ownKey kind i) c := by
      interval_cases kind <;> rfl
    rw [owner_eq_some hk hno, owner_eq_some hk hno, hSet, Tab.get_set]
    simp only [hKey]
    split <;> rfl

/-- Each of the resources listed given an owner, where it can have one. -/
def State.giveAll (s : State) (kind c : Nat) (ids : List Nat) : State :=
  ids.foldl (fun u i => if (u.owner kind i).isSome then u.setOwner kind i c else u) s

theorem owner_giveAll {kind k j : Nat} (c : Nat) (hkind : kind < 4) (hk : k < 4) (hj : j < 65536) {ids : List Nat}
    (hids : ∀ i ∈ ids, i < 65536 ∧ ¬ Ownerless kind i) (s : State) :
    (s.giveAll kind c ids).owner k j = if k = kind ∧ j ∈ ids then some c else s.owner k j := by
  induction ids generalizing s with
  | nil => simp [State.giveAll]
  | cons i ids ih =>
    obtain ⟨hi, hown⟩ := hids i (by simp)
    have hCons : s.giveAll kind c (i :: ids) = (s.setOwner kind i c).giveAll kind c ids := by
      simp [State.giveAll, owner_eq_some hkind hown]
    rw [hCons, ih (fun x hx => hids x (by simp [hx])), owner_setOwner c hkind hk hi hj hown]
    by_cases hkk : k = kind
    · by_cases hji : j = i <;> simp [hkk, hji]
    · simp [hkk]

theorem ownable_spec {s : State} {kind i : Nat} (hk : kind < 4) (h : s.ownable kind i = true) : i < 65536 ∧ ¬ Ownerless kind i := by
  simp only [State.ownable, Bool.and_eq_true, Bool.or_eq_true, decide_eq_true_eq] at h
  obtain ⟨hlt, hport⟩ := h
  unfold Ownerless
  interval_cases kind <;> simp only [ownCount] at hlt <;> omega

theorem exec_ownSet {s : State} {h : CmdHdr} {kind first count owner : Nat} (hk : kind < 4) (hc : 0 < count) (ho : owner < 8)
    (hi : ∀ i, i < count → (s.receive h 0x0A20).ownable kind (first + i) = true)
    (ha : Admitted s h 0x0A20 { role := .prin, reins := [0] }) :
    exec (.ownSet h kind first count owner) s = .next ((((List.range count).map (first + ·)).foldl (fun v i =>
      v.logRec 0x100 5 [kind, i, ((s.receive h 0x0A20).owner kind i).getD 0xFF, owner])
        (((s.receive h 0x0A20).giveAll kind owner ((List.range count).map (first + ·))).raiseFw 240)).answerOk h 0x0A20 []) := by
  have hAll : ((List.range count).all fun i => (s.receive h 0x0A20).ownable kind (first + i)) = true := by
    rw [List.all_eq_true]
    exact fun i hmem => hi i (List.mem_range.mp hmem)
  have hKind : kind < 7 := by omega
  refine cmd_done ha (by simp [firstBad, hAll, hKind, hc, ho]) ?_
  simp only [State.giveAll, show owner ≠ 0xFF by omega, if_false]

end Sys2Proof.Machine

open Sys2Proof Sys2Proof.Machine

/-- Settles O3: the transfer is `State.giveAll` (`owner_giveAll`); the report and the answer leave the owners. -/
theorem ownSetTransfers : Obligations.OwnSetTransfers := by
  unfold Obligations.OwnSetTransfers
  intro s h kind first count owner hk hc ho hi ha
  refine ⟨_, exec_ownSet hk hc ho hi ha, ?_⟩
  generalize hids : (List.range count).map (first + ·) = ids
  generalize hg : (s.receive h 0x0A20).giveAll kind owner ids = g
  have hMem : ∀ i, i ∈ ids ↔ first ≤ i ∧ i < first + count := fun i => by
    rw [← hids, List.mem_map]
    exact ⟨fun ⟨n, hn, e⟩ => by have := List.mem_range.mp hn; omega, fun ⟨hlo, hhi⟩ =>
      ⟨i - first, List.mem_range.mpr (by omega), by omega⟩⟩
  have hSpec : ∀ i ∈ ids, i < 65536 ∧ ¬ Ownerless kind i := fun i hmem => by
    obtain ⟨hlo, hhi⟩ := (hMem i).mp hmem
    have := hi (i - first) (by omega)
    rw [show first + (i - first) = i by omega] at this
    exact ownable_spec hk this
  have hLog : Noted EvtReg g (ids.foldl (fun v i => v.logRec 0x100 5 [kind, i, ((s.receive h 0x0A20).owner kind i).getD 0xFF, owner])
      (g.raiseFw 240)) :=
    (raiseFw_noted g (by omega)).trans (Noted.foldl _ _ (fun t i _ => logRec_noted t _ _ _) _)
  have hOwners : (((ids.foldl (fun v i => v.logRec 0x100 5 [kind, i, ((s.receive h 0x0A20).owner kind i).getD 0xFF, owner])
      (g.raiseFw 240)).answerOk h 0x0A20 []) : State).owners = g.owners := by
    rw [(answerOk_beside (A := fun _ => True) _ h _ _ ha.1 (fun _ _ => trivial) trivial).eq]
    exact hLog.owners
  have hOwner : ∀ k i, k < 4 → i < 65536 → g.owner k i = if k = kind ∧ i ∈ ids then some owner else s.owner k i := fun k i hk4 hi64 => by
    have hRecv : (s.receive h 0x0A20).owners = s.owners := by rw [(receive_beside_any s h 0x0A20).eq]
    rw [← hg, owner_giveAll owner hk hk4 hi64 hSpec, owner_eq_of_owners hk4 hRecv]
  refine ⟨fun i hlo hhi => ?_, fun k i hk4 hi64 hout => ?_⟩
  · have hmem := (hMem i).mpr ⟨hlo, hhi⟩
    rw [owner_eq_of_owners hk hOwners, hOwner kind i hk (hSpec i hmem).1, if_pos ⟨rfl, hmem⟩]
  · rw [owner_eq_of_owners hk4 hOwners, hOwner k i hk4 hi64, if_neg]
    rintro ⟨rfl, hmem⟩
    have := (hMem i).mp hmem
    omega

end

section
/-! R340, R343: reins taken, dropped, broken and expired. Losing a rein frees that rein alone: what else it discards and reports holds no
rein (`loseRein_rein`). -/

namespace Sys2Proof.Machine

open Host

theorem reply_reins (s : State) (c op tag st : Nat) (ps : List Nat) (d : Bool) : (s.reply c op tag st ps d).reins = s.reins := by
  have hTail : ∀ (t : State) c, (t.syncTail c).reins = t.reins := fun t c => by
    unfold State.syncTail
    split <;> rfl
  have hRaise : ∀ (t : State) n, (t.raise n).reins = t.reins := fun t n => (raise_noted_any t n).reins
  unfold State.reply
  dsimp only
  split
  · split
    · rw [hRaise, hTail, State.onCx_reins]
    · rw [hTail, State.onCx_reins]
  · rw [hRaise, State.onCx_reins]

theorem reply_uptime (s : State) (c op tag st : Nat) (ps : List Nat) (d : Bool) : (s.reply c op tag st ps d).uptime = s.uptime := by
  have hTail : ∀ (t : State) c, (t.syncTail c).uptime = t.uptime := fun t c => by
    unfold State.syncTail
    split <;> rfl
  have hRaise : ∀ (t : State) n, (t.raise n).uptime = t.uptime := fun t n => (raise_noted_any t n).uptime
  unfold State.reply
  dsimp only
  split
  · split
    · rw [hRaise, hTail, State.onCx_uptime]
    · rw [hTail, State.onCx_uptime]
  · rw [hRaise, State.onCx_uptime]

/-- The reins and the uptime, by which leases are judged. -/
def State.leases (s : State) : Tab (Option Rein) × Nat := (s.reins, s.uptime)

theorem leases_eq {s t : State} (hr : t.reins = s.reins) (hu : t.uptime = s.uptime) : t.leases = s.leases := Prod.ext hr hu

theorem rein_of_leases {s t : State} (h : t.leases = s.leases) (r : Nat) : t.rein r = s.rein r := by
  have hReins : t.reins = s.reins := congrArg Prod.fst h
  rw [State.rein, hReins, State.rein]

theorem uptime_of_leases {s t : State} (h : t.leases = s.leases) : t.uptime = s.uptime := congrArg Prod.snd h

theorem Noted.leases {A : Nat → Prop} {s t : State} (h : Noted A s t) : t.leases = s.leases := leases_eq h.reins h.uptime

theorem answerOk_leases (s : State) (h : CmdHdr) (op : Nat) (ps : List Nat) : (s.answerOk h op ps).leases = s.leases := by
  unfold State.answerOk
  split
  · rfl
  · exact leases_eq (reply_reins _ _ _ _ _ _ _) (reply_uptime _ _ _ _ _ _ _)

theorem complete_leases (s : State) (op idx st : Nat) (ps : List Nat) : (s.complete op idx st ps).leases = s.leases := by
  unfold State.complete
  split
  · rfl
  · exact leases_eq (reply_reins _ _ _ _ _ _ _) (reply_uptime _ _ _ _ _ _ _)

theorem abortUpdate_leases (s : State) : s.abortUpdate.leases = s.leases := by
  unfold State.abortUpdate
  split
  · rfl
  · have hReport : ∀ t : State, ∀ args, ((t.raiseFw 252).logRec 0x100 8 args).leases = t.leases := fun t args =>
      ((raiseFw_noted t (by omega)).trans (logRec_noted _ _ _ _)).leases
    rw [hReport]
    exact (complete_leases _ 0x0803 0 St.state []).trans (complete_leases _ 0x0801 0 St.state [])

/-- The staged state that goes with a rein holds no rein (R345). -/
theorem discardStaged_leases (s : State) (r : Nat) : (s.discardStaged r).leases = s.leases := by
  have hStreams : s.restoreStreams.leases = s.leases := by
    unfold State.restoreStreams
    split <;> rfl
  have hCycle : s.restoreCycle.leases = s.leases := by
    unfold State.restoreCycle
    split <;> rfl
  have hDrop : ∀ p, (s.dropK p).leases = s.leases := fun _ => rfl
  simp only [State.discardStaged, apply_ite State.leases, hDrop, hStreams, hCycle, abortUpdate_leases, ite_self]

/-- A rein lost is free, and no other is touched (R343). -/
theorem loseRein_rein (s : State) (r q : Nat) : (s.loseRein r).rein q = if q = r then none else s.rein q := by
  unfold State.loseRein
  split
  · next hFree =>
    split
    · next h => rw [h, hFree]
    · rfl
  · rw [(raise_noted_any _ _).rein, rein_of_leases (discardStaged_leases _ _), State.rein_setRein]

theorem loseRein_uptime (s : State) (r : Nat) : (s.loseRein r).uptime = s.uptime := by
  unfold State.loseRein
  split
  · rfl
  · rw [(raise_noted_any _ _).uptime, uptime_of_leases (discardStaged_leases _ _), State.setRein_uptime]

/-- A fold that sets each rein listed to one value. -/
theorem foldl_rein {f : State → Nat → State} {v : Option Rein} (hf : ∀ t r q, (f t r).rein q = if q = r then v else t.rein q)
    (l : List Nat) (s : State) (q : Nat) : (l.foldl f s).rein q = if q ∈ l then v else s.rein q := by
  induction l generalizing s with
  | nil => simp
  | cons r l ih =>
    rw [List.foldl_cons, ih, hf]
    by_cases hq : q = r <;> simp [hq]

theorem findIdx?_reinGone {t : State} {reins : List Nat} (h : ∀ r ∈ reins, t.reinGone r = false) : reins.findIdx? t.reinGone = none := by
  rw [List.findIdx?_eq_none_iff]
  exact h

section Commands

variable {s : State} {h : CmdHdr} {reins : List Nat}

theorem exec_reinTake {lease : Nat} (hl : lease = 0 ∨ (10 ≤ lease ∧ lease ≤ 60000)) (h1 : 1 ≤ reins.length) (h64 : reins.length ≤ 64)
    (hgone : ∀ r ∈ reins, (s.receive h 0x0A10).reinGone r = false) (hord : (s.receive h 0x0A10).orderBreak h.ctx reins = none)
    (ha : Admitted s h 0x0A10 { role := .oper, reins := reins }) :
    exec (.reinTake h lease reins) s = .next ((reins.foldl (fun u r => u.setRein r (some
      { holder := h.ctx, lease := if lease = 0 then 2000 else lease,
        ends := (s.receive h 0x0A10).uptime + (if lease = 0 then 2000 else lease) * 1000000 })) (s.receive h 0x0A10)).answerOk h 0x0A10 []) :=
  cmd_done ha (by simp [firstBad, hl, h1, h64, hord, findIdx?_reinGone hgone]) rfl

theorem exec_reinDrop (hmine : ∀ r ∈ reins, (s.receive h 0x0A11).reinGone r = false ∧ (s.receive h 0x0A11).holds h.ctx r = true)
    (ha : Admitted s h 0x0A11 { role := .oper }) :
    exec (.reinDrop h reins) s
      = .next ((reins.foldl (fun u r => u.setRein r none) (s.receive h 0x0A11)).answerOk h 0x0A11 []) :=
  cmd_done ha (by simp [findIdx?_reinGone fun r hr => (hmine r hr).1]) (if_pos (List.all_eq_true.mpr fun r hr => (hmine r hr).2))

theorem exec_reinBreak (hgone : ∀ r ∈ reins, (s.receive h 0x0A90).reinGone r = false) (ha : Admitted s h 0x0A90 { role := .prin }) :
    exec (.reinBreak h reins) s = .next ((reins.foldl (fun u r => u.loseRein r) (s.receive h 0x0A90)).answerOk h 0x0A90 []) :=
  cmd_done ha (by simp [findIdx?_reinGone hgone]) rfl

end Commands

/-- The lease test of one rein (R343). -/
def State.expire (s : State) (r : Nat) : State :=
  match s.rein r with
  | none => s
  | some x => if x.ends ≤ s.uptime then s.loseRein r else s

theorem expire_uptime (s : State) (r : Nat) : (s.expire r).uptime = s.uptime := by
  unfold State.expire
  split
  · rfl
  · split
    · exact loseRein_uptime s r
    · rfl

/-- What the lease test leaves of a rein. -/
def unexpired (now : Nat) : Option Rein → Option Rein
  | none => none
  | some x => if x.ends ≤ now then none else some x

theorem unexpired_idem (now : Nat) (v : Option Rein) : unexpired now (unexpired now v) = unexpired now v := by
  cases v with
  | none => rfl
  | some x => by_cases h : x.ends ≤ now <;> simp [unexpired, h]

theorem expire_rein (s : State) (r q : Nat) : (s.expire r).rein q = if q = r then unexpired s.uptime (s.rein q) else s.rein q := by
  unfold State.expire
  split
  · next hFree =>
    split
    · next h => rw [h, hFree]; rfl
    · rfl
  · next x hHeld =>
    by_cases hEnds : x.ends ≤ s.uptime
    · rw [if_pos hEnds, loseRein_rein]
      split
      · next h => simp [h, hHeld, unexpired, hEnds]
      · rfl
    · rw [if_neg hEnds]
      split
      · next h => simp [h, hHeld, unexpired, hEnds]
      · rfl

theorem foldl_expire_rein (l : List Nat) (s : State) (q : Nat) :
    (l.foldl State.expire s).rein q = if q ∈ l then unexpired s.uptime (s.rein q) else s.rein q := by
  induction l generalizing s with
  | nil => simp
  | cons r l ih =>
    rw [List.foldl_cons, ih, expire_rein, expire_uptime]
    by_cases hq : q = r
    · simp [hq, unexpired_idem]
    · by_cases hl : q ∈ l <;> simp [hq, hl]

theorem exec_leaseExpiry {s : State} (hf : s.fwOn = true) : exec .leaseExpiry s = .next ((List.range 64).foldl State.expire s) :=
  congrArg Outcome.next (if_pos hf)

end Sys2Proof.Machine

open Sys2Proof Sys2Proof.Machine

/-- Settles O4: each command folds over the reins named, and each step sets that rein alone (`foldl_rein`, `loseRein_rein`,
`expire_rein`). -/
theorem reinCommandsComplete : Obligations.ReinCommandsComplete := by
  unfold Obligations.ReinCommandsComplete
  refine ⟨fun s h reins => ⟨fun lease hl h1 h64 hgone hord ha => ?_, fun hmine ha => ?_, fun hgone ha => ?_⟩, fun s hf => ?_⟩
  · refine ⟨_, exec_reinTake hl h1 h64 hgone hord ha, fun r => ?_⟩
    have hUptime : (s.receive h 0x0A10).uptime = s.uptime := by rw [(receive_beside_any s h 0x0A10).eq]
    rw [rein_of_leases (answerOk_leases _ _ _ _), foldl_rein (fun t r q => State.rein_setRein t r q _), hUptime]
  · refine ⟨_, exec_reinDrop hmine ha, fun r => ?_⟩
    rw [rein_of_leases (answerOk_leases _ _ _ _), foldl_rein (fun t r q => State.rein_setRein t r q none)]
  · refine ⟨_, exec_reinBreak hgone ha, fun r => ?_⟩
    rw [rein_of_leases (answerOk_leases _ _ _ _), foldl_rein loseRein_rein]
  · refine ⟨_, exec_leaseExpiry hf, fun r hr => ?_⟩
    rw [foldl_expire_rein, if_pos (List.mem_range.mpr hr)]
    rfl

end

section
/-! R351: the fields and bits of a register word. A field written reads back, and no other bit changes; all from the bits of the
written word (`bit_putFld`). -/

namespace Sys2Proof.Machine

theorem bit_eq_false_of_le {w : Word} {i : Nat} (h : 32 ≤ i) : bit w i = false := BitVec.getLsbD_of_ge w i h

theorem testBit_getFld (w : Word) (lo len i : Nat) : (getFld w lo len).testBit i = (decide (i < len) && bit w (lo + i)) := by
  rw [getFld, Nat.testBit_mod_two_pow, Nat.testBit_div_two_pow, bit, Nat.add_comm]

/-- The bits of a word in which a field was replaced. -/
theorem bit_putFld (w : Word) {lo len : Nat} (v i : Nat) (h : lo + len ≤ 32) :
    bit (putFld w lo len v) i = if lo ≤ i ∧ i < lo + len then v.testBit (i - lo) else bit w i := by
  have hlow : w.toNat % 2 ^ lo < 2 ^ lo := Nat.mod_lt _ (Nat.two_pow_pos lo)
  have hsplit : w.toNat = 2 ^ lo * (2 ^ len * (w.toNat / 2 ^ lo / 2 ^ len) + getFld w lo len) + w.toNat % 2 ^ lo := by
    rw [getFld, Nat.div_add_mod, Nat.div_add_mod]
  have hv : v % 2 ^ len < 2 ^ len := Nat.mod_lt _ (Nat.two_pow_pos len)
  have hnum : w.toNat - getFld w lo len * 2 ^ lo + v % 2 ^ len * 2 ^ lo
      = 2 ^ lo * (2 ^ len * (w.toNat / 2 ^ lo / 2 ^ len) + v % 2 ^ len) + w.toNat % 2 ^ lo := by
    rw [Nat.mul_add] at hsplit ⊢
    rw [Nat.mul_comm (getFld w lo len), Nat.mul_comm (v % 2 ^ len)]
    omega
  by_cases hi : i < 32
  · rw [bit, putFld, BitVec.toNat_ofNat, Nat.testBit_mod_two_pow, hnum, Nat.testBit_two_pow_mul_add _ hlow, Nat.testBit_two_pow_mul_add _ hv]
    simp only [hi, decide_true, Bool.true_and, Nat.testBit_mod_two_pow, Nat.testBit_div_two_pow, bit]
    by_cases h1 : i < lo
    · rw [if_pos h1, if_neg (by omega)]
      simp [h1]
    · by_cases h2 : i < lo + len
      · rw [if_neg h1, if_pos (by omega), if_pos (by omega)]
        simp [show i - lo < len by omega]
      · rw [if_neg h1, if_neg (by omega), if_neg (by omega)]
        congr 1
        omega
  · rw [if_neg (by omega), bit_eq_false_of_le (by omega), bit_eq_false_of_le (by omega)]

/-- A field written reads its value, cut to its width. -/
theorem getFld_putFld (w : Word) {lo len : Nat} (v : Nat) (h : lo + len ≤ 32) : getFld (putFld w lo len v) lo len = v % 2 ^ len := by
  refine Nat.eq_of_testBit_eq fun i => ?_
  rw [testBit_getFld, bit_putFld w v _ h, Nat.testBit_mod_two_pow]
  by_cases hi : i < len
  · rw [if_pos (by omega), Nat.add_sub_cancel_left]
  · simp [hi]

/-- A field beside the one written stands. -/
theorem getFld_putFld_of_disjoint (w : Word) {lo len lo' len' : Nat} (v : Nat) (h : lo + len ≤ 32)
    (hd : lo' + len' ≤ lo ∨ lo + len ≤ lo') : getFld (putFld w lo len v) lo' len' = getFld w lo' len' := by
  refine Nat.eq_of_testBit_eq fun i => ?_
  rw [testBit_getFld, testBit_getFld, bit_putFld w v _ h]
  by_cases hi : i < len'
  · rw [if_neg (by omega)]
  · simp [hi]

/-- A bit of a field written. -/
theorem bit_putFld_bit (w : Word) {i : Nat} (b : Bool) (h : i < 32) : bit (putFld w i 1 (b2n b)) i = b := by
  rw [bit_putFld w _ i (by omega), if_pos (by omega), Nat.sub_self]
  cases b <;> rfl

theorem bit_putFld_zero (w : Word) {i : Nat} (h : i < 32) : bit (putFld w i 1 0) i = false := bit_putFld_bit w false h

theorem bit_putFld_one (w : Word) {i : Nat} (h : i < 32) : bit (putFld w i 1 1) i = true := bit_putFld_bit w true h

theorem bit_putFld_of_outside (w : Word) {lo len : Nat} (v : Nat) {i : Nat} (h : lo + len ≤ 32) (hi : i < lo ∨ lo + len ≤ i) :
    bit (putFld w lo len v) i = bit w i := by
  rw [bit_putFld w v i h, if_neg (by omega)]

/-- A bit set leaves the fields that do not hold it. -/
theorem getFld_orBit_of_outside (w : Word) {i lo len : Nat} (hi : i < lo ∨ lo + len ≤ i) : getFld (orBit w i) lo len = getFld w lo len := by
  refine Nat.eq_of_testBit_eq fun k => ?_
  rw [testBit_getFld, testBit_getFld]
  by_cases hk : k < len
  · rw [bit_orBit_of_ne w (by omega)]
  · simp [hk]

theorem getFld_one (w : Word) (i : Nat) : getFld w i 1 = b2n (bit w i) := by
  refine Nat.eq_of_testBit_eq fun k => ?_
  rw [testBit_getFld]
  cases k with
  | zero => cases h : bit w i <;> simp [b2n]
  | succ k => cases h : bit w i <;> simp [b2n, Nat.testBit_succ]

/-- The low bits of a word are the word where they hold it. -/
theorem getFld_zero_of_lt {w : Word} {len : Nat} (h : w.toNat < 2 ^ len) : getFld w 0 len = w.toNat := by
  rw [getFld, Nat.pow_zero, Nat.div_one, Nat.mod_eq_of_lt h]

@[simp] theorem toNat_w32 (n : Nat) : (w32 n).toNat = n % 2 ^ 32 := BitVec.toNat_ofNat n 32

/-! The same of a register of a state. -/

variable (s : State)

theorem fld_setFld_self (a : Nat) {lo len : Nat} (v : Nat) (h : lo + len ≤ 32) : (s.setFld a lo len v).fld a lo len = v % 2 ^ len := by
  rw [State.fld, State.rd_setFld, if_pos rfl, getFld_putFld _ _ h]

theorem fld_setFld_of_ne {a b : Nat} (lo len v lo' len' : Nat) (h : b ≠ a) :
    (s.setFld a lo len v).fld b lo' len' = s.fld b lo' len' := by
  rw [State.fld, State.rd_setFld, if_neg h, State.fld]

theorem fld_setFld_of_disjoint (a : Nat) {lo len lo' len' : Nat} (v : Nat) (h : lo + len ≤ 32)
    (hd : lo' + len' ≤ lo ∨ lo + len ≤ lo') : (s.setFld a lo len v).fld a lo' len' = s.fld a lo' len' := by
  rw [State.fld, State.rd_setFld, if_pos rfl, getFld_putFld_of_disjoint _ _ h hd, State.fld]

theorem fld_wr_of_ne {a b : Nat} (v : Word) (lo len : Nat) (h : b ≠ a) : (s.wr a v).fld b lo len = s.fld b lo len := by
  rw [State.fld, State.rd_wr, if_neg h, State.fld]

theorem fld_wr_self (a : Nat) (v : Word) (lo len : Nat) : (s.wr a v).fld a lo len = getFld v lo len := by
  rw [State.fld, State.rd_wr_self]

theorem bitAt_setFld_of_ne {a b : Nat} (lo len v i : Nat) (h : b ≠ a) : (s.setFld a lo len v).bitAt b i = s.bitAt b i :=
  bitAt_wr_of_ne _ i h

theorem bitAt_setFld_self (a : Nat) {lo len : Nat} (v i : Nat) (h : lo + len ≤ 32) :
    (s.setFld a lo len v).bitAt a i = if lo ≤ i ∧ i < lo + len then v.testBit (i - lo) else s.bitAt a i := by
  rw [State.bitAt, State.rd_setFld, if_pos rfl, bit_putFld _ _ _ h, State.bitAt]

theorem bitAt_setFld_bit (a : Nat) {i : Nat} (b : Bool) (h : i < 32) : (s.setFld a i 1 (b2n b)).bitAt a i = b := by
  rw [State.bitAt, State.rd_setFld, if_pos rfl, bit_putFld_bit _ _ h]

theorem bitAt_clear (a : Nat) {i : Nat} (h : i < 32) : (s.setFld a i 1 0).bitAt a i = false := bitAt_setFld_bit s a false h

theorem bitAt_set (a : Nat) {i : Nat} (h : i < 32) : (s.setFld a i 1 1).bitAt a i = true := bitAt_setFld_bit s a true h

theorem bitAt_stick_self (a : Nat) {i : Nat} (h : i < 32) : (s.stick a i).bitAt a i = true := by
  rw [State.bitAt, State.rd_stick, if_pos rfl, bit_orBit_self _ h]

theorem bitAt_stick_of_ne {a b : Nat} (i k : Nat) (h : b ≠ a) : (s.stick a i).bitAt b k = s.bitAt b k := by
  rw [State.bitAt, State.rd_stick, if_neg h, State.bitAt]

theorem fld_stick_of_ne {a b : Nat} (i lo len : Nat) (h : b ≠ a) : (s.stick a i).fld b lo len = s.fld b lo len := by
  rw [State.fld, State.rd_stick, if_neg h, State.fld]

theorem fld_stick_of_outside (a : Nat) {i lo len : Nat} (hi : i < lo ∨ lo + len ≤ i) : (s.stick a i).fld a lo len = s.fld a lo len := by
  rw [State.fld, State.rd_stick, if_pos rfl, getFld_orBit_of_outside _ hi, State.fld]

theorem bitAt_stick_of_bit_ne (a : Nat) {i k : Nat} (h : k ≠ i) : (s.stick a i).bitAt a k = s.bitAt a k := by
  rw [State.bitAt, State.rd_stick, if_pos rfl, bit_orBit_of_ne _ h, State.bitAt]

end Sys2Proof.Machine
end

section
/-! Log 5: a well-formed command names a context and units that exist, and each of its meanings then ends in a next state. -/

namespace Sys2Proof.Machine

open Host

/-- The outcome is a next state. -/
def Completes (o : Outcome State Fault Refusal) : Prop := ∃ t, o = .next t

theorem both {p q : Prop} [Decidable p] [Decidable q] (h : (decide p && decide q) = true) : p ∧ q := by simpa using h

theorem three {p q r : Prop} [Decidable p] [Decidable q] [Decidable r] (h : (decide p && decide q && decide r) = true) : p ∧ q ∧ r := by
  simpa [and_assoc] using h

theorem cmd_completes {s : State} {h : CmdHdr} {op : Nat} {need : State → Need} {body : State → CmdEnd} (hw : h.wf = true) :
    Completes (s.cmd h op need body) := cmd_next (both hw).1 op need body

theorem onUnit_completes {n i : Nat} {t : State} (h : i < n) : Completes (onUnit n i t) := ⟨t, onUnit_of_lt h t⟩

theorem ite_completes {b : Prop} [Decidable b] {o p : Outcome State Fault Refusal} (hb : b) (h : Completes o) :
    Completes (if b then o else p) := by rwa [if_pos hb]

/-- Every well-formed command ends in a next state, whatever the state. -/
theorem exec_completes (s : State) : (i : Instr) → i.wellFormed = true → Completes (exec i s)
  | .portSet .., hw => cmd_completes hw
  | .portHalterGet .., hw => cmd_completes hw
  | .portQualityGet .., hw => cmd_completes hw
  | .portFrameSet .., hw => cmd_completes hw
  | .portLineExpertSet .., hw => cmd_completes hw
  | .portEqExpertSet .., hw => cmd_completes hw
  | .swcQueueSet .., hw => cmd_completes hw
  | .swcPcpSet .., hw => cmd_completes hw
  | .swcSampleSet .., hw => cmd_completes hw
  | .swcStatsGet .., hw => cmd_completes hw
  | .swcQueueExpertSet .., hw => cmd_completes hw
  | .swcGlobalExpertSet .., hw => cmd_completes hw
  | .swcArbExpertSet .., hw => cmd_completes hw
  | .fdbInsert .., hw => cmd_completes hw
  | .fdbDelete .., hw => cmd_completes hw
  | .fdbLookup .., hw => cmd_completes hw
  | .fdbFlush .., hw => cmd_completes hw
  | .fdbBatch .., hw => cmd_completes hw
  | .learnSet .., hw => cmd_completes hw
  | .fdbAgeSet .., hw => cmd_completes hw
  | .learnRead .., hw => cmd_completes hw
  | .vlanSet .., hw => cmd_completes hw
  | .streamSet .., hw => cmd_completes hw
  | .streamDelete .., hw => cmd_completes hw
  | .streamGet .., hw => cmd_completes hw
  | .protSet .., hw => cmd_completes hw
  | .protGet .., hw => cmd_completes hw
  | .protRevert .., hw => cmd_completes hw
  | .shadowWrite .., hw => cmd_completes hw
  | .shadowCtrl .., hw => cmd_completes hw
  | .shadowLogGet .., hw => cmd_completes hw
  | .fdbRehash .., hw => cmd_completes hw
  | .rehashWalkEnd, _ => ⟨_, rfl⟩
  | .timeGet .., hw => cmd_completes hw
  | .timeDomSet .., hw => cmd_completes hw
  | .timeConvert .., hw => cmd_completes hw
  | .timePortSet .., hw => cmd_completes hw
  | .timePortGet .., hw => cmd_completes hw
  | .timeSwitch .., hw => cmd_completes hw
  | .timeSwitchCancel .., hw => cmd_completes hw
  | .timeDomReset .., hw => cmd_completes hw
  | .timeExpertSet .., hw => cmd_completes hw
  | .timeSwitchForce .., hw => cmd_completes hw
  | .timeEpochReset .., hw => cmd_completes hw
  | .timeLinkSet .., hw => cmd_completes hw
  | .timeLinkGet .., hw => cmd_completes hw
  | .timeGmSet .., hw => cmd_completes hw
  | .timeLinkExpertSet .., hw => cmd_completes hw
  | .clkRefSet .., hw => cmd_completes hw
  | .clkSelect .., hw => cmd_completes hw
  | .clkStatusGet .., hw => cmd_completes hw
  | .clkSwitchSet .., hw => cmd_completes hw
  | .clkDpllExpertSet .., hw => cmd_completes hw
  | .clkSynExpertSet .., hw => cmd_completes hw
  | .tioClaim .., hw => cmd_completes hw
  | .tioRelease .., hw => cmd_completes hw
  | .tioStatusGet .., hw => cmd_completes hw
  | .iuAlloc .., hw => cmd_completes hw
  | .iuFree .., hw => cmd_completes hw
  | .iuSet .., hw => cmd_completes hw
  | .iuArm .., hw => cmd_completes hw
  | .iuRead .., hw => cmd_completes hw
  | .iuCalibrate .., hw => cmd_completes hw
  | .iuCalibrationEnd .., hw => onUnit_completes (of_decide_eq_true hw)
  | .tgAlloc .., hw => cmd_completes hw
  | .tgFree .., hw => cmd_completes hw
  | .tgArm .., hw => cmd_completes hw
  | .tgDisarm .., hw => cmd_completes hw
  | .tgStatusGet .., hw => cmd_completes hw
  | .tgExpertSet .., hw => cmd_completes hw
  | .cycStartSet .., hw => cmd_completes hw
  | .cycTableSet .., hw => cmd_completes hw
  | .cycOslotSet .., hw => cmd_completes hw
  | .cycIslotSet .., hw => cmd_completes hw
  | .cycStageGet .., hw => cmd_completes hw
  | .cycStatusGet .., hw => cmd_completes hw
  | .cycPeriodStage .., hw => cmd_completes hw
  | .cycPiWrite .., hw => cmd_completes hw
  | .cycPiRead .., hw => cmd_completes hw
  | .cycleCommit .., hw => cmd_completes hw
  | .cycleCancel .., hw => cmd_completes hw
  | .cycDiscard .., hw => cmd_completes hw
  | .cycleCommitForce .., hw => cmd_completes hw
  | .commitMismatchCheck, _ => ⟨_, rfl⟩
  | .sysGet .., hw => cmd_completes hw
  | .sensorGet .., hw => cmd_completes hw
  | .updateBegin .., hw => cmd_completes hw
  | .updateEraseDone, _ => ⟨_, rfl⟩
  | .updateData .., hw => cmd_completes hw
  | .updateCommit .., hw => cmd_completes hw
  | .updateVerifyDone .., _ => ⟨_, rfl⟩
  | .updateAbort .., hw => cmd_completes hw
  | .updateStatusGet .., hw => cmd_completes hw
  | .cfgSave .., hw => cmd_completes hw
  | .cfgBoardSet .., hw => cmd_completes hw
  | .cfgFactory .., hw => cmd_completes hw
  | .storeStatusGet .., hw => cmd_completes hw
  | .logRead .., hw => cmd_completes hw
  | .logSet .., hw => cmd_completes hw
  | .feedForce .., hw => cmd_completes hw
  | .storeWriteDone, _ => ⟨_, rfl⟩
  | .regRead .., hw => cmd_completes hw
  | .regWrite .., hw => cmd_completes hw
  | .evtGet .., hw => cmd_completes hw
  | .evtClear .., hw => cmd_completes hw
  | .evtMaskSet .., hw => cmd_completes hw
  | .evtRouteSet .., hw => cmd_completes hw
  | .freeze .., hw => cmd_completes hw
  | .ctxNop .., hw => cmd_completes hw
  | .levelSet .., hw => cmd_completes hw
  | .roleSet .., hw => cmd_completes hw
  | .ctxGet .., hw => cmd_completes hw
  | .ctxBind .., hw => cmd_completes hw
  | .ctxKeySet .., hw => cmd_completes hw
  | .ctxReset .., hw => cmd_completes hw
  | .reinTake .., hw => cmd_completes hw
  | .reinDrop .., hw => cmd_completes hw
  | .reinGet .., hw => cmd_completes hw
  | .ownSet .., hw => cmd_completes hw
  | .ownGet .., hw => cmd_completes hw
  | .reinBreak .., hw => cmd_completes hw
  | .leaseExpiry, _ => ⟨_, rfl⟩
  | .hcxDoorbell .., hw => onUnit_completes (of_decide_eq_true hw)
  | .sqEntryRead .., hw => onUnit_completes (of_decide_eq_true hw)
  | .cqSlotFreed .., hw => onUnit_completes (of_decide_eq_true hw)
  | .queueDmaError .., hw => onUnit_completes (of_decide_eq_true hw)
  | .spiWrite .., hw => onUnit_completes (by have := both hw; omega)
  | .spiRead .., hw => onUnit_completes (by have := both hw; omega)
  | .spiStatus .., hw => onUnit_completes (by have := both hw; omega)
  | .spiReset .., hw => onUnit_completes (by have := both hw; omega)
  | .spiVoidTransaction .., hw => onUnit_completes (by have := both hw; omega)
  | .inBandCommandFrame .., hw => onUnit_completes (of_decide_eq_true hw)
  | .eventFrameRepeat .., hw => onUnit_completes (of_decide_eq_true hw)
  | .pcieFlr .., hw => onUnit_completes (of_decide_eq_true hw)
  | .pcieLinkLoss, _ => ⟨_, rfl⟩
  | .perstNAssert, _ => ⟨_, rfl⟩
  | .rstNAssert .., _ => ⟨_, rfl⟩
  | .sysResetModuleReset .., hw => onUnit_completes (of_decide_eq_true hw)
  | .sysResetFirmwareRestart .., hw => onUnit_completes (of_decide_eq_true hw)
  | .watchdogRestart, _ => ⟨_, rfl⟩
  | .powerUp .., _ => ⟨_, rfl⟩
  | .lossOfPower, _ => ⟨_, rfl⟩
  | .resetHoldEnd .., _ => ⟨_, rfl⟩
  | .boot .., _ => ⟨_, rfl⟩
  | .firmwareReady, _ => ⟨_, rfl⟩
  | .bootConfirm, _ => ⟨_, rfl⟩
  | .frzNAssert .., _ => ⟨_, rfl⟩
  | .freezeEnter, _ => ⟨_, rfl⟩
  | .thermalStop .., hw => onUnit_completes (of_decide_eq_true hw)
  | .dgFirstWrite .., hw => onUnit_completes (of_decide_eq_true hw)
  | .dgPairTimeout .., hw => onUnit_completes (of_decide_eq_true hw)
  | .sysFreezeEnWrite .., hw => onUnit_completes (of_decide_eq_true hw)
  | .sysTapUnlock .., hw => onUnit_completes (of_decide_eq_true hw)
  | .sysTapLock .., hw => onUnit_completes (of_decide_eq_true hw)
  | .tsuEpochReset .., hw => onUnit_completes (of_decide_eq_true hw)
  | .mgtFeedForce .., hw => onUnit_completes (of_decide_eq_true hw)
  | .mgtLaserOvr .., hw => onUnit_completes (of_decide_eq_true hw)
  | .memStoreErase .., hw => onUnit_completes (of_decide_eq_true hw)
  | .regWriteGeneric .., hw => onUnit_completes (of_decide_eq_true hw)
  | .pairLoRead .., hw => onUnit_completes (of_decide_eq_true hw)
  | .pairLoWrite .., hw => onUnit_completes (of_decide_eq_true hw)
  | .tsuRawLoRead .., hw => onUnit_completes (of_decide_eq_true hw)
  | .tsuGenRead .., hw => onUnit_completes (both hw).1
  | .ftRawLoRead .., hw => onUnit_completes (of_decide_eq_true hw)
  | .ftGenRead .., hw => onUnit_completes (both hw).1
  | .portHalterRx0Read .., hw => onUnit_completes (both hw).1
  | .pmcChainRead .., hw => onUnit_completes (both hw).1
  | .tblLrnPop .., hw => onUnit_completes (both hw).1
  | .iuResPop .., hw => onUnit_completes (both hw).1
  | .tblRdSel .., hw => onUnit_completes (of_decide_eq_true hw)
  | .cycRdSel .., hw => onUnit_completes (of_decide_eq_true hw)
  | .portCommit .., hw => onUnit_completes (both hw).1
  | .swcCommit .., hw => onUnit_completes (of_decide_eq_true hw)
  | .arbCommit .., hw => onUnit_completes (of_decide_eq_true hw)
  | .arbCommitApply, _ => ⟨_, rfl⟩
  | .portEnableWrite .., hw => onUnit_completes (both hw).1
  | .portCapAdvWrite .., hw => onUnit_completes (both hw).1
  | .clkSynCfgWrite .., hw => onUnit_completes (both hw).1
  | .swcSampleWrite .., hw => onUnit_completes (both hw).1
  | .hcxRingTailWrite .., hw => ite_completes (both hw).2 (onUnit_completes (both hw).1)
  | .txRingTimeout .., hw => ite_completes (three hw).2 (onUnit_completes (three hw).1)
  | .ringDmaError .., hw => ite_completes (both hw).2 (onUnit_completes (both hw).1)
  | .txTimestampWriteback .., hw => ite_completes (three hw).2 (onUnit_completes (three hw).1)
  | .evtRearmWrite .., hw => onUnit_completes (of_decide_eq_true hw)
  | .eventHoldoffExpiry .., hw => onUnit_completes (of_decide_eq_true hw)
  | .logSuppressReport, _ => ⟨_, rfl⟩
  | .savedStateHourlyWrite, _ => ⟨_, rfl⟩
  | .tgCtrlArmWrite .., hw => onUnit_completes (both hw).1
  | .tgCtrlDisarmWrite .., hw => onUnit_completes (both hw).1
  | .iuCtrlArm .., hw => onUnit_completes (both hw).1
  | .iuCtrlDisarm .., hw => onUnit_completes (both hw).1
  | .iuCtrlFlush .., hw => onUnit_completes (both hw).1
  | .pmcSelWrite .., hw => onUnit_completes (both hw).1
  | .piPayloadWrite .., hw => onUnit_completes (lt_trans (of_decide_eq_true hw) (by decide))
  | .piSeqWrite .., hw => onUnit_completes (lt_trans (both hw).1 (by decide))
  | .tapExtest, _ => ⟨_, rfl⟩
  | .tapIdcode, _ => ⟨_, rfl⟩
  | .tapSamplePreload, _ => ⟨_, rfl⟩
  | .tapWaferRead .., _ => ⟨_, rfl⟩
  | .tapMemAddr .., _ => ⟨_, rfl⟩
  | .tapMemRead .., _ => ⟨_, rfl⟩
  | .tapFrzStatus, _ => ⟨_, rfl⟩
  | .tapBypass, _ => ⟨_, rfl⟩
  | .feedFailover .., _ => ⟨_, rfl⟩
  | .feedHandoverComplete .., _ => ⟨_, rfl⟩
  | .feedPresenceChange .., hw => onUnit_completes (of_decide_eq_true hw)
  | .feedLockout .., hw => onUnit_completes (of_decide_eq_true hw)
  | .sensorRead .., _ => ⟨_, rfl⟩
  | .ovenReady, _ => ⟨_, rfl⟩
  | .ovenOor .., _ => ⟨_, rfl⟩
  | .ovenWarmFail, _ => ⟨_, rfl⟩
  | .lossOfSignal .., hw => onUnit_completes (of_decide_eq_true hw)
  | .signalDetect .., hw => onUnit_completes (of_decide_eq_true hw)
  | .receiverSettled .., hw => onUnit_completes (of_decide_eq_true hw)
  | .receiverSettleTimeout .., hw => onUnit_completes (of_decide_eq_true hw)
  | .markReceive .., hw => onUnit_completes (of_decide_eq_true hw)
  | .missedMark .., hw => onUnit_completes (of_decide_eq_true hw)
  | .markSend .., hw => onUnit_completes (of_decide_eq_true hw)
  | .crumbDue .., hw => onUnit_completes (of_decide_eq_true hw)
  | .crumbForced .., hw => onUnit_completes (of_decide_eq_true hw)
  | .crumbDelete .., hw => onUnit_completes (of_decide_eq_true hw)
  | .crumbInsert .., hw => onUnit_completes (of_decide_eq_true hw)
  | .elasticOverrun .., hw => onUnit_completes (of_decide_eq_true hw)
  | .controlBeatDiscard .., hw => onUnit_completes (of_decide_eq_true hw)
  | .frameReceive .., hw => onUnit_completes (of_decide_eq_true hw)
  | .fillCrumbAbort .., hw => onUnit_completes (of_decide_eq_true hw)
  | .preemptReceive .., hw => onUnit_completes (of_decide_eq_true hw)
  | .resumeReceive .., hw => onUnit_completes (of_decide_eq_true hw)
  | .inboundFile, _ => ⟨_, rfl⟩
  | .cellSlot, _ => ⟨_, rfl⟩
  | .headSweep, _ => ⟨_, rfl⟩
  | .dramReturn .., hw => onUnit_completes (of_decide_eq_true hw)
  | .overflowRecordWrite, _ => ⟨_, rfl⟩
  | .dramSlotDraw .., _ => ⟨_, rfl⟩
  | .dramReadyChange .., _ => ⟨_, rfl⟩
  | .bufferEccError .., _ => ⟨_, rfl⟩
  | .reservedConnectionSetup .., hw => onUnit_completes (both hw).1
  | .gateEntryStart .., hw => onUnit_completes (both hw).1
  | .gateEntryEnd .., hw => onUnit_completes (of_decide_eq_true hw)
  | .frameTransmit .., hw => onUnit_completes (of_decide_eq_true hw)
  | .mPortTxAttempt .., hw => onUnit_completes (both hw).2
  | .mPortCollision .., hw => onUnit_completes (both hw).2
  | .mPortBackoffExpiry .., hw => onUnit_completes (both hw).2
  | .segmentFault .., hw => onUnit_completes (both hw).2
  | .segmentRetry .., hw => onUnit_completes (both hw).2
  | .sgmiiInbandWord .., hw => onUnit_completes (of_decide_eq_true hw)
  | .stdBlockLockChange .., hw => onUnit_completes (of_decide_eq_true hw)
  | .laserFault .., hw => onUnit_completes (of_decide_eq_true hw)
  | .qualityUpdate .., hw => onUnit_completes (of_decide_eq_true hw)
  | .halterSend .., hw => onUnit_completes (of_decide_eq_true hw)
  | .halterPeriodic .., hw => onUnit_completes (of_decide_eq_true hw)
  | .halterReceive .., hw => onUnit_completes (of_decide_eq_true hw)
  | .halterTimeout .., hw => onUnit_completes (of_decide_eq_true hw)
  | .messageDiscard .., hw => onUnit_completes (of_decide_eq_true hw)
  | .dozeEntry .., hw => onUnit_completes (of_decide_eq_true hw)
  | .dozeReceive .., hw => onUnit_completes (of_decide_eq_true hw)
  | .dozeWake .., hw => onUnit_completes (of_decide_eq_true hw)
  | .trainAlignment .., hw => onUnit_completes (of_decide_eq_true hw)
  | .timeReqSend .., hw => onUnit_completes (of_decide_eq_true hw)
  | .timeReqReceive .., hw => onUnit_completes (of_decide_eq_true hw)
  | .timeRespReceive .., hw => onUnit_completes (of_decide_eq_true hw)
  | .exchangeLost .., hw => onUnit_completes (of_decide_eq_true hw)
  | .infoSend .., hw => onUnit_completes (both hw).1
  | .infoReceive .., hw => onUnit_completes (of_decide_eq_true hw)
  | .infoVoid .., hw => onUnit_completes (both hw).1
  | .upstreamSelect .., hw => onUnit_completes (of_decide_eq_true hw)
  | .upstreamChange .., hw => onUnit_completes (of_decide_eq_true hw)
  | .firstLockTimeout .., hw => onUnit_completes (of_decide_eq_true hw)
  | .traceHoldExpiry .., hw => onUnit_completes (of_decide_eq_true hw)
  | .vernierFitLoss .., hw => onUnit_completes (of_decide_eq_true hw)
  | .ppsAlignMeasure .., hw => onUnit_completes (of_decide_eq_true hw)
  | .timeSwitchStart, _ => ⟨_, rfl⟩
  | .slewEnd, _ => ⟨_, rfl⟩
  | .targetReconvert, _ => ⟨_, rfl⟩
  | .ptpMessageReceive .., hw => onUnit_completes (of_decide_eq_true hw)
  | .ptpIntervalSend .., hw => onUnit_completes (both hw).1
  | .ptpAnnounceSend .., hw => onUnit_completes (both hw).1
  | .announceReceiptTimeout .., hw => onUnit_completes (of_decide_eq_true hw)
  | .dpllComparison .., _ => ⟨_, rfl⟩
  | .referenceQualification .., _ => ⟨_, rfl⟩
  | .referenceLost .., hw => onUnit_completes (of_decide_eq_true hw)
  | .autoDecision, _ => ⟨_, rfl⟩
  | .rselChange .., _ => ⟨_, rfl⟩
  | .referenceSwitchDone .., _ => ⟨_, rfl⟩
  | .synthLock .., hw => onUnit_completes (of_decide_eq_true hw)
  | .synthLockRetry .., hw => onUnit_completes (of_decide_eq_true hw)
  | .lineSynthUnlock .., hw => onUnit_completes (of_decide_eq_true hw)
  | .coreSynthUnlock, _ => ⟨_, rfl⟩
  | .dramSynthUnlock, _ => ⟨_, rfl⟩
  | .protSwitch .., hw => onUnit_completes (of_decide_eq_true hw)
  | .protWtrReturn .., hw => onUnit_completes (of_decide_eq_true hw)
  | .ageScanVisit .., hw => onUnit_completes (of_decide_eq_true hw)
  | .learnFilterExpiry, _ => ⟨_, rfl⟩
  | .shadowCompareUnit, _ => ⟨_, rfl⟩
  | .tableEccError .., _ => ⟨_, rfl⟩
  | .tgFire .., hw => onUnit_completes (of_decide_eq_true hw)
  | .tgPulseEnd .., hw => onUnit_completes (of_decide_eq_true hw)
  | .cycGenAutoArm, _ => ⟨_, rfl⟩
  | .cycleStart, _ => ⟨_, rfl⟩
  | .launchCapture .., hw => onUnit_completes (of_decide_eq_true hw)
  | .launch .., hw => onUnit_completes (of_decide_eq_true hw)
  | .iuStartEdge .., hw => onUnit_completes (of_decide_eq_true hw)
  | .iuStopEdge .., hw => onUnit_completes (of_decide_eq_true hw)
  | .iuGateEdge .., hw => onUnit_completes (of_decide_eq_true hw)
  | .iuConversionDone .., hw => onUnit_completes (of_decide_eq_true hw)
  | .iuDeadTimeEnd .., hw => onUnit_completes (of_decide_eq_true hw)
  | .iuWindowExpiry .., hw => onUnit_completes (of_decide_eq_true hw)
  | .iuStopOverflow .., hw => onUnit_completes (of_decide_eq_true hw)
  | .pmuCounterWrap .., hw => onUnit_completes (of_decide_eq_true hw)
  | .fixedCounterWrap .., hw => onUnit_completes (of_decide_eq_true hw)
  | .firmwareStop, _ => ⟨_, rfl⟩
  | .mPortEntersUp .., hw => onUnit_completes (both hw).2
  | .feedLockoutEnd .., hw => onUnit_completes (of_decide_eq_true hw)
  | .fineValidReturn .., hw => onUnit_completes (of_decide_eq_true hw)

end Sys2Proof.Machine

open Sys2Proof Sys2Proof.Machine

/-- Settles O57: `exec_completes`, an arm for each command. -/
theorem wellFormedCommandsComplete : Obligations.WellFormedCommandsComplete := fun i s hw => exec_completes s i hw

end

section
/-! R321 to R326, R328, R331, R333, R339: packets and replies handed over by the transports. -/

namespace Sys2Proof.Machine

open Host

variable {s : State} {c : Nat}

theorem bitAt_onCx (s : State) (c : Nat) (f : Ctx → Ctx) (a i : Nat) : (s.onCx c f).bitAt a i = s.bitAt a i := rfl

/-! PCIe queues (R321 to R323). -/

theorem exec_hcxDoorbell {v : Word} (hup : s.life = .up) (hc : c < 4) (hen : s.bitAt (Reg.hcxQCtrl c) 0 = true)
    (hsize : v.toNat < s.fld (Reg.hcxSqSize c) 0 7) (h64 : v.toNat < 64) :
    exec (.hcxDoorbell c v) s = .next (s.onCx c fun x => { x with sqTail := v.toNat }) := by
  have hSlot : getFld v 0 6 = v.toNat := getFld_zero_of_lt h64
  refine (onUnit_event hc hup _).trans (congrArg _ (if_pos ?_))
  simp [hen, hSlot, hsize, h64]

theorem exec_sqEntryRead {slot : List Byte} (hup : s.life = .up) (hc : c < 4) (hfw : s.mgt.fw = .ready)
    (hen : s.bitAt (Reg.hcxQCtrl c) 0 = true) (hroom : s.hasRoom c = true) (hne : (s.cx c).sqTail ≠ s.fld (Reg.hcxSqHead c) 0 6) :
    exec (.sqEntryRead c slot) s = .next
      ((s.wr (Reg.hcxSqHead c) (w32 ((s.fld (Reg.hcxSqHead c) 0 6 + 1) % s.fld (Reg.hcxSqSize c) 0 7))).deliverPacket c
        (slot.take (20 + leNat (slice slot 6 2))) false) :=
  (onUnit_of_lt hc _).trans (congrArg _ (if_pos (by simp [fwOn_iff.mpr ⟨hup, hfw⟩, hen, hroom, hne])))

theorem exec_cqSlotFreed (hup : s.life = .up) (hc : c < 4) (v : Word) : exec (.cqSlotFreed c v) s = .next (s.cqHead c v) :=
  onUnit_event hc hup _

/-- What a DMA error on a command read leaves before its source is raised (R323). -/
def State.queuesStopped (s : State) (c : Nat) : State :=
  (((s.stick (Reg.hcxStat c) 9).setFld (Reg.hcxQCtrl c) 0 1 0).onCx c fun x => { x with held := x.held.dropLast }).syncTail c

theorem exec_queueDmaError (hup : s.life = .up) (hc : c < 4) :
    exec (.queueDmaError c false) s = .next ((s.queuesStopped c).raise (243 + c)) := onUnit_event hc hup _

theorem queuesStopped_spec (hc : c < 4) :
    (s.queuesStopped c).bitAt (Reg.hcxQCtrl c) 0 = false ∧ (s.queuesStopped c).bitAt (Reg.hcxStat c) 9 = true ∧
      ((s.queuesStopped c).cx c).held = (s.cx c).held.dropLast := by
  have hCtrl : Reg.hcxQCtrl c ≠ Reg.hcxCqTail c := by unfold Reg.hcxQCtrl Reg.hcxCqTail; omega
  have hStat : Reg.hcxStat c ≠ Reg.hcxCqTail c := by unfold Reg.hcxStat Reg.hcxCqTail; omega
  have hStatCtrl : Reg.hcxStat c ≠ Reg.hcxQCtrl c := by unfold Reg.hcxStat Reg.hcxQCtrl; omega
  unfold State.queuesStopped State.syncTail
  rw [if_pos hc]
  refine ⟨?_, ?_, ?_⟩
  · rw [bitAt_wr_of_ne _ _ hCtrl, bitAt_onCx, bitAt_clear _ _ (by decide)]
  · rw [bitAt_wr_of_ne _ _ hStat, bitAt_onCx, bitAt_setFld_of_ne _ _ _ _ _ hStatCtrl, bitAt_stick_self s _ (by decide)]
  · rw [State.cx_wr, State.cx_onCx_self, State.cx_setFld, State.cx_stick]

/-! SPI (R324, R325). -/

theorem sub_four_lt_two (hc : c = 4 ∨ c = 5) : c - 4 < 2 ∧ ¬ c < 4 := by omega

theorem exec_spiWrite {bs : List Byte} (hup : s.life = .up) (hc : c = 4 ∨ c = 5) (hlen : 16 ≤ bs.length) (hfw : s.mgt.fw = .ready)
    (hheld : (s.cx c).held.length < 2) : exec (.spiWrite c bs) s = .next (s.deliverPacket c bs true) := by
  obtain ⟨hunit, hno⟩ := sub_four_lt_two hc
  have hOpen : s.spiFull c = false := by simp [State.spiFull, live_of_up hup, hfw]; omega
  refine (onUnit_event hunit hup _).trans (congrArg _ ?_)
  simp only [hno, if_false, if_neg (Nat.not_lt.mpr hlen), hOpen, Bool.false_eq_true, fwOn_iff.mpr ⟨hup, hfw⟩, if_true]

theorem exec_spiRead {r : Reply} {rest : List Reply} {n : Nat} (hup : s.life = .up) (hc : c = 4 ∨ c = 5)
    (hr : (s.cx c).replies = r :: rest) :
    exec (.spiRead c n) s = .next (s.onCx c fun x =>
      { x with miso := misoBytes (r.spi c) n, replies := if 2 + (r.spi c).length ≤ n then rest else r :: rest }) := by
  obtain ⟨hunit, hno⟩ := sub_four_lt_two hc
  refine (onUnit_event hunit hup _).trans (congrArg _ ?_)
  simp only [hno, if_false, hr]

theorem exec_spiStatus (hup : s.life = .up) (hc : c = 4 ∨ c = 5) :
    exec (.spiStatus c) s
      = .next (s.onCx c fun x => { x with miso := [BitVec.ofNat 8 (s.spiStatusByte c)], dropped := false, framing := false }) :=
  (onUnit_event (sub_four_lt_two hc).1 hup _).trans (congrArg _ (if_neg (sub_four_lt_two hc).2))

theorem exec_spiReset (hup : s.life = .up) (hc : c = 4 ∨ c = 5) : exec (.spiReset c 0xF0) s = .next (s.ctxReset c true) :=
  (onUnit_event (sub_four_lt_two hc).1 hup _).trans (congrArg _ ((if_neg (sub_four_lt_two hc).2).trans (if_pos rfl)))

theorem exec_spiVoidTransaction (hup : s.life = .up) (hc : c = 4 ∨ c = 5) :
    exec (.spiVoidTransaction c) s = .next (s.onCx c fun x => { x with framing := true }) :=
  (onUnit_event (sub_four_lt_two hc).1 hup _).trans (congrArg _ (if_neg (sub_four_lt_two hc).2))

/-! In-band frames and the resets of PCIe (R328, R339, R369). -/

theorem exec_inBandCommandFrame {port : Nat} {frame : List Byte} (hup : s.life = .up) (hp : port < 28) (hab : s.absent port = false)
    (hfw : s.mgt.fw = .ready)
    (hhead : ∀ o, o = (if beNat (slice frame 12 2) = 0x8100 then 16 else 12) →
      beNat (slice frame o 2) = 0x88B5 ∧ frame.getD (o + 2) 0 = 1 ∧ frame.getD (o + 3) 0 = 0)
    (hc : c = 6 ∨ c = 7) (hbound : s.bitAt (Reg.hcxBind c) 7 = true) (hmac : (s.cx c).mac = beNat (slice frame 0 6))
    (hfirst : c = 7 → s.bitAt (Reg.hcxBind 6) 7 = true → (s.cx 6).mac ≠ (s.cx 7).mac) :
    exec (.inBandCommandFrame port frame) s = .next (s.inBand c port frame) := by
  obtain ⟨htype, hver, hres⟩ := hhead _ rfl
  have hfind : ([6, 7].find? fun c => s.bitAt (Reg.hcxBind c) 7 && decide ((s.cx c).mac = beNat (slice frame 0 6))) = some c := by
    rcases hc with rfl | rfl
    · simp [hbound, hmac]
    · have hno : (s.bitAt (Reg.hcxBind 6) 7 && decide ((s.cx 6).mac = beNat (slice frame 0 6))) = false := by
        rw [Bool.and_eq_false_iff, decide_eq_false_iff_not, ← hmac]
        cases hb : s.bitAt (Reg.hcxBind 6) 7
        · exact .inl rfl
        · exact .inr (hfirst rfl hb)
      simp [hno, hbound, hmac]
  refine (onUnit_of_lt hp _).trans (congrArg _ ?_)
  rw [if_neg (by simp [fwOn_iff.mpr ⟨hup, hfw⟩, hab])]
  dsimp only
  rw [if_neg (not_or.mpr ⟨not_not.mpr htype, not_or.mpr ⟨not_not.mpr hver, not_not.mpr hres⟩⟩), hfind]

theorem exec_eventFrameRepeat (hup : s.life = .up) (h6 : 6 ≤ c) (hc : c < 8) (hfw : s.mgt.fw = .ready) (hp : s.evtPending c = true)
    (hlast : ((s.cx c).lastMsg.all fun r => decide (r + 1250000000 ≤ s.now)) = true) :
    exec (.eventFrameRepeat c) s = .next (s.eventFrame c) :=
  (onUnit_of_lt hc _).trans (congrArg _ (if_pos (by simp only [h6, fwOn_iff.mpr ⟨hup, hfw⟩, hp, hlast]; rfl)))

/-- A command frame from a port other than the bound one counts and has no other effect (R328). -/
theorem inBand_of_port_ne {p : Nat} (f : List Byte) (h : s.fld (Reg.hcxBind c) 0 5 ≠ p) :
    s.inBand c p f = s.count (Reg.hcxAuthFail c) 242 := if_pos h

/-! A packet that passes checks 1 to 4 (R331, R333). -/

/-- A gap in the sequence counts and reports; what waits in a context stands (R331). -/
theorem gap_noted (t : State) (c : Nat) (gap : Bool) :
    Noted (fun _ => True) t (if gap then ((t.stick (Reg.hcxStat c) 8).count (Reg.hcxSeqGaps c) 242).raise 242 else t) :=
  .ite (((Noted.stick t 8 trivial).trans (count_noted _ _ (by omega)).any).trans (raise_noted_any _ _)) (.refl t)

theorem deliverPacket_held {bs : List Byte} (h16 : 16 ≤ bs.length) (hcap : leNat (slice bs 6 2) ≤ 4072)
    (hlen : bs.length = 20 + leNat (slice bs 6 2))
    (hcrc : crc32c (bs.take (16 + leNat (slice bs 6 2))) = BitVec.ofNat 32 (leNat (slice bs (16 + leNat (slice bs 6 2)) 4)))
    (hres : leNat (slice bs 12 4) = 0) (hbits : bs.getD 0 0 &&& 0x0C = 0) (hver : bs.getD 0 0 >>> 4 = 1)
    (hop : leNat (slice bs 2 2) ∈ opcodes) :
    ((s.deliverPacket c bs true).cx c).held
        = (s.cx c).held ++ [{ op := leNat (slice bs 2 2), tag := leNat (slice bs 4 2), flags := bs.getD 0 0 &&& 3, at_ := s.raw }] ∧
      ((s.deliverPacket c bs true).cx c).expSeq = some ((leNat (slice bs 8 4) + 1) % 2 ^ 32) := by
  have hZero : ∀ i, i = 2 ∨ i = 3 → (bs.getD 0 0).getLsbD i = false := fun i hi => by
    have h := congrArg (fun b : Byte => b.getLsbD i) hbits
    rcases hi with rfl | rfl <;> simpa using h
  have hShort : ¬(bs.length < 16 ∨ 4072 < leNat (slice bs 6 2) ∨ bs.length < 20 + leNat (slice bs 6 2)) := by omega
  have hForm : ((true && bs.length != 20 + leNat (slice bs 6 2)) || leNat (slice bs 12 4) != 0 || (bs.getD 0 0).getLsbD 3
      || (bs.getD 0 0).getLsbD 2) = false := by
    simp only [hlen, hres, hZero 3 (.inr rfl), hZero 2 (.inl rfl)]
    simp
  have hKnown : ¬((bs.getD 0 0) >>> 4 ≠ 1 ∨ (!opcodes.contains (leNat (slice bs 2 2))) = true) :=
    not_or.mpr ⟨not_not.mpr hver, by simp [hop]⟩
  unfold State.deliverPacket
  dsimp only
  rw [if_neg hShort, if_neg (not_not.mpr hcrc), if_neg (by rw [hForm]; simp), if_neg hKnown]
  refine ⟨?_, ?_⟩
  · rw [State.cx_onCx_self]
    dsimp only
    rw [(gap_noted _ c _).held, State.cx_onCx_self]
    dsimp only
    rw [State.cx_onCx_self]
    rfl
  · rw [State.cx_onCx_self]
    dsimp only
    rw [(gap_noted _ c _).expSeq, State.cx_onCx_self]

end Sys2Proof.Machine

open Sys2Proof Sys2Proof.Machine

/-- Settles O5: each event by its equation; `queuesStopped_spec` reads what a DMA error leaves. -/
theorem transportsComplete : Obligations.TransportsComplete := by
  unfold Obligations.TransportsComplete
  refine fun s c hup => ⟨fun v hc => exec_hcxDoorbell hup hc, fun slot hc => exec_sqEntryRead hup hc, fun v hc => exec_cqSlotFreed hup hc v,
    fun hc => ⟨_, exec_queueDmaError hup hc, queuesStopped_spec hc⟩, fun bs => exec_spiWrite hup, fun r rest n hc hr => ⟨fun hn => ?_, fun hn => ?_⟩,
    exec_spiStatus hup, exec_spiReset hup, exec_spiVoidTransaction hup⟩
  · rw [exec_spiRead hup hc hr, if_pos hn]
  · rw [exec_spiRead hup hc hr, if_neg (by omega)]

/-- Settles O6: the resets are the contexts' own, one after the other. -/
theorem inBandAndPcieComplete : Obligations.InBandAndPcieComplete := by
  unfold Obligations.InBandAndPcieComplete
  exact ⟨fun s hup => ⟨fun _ _ _ hp hab hfw hhead => exec_inBandCommandFrame hup hp hab hfw hhead, fun _ h6 hc => exec_eventFrameRepeat hup h6 hc,
    fun _ hc => onUnit_event hc hup _, next_event hup _, next_event hup _⟩, fun _ _ _ f => inBand_of_port_ne f⟩

/-- Settles O7: the checks of length, CRC, form and opcode pass one after the other (`deliverPacket_held`). -/
theorem packetIsHeld : Obligations.PacketIsHeld := by
  unfold Obligations.PacketIsHeld
  exact fun s c bs _ => deliverPacket_held

/-- Settles O9: reception and an answer stand in `Beside`, which names the registers they may set. -/
theorem answersLeaveTheRest : Obligations.AnswersLeaveTheRest := by
  unfold Obligations.AnswersLeaveTheRest
  intro s h op c tag st ps d t hctx hc ht
  have hb : Beside (fun a => a = Reg.hcxCmdCount h.ctx ∨ a = Reg.hcxCqTail c ∨ EvtReg a ∨ PmuReg a) s t := by
    rcases ht with rfl | rfl
    · exact receive_beside s h op (fun _ he => .inr (.inr (.inl he))) (fun _ hp => .inr (.inr (.inr hp))) (.inl rfl)
    · exact reply_beside s c op tag st ps d hc (fun _ he => .inr (.inr (.inl he))) (.inr (.inl rfl))
  have hfw : t.mgt.fw = s.mgt.fw := by rw [hb.mgt]
  refine ⟨by rw [hb.eq], hb.rein, by rw [hb.eq], by rw [hb.eq], by rw [hb.eq], by rw [hb.eq], by rw [hb.eq], by rw [hb.eq], by rw [hb.eq],
    by rw [hb.eq], by rw [hb.eq], by rw [hb.eq], by rw [hb.eq], by rw [hb.eq], by rw [hb.eq], by rw [hb.eq], by rw [hb.eq], hfw,
    by rw [hb.eq], fun a hcnt htail hevt hpmc hs hlo hhi hpc => hb.rd a ?_⟩
  rintro (e | e | ⟨e, j, he, hj, e'⟩ | ⟨m, hm, e⟩ | e | e | e | e)
  · exact hcnt e
  · exact htail e
  · exact hevt e j he hj e'
  · exact e.elim (hpmc m hm).1 (hpmc m hm).2
  · exact hs e
  · exact hlo e
  · exact hhi e
  · exact hpc e

end

section
/-! R38: what leaving UP and the operations it runs leave of every port. -/

namespace Sys2Proof.Machine

open Host

/-- A port but for the stream it sends and the suspension of the frame it receives. -/
def PortSt.still (x : PortSt) : PortSt := { x with tx := {}, txMark := 0, txSusp := false, rxSusp := false }

/-- Every port but for the stream it sends and the suspension of the frame it receives. -/
def State.stills (s : State) (p : Nat) : PortSt := (s.pt p).still

theorem Noted.stills {A : Nat → Prop} {s t : State} (h : Noted A s t) : t.stills = s.stills :=
  funext fun p => congrArg PortSt.still (h.pt p)

/-- A fold leaves of the ports what each of its steps leaves. -/
theorem foldl_stills {β : Type} (f : State → β → State) (l : List β) (s : State) (h : ∀ t b, (f t b).stills = t.stills) :
    (l.foldl f s).stills = s.stills := by
  induction l generalizing s with
  | nil => rfl
  | cons b l ih => rw [List.foldl_cons, ih, h]

/-! An update of what no port holds. -/

section
variable (s : State)

@[simp] theorem wr_stills (a : Nat) (v : Word) : (s.wr a v).stills = s.stills := (rfl)
@[simp] theorem setFld_stills (a lo len v : Nat) : (s.setFld a lo len v).stills = s.stills := (rfl)
@[simp] theorem stick_stills (a i : Nat) : (s.stick a i).stills = s.stills := (rfl)
@[simp] theorem onCx_stills (c : Nat) (f : Ctx → Ctx) : (s.onCx c f).stills = s.stills := (rfl)
@[simp] theorem onPtm_stills (p : Nat) (f : PortTime → PortTime) : (s.onPtm p f).stills = s.stills := (rfl)
@[simp] theorem onDm_stills (d : Nat) (f : DomSt → DomSt) : (s.onDm d f).stills = s.stills := (rfl)
@[simp] theorem onMgt_stills (f : Mgt → Mgt) : (s.onMgt f).stills = s.stills := (rfl)
@[simp] theorem onSw_stills (f : Sw → Sw) : (s.onSw f).stills = s.stills := (rfl)
@[simp] theorem onTbl_stills (f : Tables → Tables) : (s.onTbl f).stills = s.stills := (rfl)
@[simp] theorem onCyc_stills (f : Cyc → Cyc) : (s.onCyc f).stills = s.stills := (rfl)
@[simp] theorem setRein_stills (r : Nat) (v : Option Rein) : (s.setRein r v).stills = s.stills := (rfl)
@[simp] theorem setPmc_stills (m v : Nat) : (s.setPmc m v).stills = s.stills := (rfl)
@[simp] theorem drawn_stills : s.drawn.stills = s.stills := (rfl)
@[simp] theorem with_regs_stills (v : Tab Word) : ({ s with regs := v } : State).stills = s.stills := (rfl)
@[simp] theorem with_pendK_stills (v : Tab Word) : ({ s with pendK := v } : State).stills = s.stills := (rfl)
@[simp] theorem with_pendF_stills (v : Tab Word) : ({ s with pendF := v } : State).stills = s.stills := (rfl)
@[simp] theorem with_deferred_stills (v : List Deferred) : ({ s with deferred := v } : State).stills = s.stills := (rfl)
@[simp] theorem with_pmuFix_stills (v : Tab Nat) : ({ s with pmuFix := v } : State).stills = s.stills := (rfl)
@[simp] theorem with_tim_stills (v : Tim) : ({ s with tim := v } : State).stills = s.stills := (rfl)
@[simp] theorem raiseAt_stills (n : Nat) (w : Word) (u : Nat) : (s.raiseAt n w u).stills = s.stills :=
  (Noted.raiseAt (A := fun _ => True) s w u (fun _ _ => trivial) fun _ _ => trivial).stills
@[simp] theorem raise_stills (n : Nat) : (s.raise n).stills = s.stills := raiseAt_stills s n _ _
@[simp] theorem raiseFw_stills (n : Nat) : (s.raiseFw n).stills = s.stills := by simp [State.raiseFw, apply_ite State.stills]
@[simp] theorem raiseIf_stills (b : Bool) (n : Nat) : (s.raiseIf b n).stills = s.stills := by simp [State.raiseIf, apply_ite State.stills]
@[simp] theorem logRec_stills (src code : Nat) (args : List Nat) : (s.logRec src code args).stills = s.stills :=
  (logRec_noted_any s src code args).stills
@[simp] theorem count_stills (a src : Nat) : (s.count a src).stills = s.stills := by simp [State.count, apply_ite State.stills]
@[simp] theorem countP_stills (a p : Nat) : (s.countP a p).stills = s.stills := count_stills s a _

end

/-! A port changed in what is not the stream it sends, or in that alone. -/

theorem onPt_stills (s : State) (p : Nat) (f : PortSt → PortSt) (hf : ∀ x, (f x).still = x.still) : (s.onPt p f).stills = s.stills := by
  funext q
  rw [State.stills, State.pt_onPt]
  split
  · next h => rw [hf, h]; rfl
  · rfl

/-! The operations, in the order of their files. -/

@[simp] theorem sample_stills (s : State) (m : Nat) : (State.sample s m).stills = s.stills := by simp [State.sample, apply_ite State.stills]
@[simp] theorem pmcInc_stills (f : Nat) (s : State) (m : Nat) : (State.pmcInc f s m).stills = s.stills := by
  induction f generalizing s m with
  | zero => rfl
  | succ f ih =>
    unfold State.pmcInc
    simp [apply_ite State.stills, ih]
@[simp] theorem fixInc_stills (s : State) (n : Nat) : (State.fixInc s n).stills = s.stills := by simp [State.fixInc, apply_ite State.stills]
@[simp] theorem perf_stills (s : State) (n : Nat) : (State.perf s n).stills = s.stills := by simp [State.perf, apply_ite State.stills, foldl_stills]
@[simp] theorem syncTail_stills (s : State) (c : Nat) : (State.syncTail s c).stills = s.stills := by simp [State.syncTail, apply_ite State.stills]
@[simp] theorem reply_stills (s : State) (c : Nat) (op : Nat) (tag : Nat) (status : Nat) (params : List Nat) (deferred : Bool) : (State.reply s c op tag status params deferred).stills = s.stills := by simp [State.reply, apply_ite State.stills]
@[simp] theorem complete_stills (s : State) (op : Nat) (idx : Nat) (status : Nat) (params : List Nat) : (State.complete s op idx status params).stills = s.stills := by
  unfold State.complete
  repeat' split
  all_goals simp
@[simp] theorem armCause_stills (s : State) : s.armCause.stills = s.stills := by
  unfold State.armCause
  split <;> rfl
@[simp] theorem setHold_stills (s : State) (d : Nat) (on : Bool) : (State.setHold s d on).stills = s.stills := by simp [State.setHold, apply_ite State.stills]
@[simp] theorem setDomState_stills (s : State) (d : Nat) (n : Nat) : (State.setDomState s d n).stills = s.stills := by simp [State.setDomState, apply_ite State.stills]
@[simp] theorem loseUpstream_stills (s : State) (d : Nat) : (s.loseUpstream d).stills = s.stills := by
  unfold State.loseUpstream
  generalize s.domState d = n
  split <;> simp
@[simp] theorem clearHist_stills (s : State) (p : Nat) : (State.clearHist s p).stills = s.stills := by simp [State.clearHist]
@[simp] theorem dropUpstream_stills (s : State) (p : Nat) : (State.dropUpstream s p).stills = s.stills := by simp [State.dropUpstream, apply_ite State.stills]
@[simp] theorem stopTime_stills (s : State) (p : Nat) : (State.stopTime s p).stills = s.stills := by simp [State.stopTime]
@[simp] theorem countRx_stills (s : State) (p : Nat) (n : Nat) (max : Nat) : (State.countRx s p n max).stills = s.stills := by simp [State.countRx]
@[simp] theorem poolMark_stills (s : State) : (State.poolMark s).stills = s.stills := by simp [State.poolMark]
@[simp] theorem freeCells_stills (s : State) (n : Nat) : (State.freeCells s n).stills = s.stills := by simp [State.freeCells]
@[simp] theorem setFrame_stills (s : State) (id : Nat) (f : Option Frm) : (State.setFrame s id f).stills = s.stills := by simp [State.setFrame]
@[simp] theorem advance_stills (s : State) (c : Nat) (r : Nat) (k : Nat) : (State.advance s c r k).stills = s.stills := by simp [State.advance]
@[simp] theorem ringMsg_stills (s : State) (c : Nat) (r : Nat) : (State.ringMsg s c r).stills = s.stills := by simp [State.ringMsg, apply_ite State.stills]
@[simp] theorem putTxBack_stills (s : State) (c : Nat) (r : Nat) (h : Nat) (k : Nat) (st : Nat) (stamp : Option (Raw × Byte)) : (State.putTxBack s c r h k st stamp).stills = s.stills := by simp [State.putTxBack, foldl_stills]
@[simp] theorem flushWb_stills (f : Nat) (s : State) (c r : Nat) : (State.flushWb f s c r).stills = s.stills := by
  induction f generalizing s with
  | zero => rfl
  | succ f ih =>
    unfold State.flushWb
    repeat' split
    all_goals simp [ih]
@[simp] theorem txStatus_stills (s : State) (key : Nat) (at_ : Nat) (st : Option Nat) (left : Option Nat) : (State.txStatus s key at_ st left).stills = s.stills := by simp [State.txStatus]
@[simp] theorem flushAll_stills (s : State) (c : Nat) (r : Nat) : (State.flushAll s c r).stills = s.stills := by simp [State.flushAll]
@[simp] theorem txGone_stills (s : State) (f : Frm) : (State.txGone s f).stills = s.stills := by
  unfold State.txGone
  repeat' split
  all_goals simp
@[simp] theorem release_stills (s : State) (id : Nat) : (State.release s id).stills = s.stills := by
  unfold State.release
  repeat' split
  all_goals simp
@[simp] theorem setVq_stills (s : State) (k : Nat) (l : List Copy) : (State.setVq s k l).stills = s.stills := by simp [State.setVq]
@[simp] theorem subOcc_stills (s : State) (q : Nat) (n : Nat) : (State.subOcc s q n).stills = s.stills := by simp [State.subOcc]
@[simp] theorem countQ_stills (s : State) (a : Nat) : (State.countQ s a).stills = s.stills := by simp [State.countQ]
@[simp] theorem dropCopy_stills (s : State) (q : Nat) (c : Copy) : (State.dropCopy s q c).stills = s.stills := by
  unfold State.dropCopy
  repeat' split
  all_goals simp
@[simp] theorem setStage_stills (s : State) (e : Nat) (l : List Staged) : (State.setStage s e l).stills = s.stills := by simp [State.setStage]
@[simp] theorem setLineCopy_stills (s : State) (e : Nat) (c : Option Staged) : (State.setLineCopy s e c).stills = s.stills := by simp [State.setLineCopy]
@[simp] theorem setOpen_stills (s : State) (e : Nat) (k : Option Nat) : (State.setOpen s e k).stills = s.stills := by simp [State.setOpen]
@[simp] theorem putLine_stills (s : State) (p : Nat) (r : List Beat × LineTx × Nat) : (s.putLine p r).stills = s.stills :=
  onPt_stills s p _ fun _ => rfl
@[simp] theorem wakeTx_stills (s : State) (p : Nat) : (s.wakeTx p).stills = s.stills := by simp [State.wakeTx, apply_ite State.stills]
@[simp] theorem emit_stills (s : State) (p : Nat) (limit : Option Nat) (bs : List Beat) : (s.emit p limit bs).stills = s.stills := by
  simp [State.emit, apply_ite State.stills]
@[simp] theorem resumeTx_stills (s : State) (p : Nat) : (s.resumeTx p).stills = s.stills := by
  unfold State.resumeTx
  split
  · rw [onPt_stills (s.emit p none [resumeBeat]) p (fun y => { y with txSusp := false }) fun _ => rfl, emit_stills]
  · rfl
@[simp] theorem sent_stills (s : State) (e : Nat) (b : List Byte) (ending : Nat) (ts : Nat) (out : Option Nat) (cls : Nat) (hint : Nat) : (State.sent s e b ending ts out cls hint).stills = s.stills := by simp [State.sent, apply_ite State.stills]
@[simp] theorem unqueue_stills (s : State) (c : Staged) : (State.unqueue s c).stills = s.stills := by simp [State.unqueue, apply_ite State.stills]
@[simp] theorem cutLine_stills (s : State) (e reason : Nat) : (s.cutLine e reason).stills = s.stills := by
  unfold State.cutLine
  repeat' split
  all_goals simp
@[simp] theorem purgeEgress_stills (s : State) (e : Nat) : (State.purgeEgress s e).stills = s.stills := by
  unfold State.purgeEgress
  simp [foldl_stills]
@[simp] theorem setRing_stills (s : State) (k : Nat) (l : List Copy) : (State.setRing s k l).stills = s.stills := by simp [State.setRing]
@[simp] theorem dropK_stills (s : State) (p : Nat → Bool) : (State.dropK s p).stills = s.stills := by simp [State.dropK]
@[simp] theorem restoreStreams_stills (s : State) : s.restoreStreams.stills = s.stills := by
  unfold State.restoreStreams
  split <;> rfl
@[simp] theorem restoreCycle_stills (s : State) : (State.restoreCycle s).stills = s.stills := by simp [State.restoreCycle, apply_ite State.stills]
@[simp] theorem abortUpdate_stills (s : State) : (State.abortUpdate s).stills = s.stills := by
  unfold State.abortUpdate
  repeat' split
  all_goals simp
@[simp] theorem discardStaged_stills (s : State) (r : Nat) : (State.discardStaged s r).stills = s.stills := by simp [State.discardStaged, apply_ite State.stills]
@[simp] theorem loseRein_stills (s : State) (r : Nat) : (State.loseRein s r).stills = s.stills := by
  unfold State.loseRein
  repeat' split
  all_goals simp
@[simp] theorem breakReins_stills (s : State) (c : Nat) : (State.breakReins s c).stills = s.stills := by simp [State.breakReins, apply_ite State.stills, foldl_stills]
@[simp] theorem resetRings_stills (s : State) (c : Nat) : (s.resetRings c).stills = s.stills := by
  unfold State.resetRings
  dsimp only [List.foldl]
  simp only [with_regs_stills, onCx_stills]
  have h : ∀ (u : State) (k : Nat) (l : List Copy), (l.foldl (fun v x => match v.sw.frame x.id with
      | some f => v.dropCopy (8 * hostPort c + f.cls) x
      | none => v) (u.setRing k [])).stills = u.stills := by
    intro u k l
    rw [foldl_stills]
    · simp
    · intro t b
      split <;> simp
  exact (h _ _ _).trans (h _ _ _)
@[simp] theorem ctxReset_stills (s : State) (c : Nat) (rings : Bool) : (State.ctxReset s c rings).stills = s.stills := by simp [State.ctxReset, apply_ite State.stills, foldl_stills]
@[simp] theorem resetBound_stills (s : State) (p : Nat) : (State.resetBound s p).stills = s.stills := by simp [State.resetBound, apply_ite State.stills]
@[simp] theorem applyF_stills (s : State) (p : Nat) : (State.applyF s p).stills = s.stills := by simp [State.applyF, foldl_stills]

/-! What leaving UP leaves of the port itself (R38). -/

theorem stills_eq {s t : State} (h : t.stills = s.stills) (p : Nat) : (t.pt p).still = (s.pt p).still := congrFun h p
theorem up_of_stills {s t : State} (h : t.stills = s.stills) (p : Nat) : (t.pt p).up = (s.pt p).up :=
  (congrArg PortSt.up (stills_eq h p) : (t.pt p).still.up = (s.pt p).still.up)
theorem c7Ok_of_stills {s t : State} (h : t.stills = s.stills) (p : Nat) : (t.pt p).c7Ok = (s.pt p).c7Ok :=
  (congrArg PortSt.c7Ok (stills_eq h p) : (t.pt p).still.c7Ok = (s.pt p).still.c7Ok)

/-- What leaving UP sets of a port (R38). -/
def PortSt.leave (now : Nat) (x : PortSt) : PortSt :=
  { x with up := false, marks := 0, misses := 0, rxSusp := false, rxOpen := false, halterDue := false, c7Ok := false, brokenAt := some now }

@[simp] theorem suspendedLost_stills (s : State) (p : Nat) : (s.suspendedLost p).stills = s.stills := by
  unfold State.suspendedLost
  rw [onPt_stills ((s.countRx p (s.pt p).rx.bytes (s.maxfrm p)).countP (Reg.rxAbort p) p) p (fun y => { y with rxSusp := false }) fun _ => rfl]
  simp

/-- A port that is UP leaves it, and nothing that follows touches a port but in the stream it sends. -/
theorem leaveUp_stills {s : State} {p : Nat} (h : (s.pt p).up = true) :
    (s.leaveUp p).stills = (s.onPt p (PortSt.leave s.now)).stills := by
  unfold State.leaveUp
  rw [h]
  simp only [Bool.not_true, Bool.false_eq_true, if_false, resetBound_stills, raise_stills, purgeEgress_stills, applyF_stills,
    apply_ite State.stills, stopTime_stills, setFld_stills, dropUpstream_stills, suspendedLost_stills, ite_self]
  rfl

theorem leaveUp_still {s : State} {p : Nat} (h : (s.pt p).up = true) : ((s.leaveUp p).pt p).still = ((s.pt p).leave s.now).still := by
  have hp := stills_eq (leaveUp_stills h) p
  rwa [State.pt_onPt_self] at hp

theorem leaveUp_of_down {s : State} {p : Nat} (h : (s.pt p).up = false) : s.leaveUp p = s := by
  unfold State.leaveUp
  rw [h]
  rfl

/-- After leaving UP a port is not UP. -/
@[simp] theorem leaveUp_up (s : State) (p : Nat) : ((s.leaveUp p).pt p).up = false := by
  cases h : (s.pt p).up
  · rw [leaveUp_of_down h, h]
  · exact (congrArg PortSt.up (leaveUp_still h) : ((s.leaveUp p).pt p).still.up = ((s.pt p).leave s.now).still.up)

theorem leaveUp_c7Ok {s : State} {p : Nat} (h : (s.pt p).up = true) : ((s.leaveUp p).pt p).c7Ok = false :=
  (congrArg PortSt.c7Ok (leaveUp_still h) : ((s.leaveUp p).pt p).still.c7Ok = ((s.pt p).leave s.now).still.c7Ok)

/-! A port's line state (R58). -/

@[simp] theorem setLine_stills (s : State) (p n : Nat) : (s.setLine p n).stills = s.stills := (rfl)

@[simp] theorem pt_setLine (s : State) (p n q : Nat) : (s.setLine p n).pt q = s.pt q := rfl

theorem lineState_setLine (s : State) (p : Nat) {n : Nat} (hn : n < 8) : (s.setLine p n).lineState p = n := by
  unfold State.lineState State.setLine
  rw [fld_setFld_self s _ _ (by decide)]
  exact Nat.mod_eq_of_lt hn

end Sys2Proof.Machine
end

section
/-! R60, R75, R77, R85, R87: the commands of one port. -/

namespace Sys2Proof.Machine

open Host

variable {s : State} {h : CmdHdr} {p : Nat}

theorem firstBad_one {i : Nat} {b : Bool} (hb : b = true) : firstBad [(i, b)] = none := by rw [firstBad_cons, hb]; rfl

/-- Reception and an answer keep what no register, context or log holds. -/
theorem receive_absent (op p : Nat) : (s.receive h op).absent p = s.absent p := by
  rw [(receive_beside_any s h op).eq]
  rfl

theorem receive_pt (op p : Nat) : (s.receive h op).pt p = s.pt p := by
  rw [(receive_beside_any s h op).eq]
  rfl

/-- The port of a command is there. -/
theorem portGone_none (hp : p < 28) (hex : s.exists p = true) : firstBad [(0, decide (p < 28) && s.exists p)] = none :=
  firstBad_one (by simp [hp, hex])

theorem lineGone_none (hp : p < 24) (hab : s.absent p = false) : s.lineGone p = none := firstBad_one (by simp [hp, hab])

/-! PORT_SET (R77). -/

theorem modeOf_zero : modeOf 0 = none := rfl

theorem portSet_need {mode flags : Nat} (hf : flags < 2) (hp : p < 28) (hex : s.exists p = true) (hfit : modeFits p mode = true) :
    ({ gone := firstBad [(0, decide (p < 28) && s.exists p)], owned := [(0, p)], reins := [portRein p],
       bad := firstBad [(1, modeFits p mode), (2, decide (flags < 2))] } : Need) = { owned := [(0, p)], reins := [portRein p] } := by
  simp [firstBad, hp, hex, hfit, hf]

theorem exec_portSet_off {flags : Nat} (hf : flags < 2) (hp : p < 28) (hex : (s.receive h 0x0101).exists p = true)
    (hfit : modeFits p 0 = true) (ha : Admitted s h 0x0101 { owned := [(0, p)], reins := [portRein p] }) :
    exec (.portSet h p 0 flags) s = .next ((((s.receive h 0x0101).writePhyCtrl p
        (putFld ((s.receive h 0x0101).rd (Reg.portPhyCtrl p)) 0 1 0)).setFld (Reg.portPhyStat p) 4 1 0).answerOk h 0x0101 []) :=
  cmd_done ha (portSet_need hf hp hex hfit) rfl

theorem exec_portSet_mode {mode flags : Nat} {m : PortMode} (hf : flags < 2) (hp : p < 24) (hex : (s.receive h 0x0101).exists p = true)
    (hfit : modeFits p mode = true) (hm : modeOf mode = some m) (hboard : 16 ≤ p → (s.receive h 0x0101).boardFault p m.family = none)
    (hfam : m.family = (s.receive h 0x0101).synFamily (groupOf p) ∨ (s.receive h 0x0101).groupBusy p = false ∨ flags = 1)
    (ha : Admitted s h 0x0101 { owned := [(0, p)], reins := [portRein p] }) :
    exec (.portSet h p mode flags) s = .next (((s.receive h 0x0101).applyMode p m).answerOk h 0x0101 []) := by
  have hMode : mode ≠ 0 := by rintro rfl; simp [modeOf] at hm
  have hTable : (if p < 16 then none else (s.receive h 0x0101).boardFault p m.family) = none := by
    split
    · rfl
    · exact hboard (by omega)
  refine cmd_done ha (portSet_need hf (by omega) hex hfit) ?_
  rw [if_neg hMode, hm]
  dsimp only
  rw [hTable]
  refine if_neg fun hBusy => ?_
  obtain ⟨hne, hbusy, heven⟩ := hBusy
  rcases hfam with heq | hfree | rfl
  · exact hne heq
  · rw [hfree] at hbusy
    cases hbusy
  · cases heven

/-! What a port reports (R60, R85). -/

theorem exec_portHalterGet {r : Nat} (hp : p < 24) (hab : s.absent p = false) (hnat : (s.receive h 0x0105).native p = true)
    (hat : ((s.receive h 0x0105).pt p).halterAt = some r) (ha : Admitted s h 0x0105 { role := .any }) :
    exec (.portHalterGet h p) s = .next ((s.receive h 0x0105).reply h.ctx 0x0105 h.tag St.ok
        ((List.range 12).map ((s.receive h 0x0105).halterWord p) ++
          [((s.receive h 0x0105).now - r) / 1250000, ((s.receive h 0x0105).rd (Reg.portHalterStat p)).toNat]) false) := by
  refine cmd_answers ha (by rw [lineGone_none hp ((receive_absent _ _).trans hab)]) ?_ (by simp)
  dsimp only
  rw [hnat, hat]
  rfl

theorem exec_portHalterGet_never (hp : p < 24) (hab : s.absent p = false) (hnat : (s.receive h 0x0105).native p = true)
    (hat : ((s.receive h 0x0105).pt p).halterAt = none) (ha : Admitted s h 0x0105 { role := .any }) :
    exec (.portHalterGet h p) s = .next ((s.receive h 0x0105).drawn.reply h.ctx 0x0105 h.tag St.ok
        ((List.range 12).map ((s.receive h 0x0105).halterWord p) ++
          [(Config.measured (s.receive h 0x0105).freeCtr).toNat, ((s.receive h 0x0105).rd (Reg.portHalterStat p)).toNat]) false) := by
  refine cmd_answers ha (by rw [lineGone_none hp ((receive_absent _ _).trans hab)]) ?_ (by simp)
  dsimp only
  rw [hnat, hat]
  rfl

theorem exec_portQualityGet (hp : p < 28) (hex : (s.receive h 0x0106).exists p = true) (ha : Admitted s h 0x0106 { role := .any }) :
    exec (.portQualityGet h p) s = .next ((s.receive h 0x0106).reply h.ctx 0x0106 h.tag St.ok
        [((s.receive h 0x0106).phyStat p).toNat, ((s.receive h 0x0106).rd (Reg.portQual0 p)).toNat,
         (if p < 24 then ((s.receive h 0x0106).rd (Reg.portQual1 p)).toNat else 0), ((s.receive h 0x0106).rd (Reg.portOpt0 p)).toNat,
         (if p < 16 then ((s.receive h 0x0106).rd (Reg.portOpt1 p)).toNat else 0)] false) :=
  cmd_answers ha (by rw [portGone_none hp hex]) rfl (by simp)

/-! PORT_LINE_EXPERT_SET (R60). -/

/-- PORT_LINE_CTRL as PORT_LINE_EXPERT_SET leaves it. -/
def State.setLineCtrl (s : State) (p : Nat) (pe de : Bool) (idle : Nat) : State :=
  ((s.setFld (Reg.portLineCtrl p) 0 1 (b2n pe)).setFld (Reg.portLineCtrl p) 1 1 (b2n de)).setFld (Reg.portLineCtrl p) 16 16 idle

theorem b2n_mod_two (b : Bool) : b2n b % 2 = b2n b := by cases b <;> rfl

theorem setLineCtrl_fields (pe de : Bool) {idle : Nat} (hidle : idle < 65536) :
    (s.setLineCtrl p pe de idle).fld (Reg.portLineCtrl p) 0 1 = b2n pe ∧ (s.setLineCtrl p pe de idle).fld (Reg.portLineCtrl p) 1 1 = b2n de ∧
      (s.setLineCtrl p pe de idle).fld (Reg.portLineCtrl p) 16 16 = idle := by
  unfold State.setLineCtrl
  refine ⟨?_, ?_, ?_⟩
  · rw [fld_setFld_of_disjoint _ _ _ (by decide) (by decide), fld_setFld_of_disjoint _ _ _ (by decide) (by decide),
      fld_setFld_self _ _ _ (by decide)]
    exact b2n_mod_two pe
  · rw [fld_setFld_of_disjoint _ _ _ (by decide) (by decide), fld_setFld_self _ _ _ (by decide)]
    exact b2n_mod_two de
  · rw [fld_setFld_self _ _ _ (by decide)]
    exact Nat.mod_eq_of_lt hidle

theorem rd_putLine (r : List Beat × LineTx × Nat) (a : Nat) : (s.putLine p r).rd a = s.rd a := rfl

/-- A transmitter that wakes changes no register but PORT_LINE_STAT (R50). -/
theorem rd_wakeTx {a : Nat} (ha : a ≠ Reg.portLineStat p) : (s.wakeTx p).rd a = s.rd a := by
  unfold State.wakeTx
  split
  · rw [rd_putLine, State.rd_setFld, if_neg ha]
  · rfl

theorem exec_portLineExpertSet (pe de : Bool) {idle mask : Nat} (hp : p < 24) (hab : s.absent p = false)
    (hnat : (s.receive h 0x0184).native p = true) (hidle : idle < 65536) (hmask : mask < 256)
    (ha : Admitted s h 0x0184 { owned := [(0, p)], reins := [portRein p] }) :
    exec (.portLineExpertSet h p pe de idle mask) s = .next (((((if de then (s.receive h 0x0184).setLineCtrl p pe de idle
      else ((s.receive h 0x0184).setLineCtrl p pe de idle).wakeTx p).setFld (Reg.portCapAdv p) 0 8 mask).onPt p
        fun x => { x with halterDue := true })).answerOk h 0x0184 []) := by
  refine cmd_done ha ?_ ?_
  · simp only [lineGone_none hp ((receive_absent _ _).trans hab), firstBad, hidle, hmask, decide_true, if_true]
  · dsimp only
    rw [hnat]
    rfl

theorem exec_portEqExpertSet (tx rx dig : Word) (h16 : 16 ≤ p) (hp : p < 24) (hex : (s.receive h 0x0185).exists p = true)
    (ha : Admitted s h 0x0185 { owned := [(0, p)], reins := [portRein p] }) :
    exec (.portEqExpertSet h p tx rx dig) s = .next ((((((s.receive h 0x0185).stage (Reg.portEqTx p) tx).stage (Reg.portEqRx p) rx).stage
        (Reg.portEqDig p) dig).portCommit p).answerOk h 0x0185 []) :=
  cmd_done ha (by rw [portGone_none (by omega) hex]) (if_neg (by omega))

theorem exec_cfgBoardSet {entry : List Byte} (hlen : entry.length = 32) (hlane : (entry.getD 0 0).toNat < 8)
    (ha : Admitted s h 0x0811 { owned := [(0, 16 + (entry.getD 0 0).toNat)], reins := [portRein (16 + (entry.getD 0 0).toNat), 16] }) :
    exec (.cfgBoardSet h entry) s = .next (({ s.receive h 0x0811 with
        boards := Tab.set (fun _ => []) (s.receive h 0x0811).boards (entry.getD 0 0).toNat entry } : State).answerOk h 0x0811 []) :=
  cmd_done ha (by rw [firstBad_one (decide_eq_true hlane), firstBad_one (decide_eq_true hlen)]) rfl

/-! PORT_FRAME_SET (R87). -/

/-- The registers of PORT_FRAME_SET as it leaves them on a port that receives no frame. -/
def State.frameSet (s : State) (p m : Nat) (ct : Bool) : State :=
  (s.wr (Reg.portMaxfrm p) (putFld (s.readBack (Reg.portMaxfrm p)) 0 14 m)).setFld (Reg.portFrmCtrl p) 0 1 (b2n ct)

theorem exec_portFrameSet {m : Nat} (ct : Bool) (hm : (p < 24 ∧ 1518 ≤ m ∧ m ≤ 9216) ∨ (24 ≤ p ∧ p < 28 ∧ m = 1522))
    (hex : (s.receive h 0x0107).exists p = true) (hopen : (s.pt p).rxOpen = false)
    (ha : Admitted s h 0x0107 { owned := [(0, p)], reins := [portRein p] }) :
    exec (.portFrameSet h p m ct) s = .next (((s.receive h 0x0107).frameSet p m ct).answerOk h 0x0107 []) := by
  have hp : p < 28 := by omega
  have hBad : firstBad [(1, if p < 24 then decide (1518 ≤ m) && decide (m ≤ 9216) else decide (m = 1522))] = none := by
    refine firstBad_one ?_
    split
    · simp; omega
    · simp; omega
  refine cmd_done ha (by rw [portGone_none hp hex, hBad]) ?_
  unfold State.writeF State.frameSet
  rw [receive_pt, hopen]
  rfl

theorem frameSet_reads {m : Nat} (ct : Bool) (hm : m < 2 ^ 14) :
    (s.frameSet p m ct).fld (Reg.portMaxfrm p) 0 14 = m ∧ (s.frameSet p m ct).bitAt (Reg.portFrmCtrl p) 0 = ct := by
  have hne : Reg.portMaxfrm p ≠ Reg.portFrmCtrl p := by unfold Reg.portMaxfrm Reg.portFrmCtrl; omega
  unfold State.frameSet
  constructor
  · rw [fld_setFld_of_ne _ _ _ _ _ _ hne, fld_wr_self, getFld_putFld _ _ (by decide)]
    exact Nat.mod_eq_of_lt hm
  · rw [bitAt_setFld_bit _ _ _ (by decide)]

/-- An answer leaves the registers of the ports alone. -/
theorem rd_answerOk_port {op : Nat} {a : Nat} (hc : h.ctx < 8) (ha : 0x100000 ≤ a) : (s.answerOk h op []).rd a = s.rd a := by
  refine (answerOk_beside (A := fun b => b < 0x100000) s h op [] hc ?_ ?_).rd a (by omega)
  · rintro b ⟨c, j, hc', hj, rfl⟩
    unfold Reg.evtStat
    omega
  · show Reg.hcxCqTail h.ctx < 0x100000
    unfold Reg.hcxCqTail
    omega

end Sys2Proof.Machine

open Sys2Proof Sys2Proof.Machine

/-- Settles O10: each command by its own equation; PORT_LINE_EXPERT_SET and PORT_FRAME_SET by what their registers read after. -/
theorem portCommandsComplete : Obligations.PortCommandsComplete := by
  refine ⟨fun s h p => ⟨?_, ?_, ?_, ?_, ?_, ?_, ?_, ?_⟩, ?_⟩
  · exact fun flags hf hp hex hfit ha => exec_portSet_off hf hp hex hfit ha
  · exact fun mode flags m hf hp hex hfit hm hboard hfam ha => exec_portSet_mode hf hp hex hfit hm hboard hfam ha
  · exact fun r hp hab hnat hat ha => exec_portHalterGet hp hab hnat hat ha
  · exact fun hp hab hnat hat ha => ⟨_, exec_portHalterGet_never hp hab hnat hat ha⟩
  · exact fun hp hex ha => exec_portQualityGet hp hex ha
  · intro pe de idle mask hp hab hnat hidle hmask ha
    obtain ⟨hpe, hde, hidle'⟩ := setLineCtrl_fields (s := s.receive h 0x0184) (p := p) pe de hidle
    have hne : Reg.portLineCtrl p ≠ Reg.portLineStat p := by unfold Reg.portLineCtrl Reg.portLineStat; omega
    refine ⟨_, _, exec_portLineExpertSet pe de hp hab hnat hidle hmask ha, rfl, ?_⟩
    cases de
    · simp only [Bool.false_eq_true, if_false, State.fld, rd_wakeTx hne]
      exact ⟨hpe, hde, hidle'⟩
    · exact ⟨hpe, hde, hidle'⟩
  · exact fun tx rx dig h16 hp hex ha => exec_portEqExpertSet tx rx dig h16 hp hex ha
  · exact fun entry hlen hlane ha => exec_cfgBoardSet hlen hlane ha
  · intro s h p m ct hm hex hopen ha
    obtain ⟨hmax, hct⟩ := frameSet_reads (s := s.receive h 0x0107) (p := p) ct (show m < 2 ^ 14 by omega)
    refine ⟨_, exec_portFrameSet ct hm hex hopen ha, ?_, ?_⟩
    · rw [State.fld, rd_answerOk_port ha.1 (by unfold Reg.portMaxfrm; omega)]
      exact hmax
    · rw [State.bitAt, rd_answerOk_port ha.1 (by unfold Reg.portFrmCtrl; omega)]
      exact hct

end

section
/-! R36 to R38, R84: signal, settling and MARKs. -/

namespace Sys2Proof.Machine

open Host

variable {s : State} {p : Nat}

theorem exec_lossOfSignal (hup : s.life = .up) (hp : p < 24) (hab : s.absent p = false)
    (hlive : p < 16 ∨ s.bitAt (Reg.portLineStat p) 4 = false) :
    exec (.lossOfSignal p) s = .next ((((s.setFld (Reg.portPhyStat p) 0 1 0).setFld (Reg.portLineStat p) 3 1 1).onPt p
      (fun x => { x with hardFault := true })).toLos p) := by
  refine (onUnit_event hp hup _).trans (congrArg _ (if_neg ?_))
  have hDoze : (decide (16 ≤ p) && s.bitAt (Reg.portLineStat p) 4) = false := by
    rcases hlive with hlt | hbit
    · simp [Nat.not_le.mpr hlt]
    · simp [hbit]
  simp [hab, hDoze]

/-- A port in LOS with a signal, that nothing holds, goes to ACQUIRE (R38). -/
theorem tryAcquire_of_ready (hp : p < 24) (hen : s.enabled p = true) (hsyn : s.synLocked p = true)
    (hsig : s.bitAt (Reg.portPhyStat p) 0 = true) (hfam : s.bitAt (Reg.portPhyStat p) 4 = false)
    (hfault : s.bitAt (Reg.portPhyStat p) 8 = false) (hheld : (s.pt p).laserHeld = false) (hlos : s.lineState p = 0) :
    s.tryAcquire p = (s.setLine p 1).onPt p fun y => { y with settleAt := s.now, marks := 0 } :=
  if_pos (by simp [hp, hen, hsyn, hsig, hfam, hfault, hheld, hlos])

/-! A change of a port's own state changes no register. -/

theorem bitAt_onPt (f : PortSt → PortSt) (a i : Nat) : (s.onPt p f).bitAt a i = s.bitAt a i := by rw [State.bitAt, State.rd_onPt, State.bitAt]
theorem fld_onPt (f : PortSt → PortSt) (a lo len : Nat) : (s.onPt p f).fld a lo len = s.fld a lo len := by
  rw [State.fld, State.rd_onPt, State.fld]
theorem lineState_onPt (f : PortSt → PortSt) (q : Nat) : (s.onPt p f).lineState q = s.lineState q := fld_onPt f _ _ _

theorem portPhyStat_ne_portLineStat (p q : Nat) : Reg.portPhyStat p ≠ Reg.portLineStat q := by
  unfold Reg.portPhyStat Reg.portLineStat
  omega

/-- What SIGNAL_DETECT leaves of a port that nothing holds. -/
def State.acquired (s : State) (p : Nat) : State :=
  ((s.setFld (Reg.portPhyStat p) 0 1 1).setLine p 1).onPt p fun y => { y with settleAt := s.now, marks := 0 }

theorem exec_signalDetect (hup : s.life = .up) (hp : p < 24) (hab : s.absent p = false) (hen : s.enabled p = true)
    (hsyn : s.synLocked p = true) (hfam : s.bitAt (Reg.portPhyStat p) 4 = false) (hfault : s.bitAt (Reg.portPhyStat p) 8 = false)
    (hheld : (s.pt p).laserHeld = false) (hlos : s.lineState p = 0) : exec (.signalDetect p) s = .next (s.acquired p) := by
  have hCtrl : Reg.portPhyCtrl p ≠ Reg.portPhyStat p := by unfold Reg.portPhyCtrl Reg.portPhyStat; omega
  have hSyn : Reg.clkSynStat (groupOf p) ≠ Reg.portPhyStat p := by unfold Reg.clkSynStat Reg.portPhyStat groupOf; omega
  refine (onUnit_event hp hup _).trans (congrArg _ ?_)
  rw [hab]
  refine tryAcquire_of_ready hp ?_ ?_ ?_ ?_ ?_ hheld ?_
  · rw [State.enabled, bitAt_setFld_of_ne _ _ _ _ _ hCtrl]
    exact hen
  · rw [State.synLocked, bitAt_setFld_of_ne _ _ _ _ _ hSyn]
    exact hsyn
  · exact bitAt_set s _ (by decide)
  · rw [bitAt_setFld_self _ _ _ _ (by decide)]
    exact hfam
  · rw [bitAt_setFld_self _ _ _ _ (by decide)]
    exact hfault
  · rw [State.lineState, fld_setFld_of_ne _ _ _ _ _ _ (portPhyStat_ne_portLineStat p p).symm]
    exact hlos

theorem acquired_spec (s : State) (p : Nat) : (s.acquired p).lineState p = 1 ∧ (s.acquired p).bitAt (Reg.portPhyStat p) 0 = true ∧
    ((s.acquired p).pt p).settleAt = s.now := by
  unfold State.acquired
  refine ⟨?_, ?_, ?_⟩
  · rw [lineState_onPt, lineState_setLine _ _ (by decide)]
  · rw [bitAt_onPt, State.setLine, bitAt_setFld_of_ne _ _ _ _ _ (portPhyStat_ne_portLineStat p p), bitAt_set _ _ (by decide)]
  · rw [State.pt_onPt_self]

theorem exec_receiverSettled (hup : s.life = .up) (hp : p < 24) (hst : s.lineState p = 1) :
    exec (.receiverSettled p) s = .next ((s.setLine p 2).onPt p fun x => { x with marks := 0 }) :=
  (onUnit_event hp hup _).trans (congrArg _ (if_pos hst))

theorem exec_receiverSettleTimeout (hup : s.life = .up) (hp : p < 24) (hst : s.lineState p = 1)
    (hdue : (s.pt p).settleAt + 625000 ≤ s.now) :
    exec (.receiverSettleTimeout p) s = .next (s.onPt p fun x => { x with settleAt := s.now }) :=
  (onUnit_event hp hup _).trans (congrArg _ (if_pos ⟨hst, hdue⟩))

/-! MARK_RECEIVE (R36, R37). -/

section
variable {q g : Nat} (hup : s.life = .up) (hp : p < 24) (hnat : s.native p = true)
include hup hp hnat

/-- The search takes a MARK as the `n`-th in a row. -/
theorem exec_markReceive_search {n : Nat} (hdown : (s.pt p).up = false) (hst : s.lineState p = 2)
    (hn : (if 0 < (s.pt p).marks ∧ g ≠ markGap then 1 else (s.pt p).marks + 1) = n) :
    exec (.markReceive p q g) s = .next (if 4 ≤ n then (s.onPt p fun x => { x with marks := n, markSeq := q % 2 ^ 18 }).enterUp p
      else s.onPt p fun x => { x with marks := n, markSeq := q % 2 ^ 18 }) := by
  refine (onUnit_event hp hup _).trans (congrArg _ ?_)
  dsimp only
  rw [hnat, hdown, hst, hn]
  rfl

theorem exec_markReceive_aligned (hPortUp : (s.pt p).up = true) (hg : g ≠ markGap) :
    exec (.markReceive p q g) s = .next (s.lineErr (Reg.portLerrType p) p) := by
  refine (onUnit_event hp hup _).trans (congrArg _ ?_)
  dsimp only
  simp only [hnat, Bool.not_true, Bool.false_eq_true, if_false, hPortUp, if_true, if_pos hg]

end

/-- What entering UP sets of a port (R38). -/
def PortSt.enter (now uptime : Nat) (x : PortSt) : PortSt :=
  { x with up := true, hardFault := false, misses := 0, halterDue := true, halterAsk := true, segHeld := false, idleAt := now, cleanAt := uptime }

theorem enterUp_stills (h : (s.pt p).up = false) : (s.enterUp p).stills = (s.onPt p (PortSt.enter s.now s.uptime)).stills := by
  unfold State.enterUp
  rw [h]
  simp only [Bool.false_eq_true, if_false, raise_stills, apply_ite State.stills, drawn_stills, wr_stills, setFld_stills, setLine_stills, ite_self]
  rfl

theorem enterUp_still (h : (s.pt p).up = false) : ((s.enterUp p).pt p).still = ((s.pt p).enter s.now s.uptime).still := by
  have hp := stills_eq (enterUp_stills h) p
  rwa [State.pt_onPt_self] at hp

/-- Entering UP makes the port UP, and keeps the MARK sequence (R38). -/
theorem enterUp_up (h : (s.pt p).up = false) : ((s.enterUp p).pt p).up = true :=
  (congrArg PortSt.up (enterUp_still h) : ((s.enterUp p).pt p).still.up = ((s.pt p).enter s.now s.uptime).still.up)

theorem enterUp_markSeq (h : (s.pt p).up = false) : ((s.enterUp p).pt p).markSeq = (s.pt p).markSeq :=
  (congrArg PortSt.markSeq (enterUp_still h) : ((s.enterUp p).pt p).still.markSeq = ((s.pt p).enter s.now s.uptime).still.markSeq)

/-! MISSED_MARK (R36, R37). -/

/-- What a missed MARK counts. -/
def State.markMissed (s : State) (p : Nat) : State := (s.countP (Reg.portMarkMiss p) p).setFld (Reg.portLineStat p) 3 1 1

section
variable (hup : s.life = .up) (hp : p < 24) (hnat : s.native p = true) (hal : s.aligned p = true) (hst : s.lineState p = 3)
include hup hp hnat hal hst

theorem exec_missedMark_few (hm : (s.pt p).misses < 2) :
    exec (.missedMark p) s = .next ((s.markMissed p).onPt p fun x => { x with misses := (s.pt p).misses + 1 }) := by
  refine (onUnit_event hp hup _).trans (congrArg _ ?_)
  have hTwo : s.lineState p ≠ 2 := by omega
  simp only [hnat, hTwo, hal, Bool.not_true, Bool.false_eq_true, if_false]
  exact if_pos (by omega)

/-- The third in a row loses alignment. -/
def State.alignLost (s : State) (p : Nat) : State :=
  let u := ((s.markMissed p).countP (Reg.portAlignLoss p) p).stick (Reg.portLineStat p) 8
  (((if (u.pt p).rxSusp then u.lineErr (Reg.portLerrType p) p else u).onPt p fun y => { y with hardFault := true }).leaveUp p).setLine p 2

theorem exec_missedMark_third (hm : (s.pt p).misses = 2) : exec (.missedMark p) s = .next (s.alignLost p) := by
  refine (onUnit_event hp hup _).trans (congrArg _ ?_)
  have hTwo : s.lineState p ≠ 2 := by omega
  simp only [hnat, hTwo, hal, hm, Bool.not_true, Bool.false_eq_true, if_false]
  exact if_neg (by decide)

end

theorem alignLost_spec (s : State) (p : Nat) : ((s.alignLost p).pt p).up = false ∧ (s.alignLost p).lineState p = 2 := by
  unfold State.alignLost
  constructor
  · rw [pt_setLine, leaveUp_up]
  · rw [lineState_setLine _ _ (by decide)]

theorem exec_markSend (hup : s.life = .up) (hp : p < 24) (hs : s.sends p = true) :
    exec (.markSend p) s = .next ((s.putLine p (LineTx.idle ((1024 - (s.pt p).tx.pos) % 1024 + 1) (s.pt p).tx (s.pt p).txMark)).onPt p
      fun x => { x with markAt := s.now }) :=
  (onUnit_event hp hup _).trans (congrArg _ (if_pos hs))

end Sys2Proof.Machine

open Sys2Proof Sys2Proof.Machine

/-- Settles O11: each event by its own equation; alignment lost by what leaving UP leaves of the port. -/
theorem lineStatesComplete : Obligations.LineStatesComplete := by
  intro s p hup hp
  refine ⟨?_, ?_, ?_, ?_, ?_, ?_, ?_, ?_, ?_, ?_, ?_⟩
  · exact fun hab hlive => exec_lossOfSignal hup hp hab hlive
  · exact fun hab hen hsyn hfam hfault hheld hlos =>
      ⟨_, exec_signalDetect hup hp hab hen hsyn hfam hfault hheld hlos, acquired_spec s p⟩
  · intro hst
    refine ⟨_, exec_receiverSettled hup hp hst, ?_, ?_, fun a ha => ?_⟩
    · rw [lineState_onPt, lineState_setLine _ _ (by decide)]
    · rw [State.pt_onPt_self]
    · rw [State.rd_onPt, State.setLine, State.rd_setFld, if_neg ha]
  · exact fun hst hdue => exec_receiverSettleTimeout hup hp hst hdue
  · intro q hnat hdown hst hm
    have hDown : ((s.onPt p fun x => { x with marks := 4, markSeq := q % 2 ^ 18 }).pt p).up = false := by
      rw [State.pt_onPt_self]
      exact hdown
    refine ⟨_, exec_markReceive_search hup hp hnat hdown hst (n := 4) (by simp [hm]), enterUp_up hDown, (enterUp_markSeq hDown).trans ?_⟩
    rw [State.pt_onPt_self]
  · intro q g hnat hdown hst hfirst hlt
    refine (exec_markReceive_search hup hp hnat hdown hst (n := (s.pt p).marks + 1) (if_neg ?_)).trans (congrArg _ (if_neg (by omega)))
    rintro ⟨hpos, hgap⟩
    rcases hfirst with h0 | hg
    · omega
    · exact hgap hg
  · intro q g hnat hdown hst hpos hg
    exact (exec_markReceive_search hup hp hnat hdown hst (if_pos ⟨hpos, hg⟩)).trans (congrArg _ (if_neg (by decide)))
  · exact fun q g hnat hPortUp hg => exec_markReceive_aligned hup hp hnat hPortUp hg
  · exact fun hnat hal hst hm => exec_missedMark_few hup hp hnat hal hst hm
  · exact fun hnat hal hst hm => ⟨_, exec_missedMark_third hup hp hnat hal hst hm, alignLost_spec s p⟩
  · exact fun hs => exec_markSend hup hp hs

end

section
/-! R28, R30, R42 to R44, R47 to R50: crumbs, discarded beats, preemptions as received, and doze. -/

namespace Sys2Proof.Machine

open Host

section
variable {s : State} {p : Nat} (hup : s.life = .up) (hp : p < 24)

/-! Crumbs (R42, R43). -/

section
variable (hs : s.sends p = true)
include hup hp hs

theorem exec_crumbDue_barred (hb : s.crumbBarred p = true) :
    exec (.crumbDue p) s = .next (s.onPt p fun x => { x with crumbWait := true }) := by
  refine (onUnit_event hp hup _).trans (congrArg _ ?_)
  simp only [hs, hb, Bool.not_true, Bool.false_eq_true, if_false, if_true]

theorem exec_crumbDue (hb : s.crumbBarred p = false) :
    exec (.crumbDue p) s = .next (((if (s.sw.lineOf p).isSome then s
        else s.putLine p (LineTx.idle (2048 - (s.pt p).tx.since) (s.pt p).tx (s.pt p).txMark)).emit p none [crumbBeat]).onPt p
          fun x => { x with crumbWait := false }) := by
  refine (onUnit_event hp hup _).trans (congrArg _ ?_)
  simp only [hs, hb, Bool.not_true, Bool.false_eq_true, if_false]

theorem exec_crumbForced (hw : (s.pt p).crumbWait = true) (hsusp : (s.pt p).txSusp = false) :
    exec (.crumbForced p) s = .next ((s.emit p none [crumbBeat]).onPt p fun x => { x with crumbWait := false }) :=
  (onUnit_event hp hup _).trans (congrArg _ (if_pos (by simp [hs, hw, hsusp])))

end

section
variable (hnat : s.native p = true) (hport : (s.pt p).up = true)
include hup hp hnat hport

theorem exec_fillCrumbAbort {u : State} (hu : u = s.emit p none (List.replicate 64 crumbBeat)) :
    exec (.fillCrumbAbort p) s = .next (if (s.sw.lineOf p).isSome then u.cutLine p 4
      else ((u.emit p none [abortBeat 4]).countP (Reg.txAbort p) p).onPt p fun x => { x with fillCut := true }) := by
  refine (onUnit_event hp hup _).trans (congrArg _ ?_)
  simp only [hnat, hport, hu, Bool.not_true, Bool.or_self, Bool.false_eq_true, if_false]

/-! CONTROL_BEAT_DISCARD (R28, R30). -/

/-- The line bits are freed of stuffing, each error counted, and the last whole beat judged. -/
theorem exec_controlBeatDiscard (line : List Bool) (place : Place) {u : State}
    (hu : u = (List.range ((s.pt p).rx.hear line).2.1).foldl
      (fun v _ => (v.lineErr (Reg.portLerrStuff p) p).stick (Reg.portLineStat p) 10)
      (s.onPt p fun x => { x with rx := ((s.pt p).rx.hear line).2.2 })) :
    exec (.controlBeatDiscard p line place) s = .next (if ((s.pt p).rx.hear line).1.length < 33 then u
      else u.judgeBeat p (beatOf (((s.pt p).rx.hear line).1.drop (((s.pt p).rx.hear line).1.length - 33))) place) := by
  refine (onUnit_event hp hup _).trans (congrArg _ ?_)
  simp only [hnat, hport, hu, Bool.not_true, Bool.or_self, Bool.false_eq_true, if_false]

/-! Doze (R48 to R50). -/

theorem exec_dozeEntry (hwake : s.bitAt (Reg.portLineStat p) 5 = false) (hmay : s.mayDoze p = true) :
    exec (.dozeEntry p) s = .next ((((s.emit p none (List.replicate 4 dozeBeat)).setFld (Reg.portLineStat p) 5 1 1).onPt p
      fun x => { x with dozeAt := s.now }).countP (Reg.portDozeEntry p) p) :=
  (onUnit_event hp hup _).trans (congrArg _ (if_pos (by simp [hnat, hport, hwake, hmay])))

theorem exec_dozeReceive : exec (.dozeReceive p) s = .next (s.setFld (Reg.portLineStat p) 4 1 1) :=
  (onUnit_event hp hup _).trans (congrArg _ (if_pos (by simp [hnat, hport])))

/-- What TRAIN_ALIGNMENT leaves where the alignment is lost. -/
def State.trainLost (s : State) (p : Nat) : State :=
  (((s.countP (Reg.portAlignLoss p) p).stick (Reg.portLineStat p) 8).leaveUp p).setLine p 2

theorem exec_trainAlignment (aligned : Bool) (hdoze : s.bitAt (Reg.portLineStat p) 4 = true) :
    exec (.trainAlignment p aligned) s = .next (if aligned then (s.setFld (Reg.portLineStat p) 4 1 0).onPt p fun x => { x with misses := 0 }
      else s.trainLost p) := by
  refine (onUnit_event hp hup _).trans (congrArg _ ?_)
  simp only [hnat, hport, hdoze, Bool.not_true, Bool.or_self, Bool.false_eq_true, if_false, State.trainLost]

end

theorem trainLost_spec (s : State) (p : Nat) : ((s.trainLost p).pt p).up = false ∧ (s.trainLost p).lineState p = 2 := by
  unfold State.trainLost
  rw [pt_setLine, leaveUp_up, lineState_setLine _ _ (by decide)]
  exact ⟨rfl, rfl⟩

/-! A beat judged (R28, R30, R31). -/

theorem judgeBeat_of_crc {b : Beat} (place : Place) (hctl : b.ctl = true) (hcrc : beatCrcOk b = false) :
    s.judgeBeat p b place = (s.lineErr (Reg.portLerrCrc8 p) p).stick (Reg.portLineStat p) 9 := by
  unfold State.judgeBeat
  simp only [hctl, hcrc, Bool.not_true, Bool.not_false, Bool.false_eq_true, if_false, if_true]

theorem judgeBeat_of_place {b : Beat} (place : Place) (hctl : b.ctl = true) (hcrc : beatCrcOk b = true) (hdrop : (s.pt p).rx.drop = false) :
    s.judgeBeat p b place = if badBeat (s.pt p).rxSusp b place then s.lineErr (Reg.portLerrType p) p else s := by
  unfold State.judgeBeat
  simp only [hctl, hcrc, hdrop, Bool.not_true, Bool.false_and, Bool.false_eq_true, if_false]

/-! What an aligned port receives (R44, R47, R51). -/

section
variable (hnat : s.native p = true) (hal : s.aligned p = true)
include hup hp hnat hal

theorem exec_crumbDelete {n : Nat} (hn : 2 < n) : exec (.crumbDelete p n) s = .next ((s.countP (Reg.rxCrumbDel p) p).setFill p 2) :=
  (onUnit_event hp hup _).trans (congrArg _ (if_pos (by simp [hnat, hal, hn])))

theorem exec_crumbInsert : exec (.crumbInsert p 0) s = .next ((s.countP (Reg.rxCrumbIns p) p).setFill p 1) :=
  (onUnit_event hp hup _).trans (congrArg _ (if_pos (by simp [hnat, hal])))

theorem exec_elasticOverrun {n : Nat} {u : State} (hn : 2 < n)
    (hu : u = ((s.lineErr (Reg.portLerrType p) p).stick (Reg.portLineStat p) 12).setFill p 2) :
    exec (.elasticOverrun p n) s
      = .next ((if (u.pt p).rxSusp then u.suspendedLost p else u).onPt p fun x => { x with brokenAt := some s.now }) := by
  refine (onUnit_event hp hup _).trans (congrArg _ ((if_pos (by simp [hnat, hal, hn])).trans ?_))
  rw [hu]

theorem exec_preemptReceive {cls : Nat} (n : Nat) (hsusp : (s.pt p).rxSusp = false) (hcls : cls < 6) :
    exec (.preemptReceive p (some (cls, n))) s = .next ((s.onPt p fun x =>
      { x with rxSusp := true, rxOpen := true, rx := { x.rx with bytes := n, c7 := false, drop := false } }).countP (Reg.portPreemptRx p) p) := by
  refine (onUnit_event hp hup _).trans (congrArg _ ?_)
  simp only [hnat, hal, hsusp, Bool.not_true, Bool.or_self, Bool.false_eq_true, if_false, Option.filter_some, hcls, decide_true, if_true]

/-- A PREEMPT inside a preemption, or with no frame of class 0 to 5 open, is discarded. -/
theorem exec_preemptReceive_discarded {f : Option (Nat × Nat)}
    (hf : (s.pt p).rxSusp = true ∨ f = none ∨ ∃ cls n, f = some (cls, n) ∧ 6 ≤ cls) :
    exec (.preemptReceive p f) s = .next (s.lineErr (Reg.portLerrType p) p) := by
  have hNone : (if (s.pt p).rxSusp then none else f.filter fun x => decide (x.1 < 6)) = none := by
    rcases hf with hsusp | rfl | ⟨cls, n, rfl, hcls⟩
    · rw [hsusp]
      rfl
    · exact ite_self _
    · rw [Option.filter_some, if_neg (show ¬ decide ((cls, n).1 < 6) = true by simpa using hcls)]
      exact ite_self _
  refine (onUnit_event hp hup _).trans (congrArg _ ?_)
  simp only [hnat, hal, hNone, Bool.not_true, Bool.or_self, Bool.false_eq_true, if_false]

theorem exec_resumeReceive : exec (.resumeReceive p) s
    = .next (if (s.pt p).rxSusp then s.onPt p fun x => { x with rxSusp := false, rx := { x.rx with drop := false } }
      else s.lineErr (Reg.portLerrType p) p) := by
  refine (onUnit_event hp hup _).trans (congrArg _ ?_)
  simp only [hnat, hal, Bool.not_true, Bool.or_self, Bool.false_eq_true, if_false]

theorem exec_messageDiscard {bs : List Beat} (hbs : msgWords bs = none) :
    exec (.messageDiscard p bs) s = .next (s.countP (Reg.portHalterDiscard p) p) :=
  (onUnit_event hp hup _).trans (congrArg _ (if_pos (by simp [hnat, hal, hbs])))

end

include hup hp in
theorem exec_dozeWake (hnat : s.native p = true) :
    exec (.dozeWake p) s = .next (if s.wakeCause p then s.wakeTx p else s) := by
  refine (onUnit_event hp hup _).trans (congrArg _ ?_)
  simp only [hnat, Bool.true_and]

end

end Sys2Proof.Machine

open Sys2Proof Sys2Proof.Machine

/-- Settles O12: each event by its own equation; a lost training by what leaving UP leaves of the port. -/
theorem beatsAndDozeComplete : Obligations.BeatsAndDozeComplete := by
  refine ⟨fun s p hup hp => ⟨?_, ?_, ?_, ?_, ?_, ?_, ?_, ?_⟩, fun s p hup hp => ⟨?_, ?_, ?_, ?_⟩⟩
  · exact fun hs hb => exec_crumbDue_barred hup hp hs hb
  · exact fun hs hb => exec_crumbDue hup hp hs hb
  · exact fun hs hw hsusp => exec_crumbForced hup hp hs hw hsusp
  · exact fun hnat hport u hu => exec_fillCrumbAbort hup hp hnat hport hu
  · intro hnat hport line place h hh hstuff hlen
    subst hh
    refine (exec_controlBeatDiscard hup hp hnat hport line place rfl).trans (congrArg _ ?_)
    rw [hstuff, if_neg (Nat.not_lt.mpr hlen)]
    rfl
  · intro hnat hport line place h hh hstuff hlen
    subst hh
    refine (exec_controlBeatDiscard hup hp hnat hport line place rfl).trans (congrArg _ ?_)
    rw [hstuff, if_pos hlen]
    rfl
  · exact fun b place hctl => ⟨judgeBeat_of_crc place hctl, judgeBeat_of_place place hctl⟩
  · intro hnat hal
    refine ⟨?_, ?_, ?_, ?_, ?_, ?_, ?_, ?_⟩
    · exact fun n hn => exec_crumbDelete hup hp hnat hal hn
    · exact exec_crumbInsert hup hp hnat hal
    · exact fun n u hn hu => exec_elasticOverrun hup hp hnat hal hn hu
    · exact fun cls n hsusp hcls => exec_preemptReceive hup hp hnat hal n hsusp hcls
    · exact fun f hf => exec_preemptReceive_discarded hup hp hnat hal hf
    · exact fun hsusp => (exec_resumeReceive hup hp hnat hal).trans (congrArg _ (if_pos hsusp))
    · exact fun hsusp => (exec_resumeReceive hup hp hnat hal).trans (congrArg _ (if_neg (by simp [hsusp])))
    · exact fun bs hbs => exec_messageDiscard hup hp hnat hal hbs
  · exact fun hnat hport hwake hmay => exec_dozeEntry hup hp hnat hport hwake hmay
  · exact fun hnat hport => exec_dozeReceive hup hp hnat hport
  · exact fun hnat => ⟨fun hc => (exec_dozeWake hup hp hnat).trans (congrArg _ (if_pos hc)),
      fun hc => (exec_dozeWake hup hp hnat).trans (congrArg _ (if_neg (by simp [hc])))⟩
  · exact fun hnat hport hdoze => ⟨exec_trainAlignment hup hp hnat hport true hdoze,
      _, exec_trainAlignment hup hp hnat hport false hdoze, trainLost_spec s p⟩

end

section
/-! R51 to R55, R59: halters sent, taken and missed. -/

namespace Sys2Proof.Machine

open Host

/-! The loss of an upstream touches registers of its own domain and event status registers alone (R216, R240). -/

section
variable {s : State} {a d n : Nat}

theorem rd_setHold (hd : d < 2) (on : Bool) (hDom : a ≠ Reg.tsuDom d) (hGen : a ≠ Reg.tsuGen d) (he : ¬ EvtReg a) :
    (s.setHold d on).rd a = s.rd a := by
  unfold State.setHold
  split
  · rfl
  · have hRaised : ((s.setFld (Reg.tsuDom d) 2 1 (b2n on)).raise (133 + d)).rd a = s.rd a := by
      rw [(raise_noted _ (by omega)).rd _ he, State.rd_setFld, if_neg hDom]
    split
    · rw [State.rd_setFld, if_neg hGen, State.rd_onDm, hRaised]
    · exact hRaised

theorem rd_armCause : s.armCause.rd a = s.rd a := by
  unfold State.armCause
  split <;> rfl

theorem rd_setDomState (hd : d < 2) (hDom : a ≠ Reg.tsuDom d) (hGen : a ≠ Reg.tsuGen d) (he : ¬ EvtReg a) :
    (s.setDomState d n).rd a = s.rd a := by
  unfold State.setDomState
  split
  · rfl
  · have hRaised : (((s.setFld (Reg.tsuDom d) 0 2 n).stick (Reg.tsuDom d) 27).raise (128 + d)).rd a = s.rd a := by
      rw [(raise_noted _ (by omega)).rd _ he, State.rd_stick, if_neg hDom, State.rd_setFld, if_neg hDom]
    dsimp only
    rw [State.rd_onDm, apply_ite (fun t => State.rd t a), rd_armCause, ite_self, apply_ite (fun t => State.rd t a),
      rd_setHold hd _ hDom hGen he, ite_self, hRaised]

theorem rd_loseUpstream (hd : d < 2) (hDom : a ≠ Reg.tsuDom d) (hGen : a ≠ Reg.tsuGen d) (he : ¬ EvtReg a) :
    (s.loseUpstream d).rd a = s.rd a := by
  have hCleared : ((s.setFld (Reg.tsuDom d) 16 5 0x1F).setFld (Reg.tsuDom d) 21 3 0).rd a = s.rd a := by
    rw [State.rd_setFld, if_neg hDom, State.rd_setFld, if_neg hDom]
  unfold State.loseUpstream
  dsimp only
  split
  · rw [State.rd_onDm, hCleared]
  · rw [rd_setDomState hd hDom hGen he, hCleared]
  · rw [rd_setHold hd _ hDom hGen he, hCleared]

/-- A register below the time scale's, and no event status register. -/
theorem rd_dropUpstream {p : Nat} (hLo : 0x100000 ≤ a) (hHi : a < 0x400000) : (s.dropUpstream p).rd a = s.rd a := by
  have hLose : ∀ (t : State) (d : Nat), d < 2 → (t.loseUpstream d).rd a = t.rd a := fun t d hd =>
    rd_loseUpstream hd (by unfold Reg.tsuDom; omega) (by unfold Reg.tsuGen; omega) (not_evtReg_of_le (by omega))
  unfold State.dropUpstream
  simp only [List.foldl, apply_ite (fun t => State.rd t a), hLose _ 0 (by decide), hLose _ 1 (by decide), ite_self]

end

/-! The halter that stands: its bits of PORT_HALTER_STAT and the time of its arrival. -/

/-- PORT_HALTER_STAT keeps valid, hash and period, and the time of the last valid halter stands. -/
structure HalterKept (p : Nat) (s t : State) : Prop where
  bits : ∀ i, i < 3 → t.bitAt (Reg.portHalterStat p) i = s.bitAt (Reg.portHalterStat p) i
  at_ : (t.pt p).halterAt = (s.pt p).halterAt

namespace HalterKept

variable {p : Nat} {s t u : State}

theorem refl (s : State) : HalterKept p s s := ⟨fun _ _ => rfl, rfl⟩

theorem trans (h : HalterKept p s t) (k : HalterKept p t u) : HalterKept p s u :=
  ⟨fun i hi => (k.bits i hi).trans (h.bits i hi), k.at_.trans h.at_⟩

theorem ite {b : Prop} [Decidable b] (h : HalterKept p s t) (k : HalterKept p s u) : HalterKept p s (if b then t else u) := by
  split
  · exact h
  · exact k

theorem of_rd (h : t.rd (Reg.portHalterStat p) = s.rd (Reg.portHalterStat p)) (hp : t.stills = s.stills) : HalterKept p s t :=
  ⟨fun i _ => by rw [State.bitAt, h, State.bitAt],
    (congrArg PortSt.halterAt (stills_eq hp p) : (t.pt p).still.halterAt = (s.pt p).still.halterAt)⟩

theorem onPt (s : State) {f : PortSt → PortSt} (hf : (f (s.pt p)).halterAt = (s.pt p).halterAt) : HalterKept p s (s.onPt p f) :=
  ⟨fun i _ => bitAt_onPt f _ i, by rw [State.pt_onPt_self, hf]⟩

theorem not_evtReg : ¬ EvtReg (Reg.portHalterStat p) := not_evtReg_of_le (by unfold Reg.portHalterStat; omega)

theorem raiseAt (s : State) {n : Nat} (w : Word) (v : Nat) (hn : n < 256) : HalterKept p s (s.raiseAt n w v) :=
  of_rd ((raiseAt_noted s w v hn).rd _ not_evtReg) (raiseAt_stills s n w v)

theorem raise (s : State) {n : Nat} (hn : n < 256) : HalterKept p s (s.raise n) := raiseAt s 0 _ hn

theorem setMm (s : State) {i : Nat} (hi : 3 ≤ i) (hi' : i < 16) (v : Bool) : HalterKept p s (s.setMm p i v) := by
  have hFld : HalterKept p s (s.setFld (Reg.portHalterStat p) i 1 (b2n v)) :=
    ⟨fun k hk => (bitAt_setFld_self s _ _ _ (by omega)).trans (if_neg (by omega)), rfl⟩
  unfold State.setMm
  exact .ite (hFld.trans ⟨fun k hk => bitAt_stick_of_bit_ne _ _ (by omega), rfl⟩) hFld

theorem stick_tsuDom (s : State) (d i : Nat) : HalterKept p s (s.stick (Reg.tsuDom d) i) :=
  of_rd ((State.rd_stick _ _ _ _).trans (if_neg (by unfold Reg.portHalterStat Reg.tsuDom; omega))) rfl

theorem loseUpstream (s : State) {d : Nat} (hd : d < 2) : HalterKept p s (s.loseUpstream d) :=
  of_rd (rd_loseUpstream hd (by unfold Reg.portHalterStat Reg.tsuDom; omega) (by unfold Reg.portHalterStat Reg.tsuGen; omega) not_evtReg)
    (loseUpstream_stills s d)

theorem dropUpstream (s : State) (q : Nat) (hp : p < 24) : HalterKept p s (s.dropUpstream q) :=
  of_rd (rd_dropUpstream (by unfold Reg.portHalterStat; omega) (by unfold Reg.portHalterStat; omega)) (dropUpstream_stills s q)

end HalterKept

/-! The steps of taking a halter (R54, R55, R59). -/

/-- The words are stored, and the halter is valid as of now. -/
def State.halterStored (s : State) (p : Nat) (ws : List Nat) : State :=
  ((((List.range 6).foldl (fun u i => u.wr (Reg.portHalterRx p i) (w32 (ws.getD (2 * i) 0 + ws.getD (2 * i + 1) 0 * 65536))) s).setFld
    (Reg.portHalterStat p) 24 8 (ws.getD 3 0 / 256)).setFld (Reg.portHalterStat p) 0 1 1).onPt p fun y =>
      { y with halterAt := some s.now, halterDue := y.halterDue || (ws.getD 0 0).testBit 12 }

/-- Class 7 where the halter lets it stand. -/
def State.halterC7 (t : State) (p : Nat) : State := if t.c7Agreed p then t else t.onPt p fun y => { y with c7Ok := false }

/-- The domain number of one domain compared. -/
def State.halterDom (u : State) (p d v : Nat) : State :=
  let bad : Bool := decide (v ≠ u.fld (Reg.tsuDom d) 8 8)
  let u' := u.setMm p (3 + d) bad
  let u' := if bad && !u.bitAt (Reg.portHalterStat p) (3 + d) then (u'.stick (Reg.tsuDom d) 26).raiseAt 135 0 d else u'
  if bad && u'.isUp p d then u'.loseUpstream d else u'

/-- A mismatch that source 64 + p reports as it arises. -/
def State.halterNode (t : State) (p i : Nat) (bad : Bool) : State :=
  if bad && !t.bitAt (Reg.portHalterStat p) i then (t.setMm p i true).raise (64 + p) else t.setMm p i bad

/-- A halter whose hash and period agree. -/
def State.halterAgreed (s : State) (p : Nat) (ws : List Nat) : State := ((s.halterStored p ws).setMm p 1 false).setMm p 2 false

/-- Role, node and firmware compared. -/
def State.halterPeer (t : State) (p : Nat) (roleBad dup maj : Bool) : State :=
  let u := ((t.setMm p 5 roleBad).halterNode p 6 dup).halterNode p 7 maj
  if roleBad || dup then u.dropUpstream p else u

variable {s : State} {p : Nat}

theorem takeHalter_of_agreed {ws : List Nat} (hHash : ws.getD 7 0 + ws.getD 8 0 * 65536 = (s.rd Reg.cycNetHash).toNat)
    (hPer : ws.getD 5 0 + ws.getD 6 0 * 65536 = (s.rd Reg.cycPeriod).toNat) :
    ∃ roleBad dup maj, s.takeHalter p ws = ((((s.halterAgreed p ws).halterC7 p).halterDom p 0 (ws.getD 4 0 % 256)).halterDom p 1
      (ws.getD 4 0 / 256)).halterPeer p roleBad dup maj := by
  unfold State.takeHalter
  simp only [hHash, hPer, decide_true, Bool.and_self, if_true]
  exact ⟨_, _, _, rfl⟩

theorem halterC7_kept (t : State) (p : Nat) : HalterKept p t (t.halterC7 p) := .ite (.refl t) (.onPt t rfl)

theorem halterDom_kept (u : State) {d : Nat} (v : Nat) (hd : d < 2) : HalterKept p u (u.halterDom p d v) := by
  unfold State.halterDom
  dsimp only
  generalize decide (v ≠ u.fld (Reg.tsuDom d) 8 8) = bad
  have hMm : HalterKept p u (u.setMm p (3 + d) bad) := .setMm u (by omega) (by omega) bad
  have hNews : HalterKept p u (if bad && !u.bitAt (Reg.portHalterStat p) (3 + d)
      then ((u.setMm p (3 + d) bad).stick (Reg.tsuDom d) 26).raiseAt 135 0 d else u.setMm p (3 + d) bad) :=
    .ite ((hMm.trans (.stick_tsuDom _ d 26)).trans (.raiseAt _ 0 d (by decide))) hMm
  exact .ite (hNews.trans (.loseUpstream _ hd)) hNews

theorem halterNode_kept (t : State) {i : Nat} (bad : Bool) (hp : p < 24) (hi : 3 ≤ i) (hi' : i < 16) :
    HalterKept p t (t.halterNode p i bad) :=
  .ite ((HalterKept.setMm t hi hi' true).trans (.raise _ (by omega))) (.setMm t hi hi' bad)

theorem halterPeer_kept (t : State) (roleBad dup maj : Bool) (hp : p < 24) : HalterKept p t (t.halterPeer p roleBad dup maj) := by
  have hSet : HalterKept p t (((t.setMm p 5 roleBad).halterNode p 6 dup).halterNode p 7 maj) :=
    ((HalterKept.setMm t (by decide) (by decide) roleBad).trans (halterNode_kept _ dup hp (by decide) (by decide))).trans
      (halterNode_kept _ maj hp (by decide) (by decide))
  exact .ite (hSet.trans (.dropUpstream _ p hp)) hSet

theorem halterAgreed_spec (s : State) (p : Nat) (ws : List Nat) : ((s.halterAgreed p ws).pt p).halterAt = some s.now ∧
    (s.halterAgreed p ws).bitAt (Reg.portHalterStat p) 0 = true ∧ (s.halterAgreed p ws).bitAt (Reg.portHalterStat p) 1 = false ∧
      (s.halterAgreed p ws).bitAt (Reg.portHalterStat p) 2 = false := by
  unfold State.halterAgreed State.setMm State.halterStored
  simp only [Bool.false_eq_true, if_false]
  refine ⟨?_, ?_, ?_, ?_⟩
  · rw [State.pt_setFld, State.pt_setFld, State.pt_onPt_self]
  · rw [bitAt_setFld_self _ _ _ _ (by decide), if_neg (by decide), bitAt_setFld_self _ _ _ _ (by decide), if_neg (by decide), bitAt_onPt,
      bitAt_set _ _ (by decide)]
  · rw [bitAt_setFld_self _ _ _ _ (by decide), if_neg (by decide), bitAt_setFld_bit _ _ false (by decide)]
  · rw [bitAt_setFld_bit _ _ false (by decide)]

/-! The events (R52, R54). -/

section
variable (hup : s.life = .up) (hp : p < 24) (hnat : s.native p = true) (hport : (s.pt p).up = true)
include hup hp hnat hport

section
variable (hmsg : s.mayMessage p 14 = true)
include hmsg

omit hup hp in
theorem mayHalter_of_up : s.mayHalter p = true := by simp [State.mayHalter, hnat, hport, hmsg]

theorem exec_halterSend : exec (.halterSend p) s = .next (if s.halterPending p then s.sendHalter p (s.halterAsks p) else s) := by
  refine (onUnit_event hp hup _).trans (congrArg _ ?_)
  simp only [mayHalter_of_up hnat hport hmsg, Bool.true_and]

theorem exec_halterPeriodic (hdue : ∀ r, (s.pt p).halterSentAt = some r → r + 125000000 ≤ s.now) :
    exec (.halterPeriodic p) s = .next (s.sendHalter p (s.halterAsks p)) := by
  refine (onUnit_event hp hup _).trans (congrArg _ ?_)
  dsimp only
  rw [mayHalter_of_up hnat hport hmsg]
  cases hat : (s.pt p).halterSentAt with
  | none => rfl
  | some r => exact if_pos (by simp [hdue r hat])

end

omit hport in
theorem exec_halterReceive {ws : List Nat} (hal : s.aligned p = true) :
    exec (.halterReceive p ws) s = .next (if msgOk ws then s.takeHalter p ws else s.countP (Reg.portHalterDiscard p) p) := by
  refine (onUnit_event hp hup _).trans (congrArg _ ?_)
  simp only [hnat, hal, Bool.not_true, Bool.or_self, Bool.false_eq_true, if_false]

/-- What HALTER_TIMEOUT leaves. -/
def State.halterMissed (s : State) (p : Nat) : State :=
  let u := ((s.setFld (Reg.portHalterStat p) 0 1 0).stick (Reg.portHalterStat p) 16).onPt p fun x => { x with c7Ok := false }
  (u.raiseAt (64 + p) (u.rd (Reg.portHalterStat p)) p).dropUpstream p

theorem exec_halterTimeout {r : Nat} (hat : (s.pt p).halterAt = some r) (hvalid : s.bitAt (Reg.portHalterStat p) 0 = true)
    (hdue : r + 437500000 ≤ s.now) : exec (.halterTimeout p) s = .next (s.halterMissed p) := by
  refine (onUnit_event hp hup _).trans (congrArg _ ?_)
  dsimp only
  rw [hat]
  exact if_pos (by simp [hnat, hport, hvalid, hdue])

end

theorem halterMissed_spec (hp : p < 24) : (s.halterMissed p).bitAt (Reg.portHalterStat p) 0 = false ∧
    (s.halterMissed p).bitAt (Reg.portHalterStat p) 16 = true ∧ ((s.halterMissed p).pt p).c7Ok = false := by
  unfold State.halterMissed
  dsimp only
  generalize hu : ((s.setFld (Reg.portHalterStat p) 0 1 0).stick (Reg.portHalterStat p) 16).onPt p (fun x => { x with c7Ok := false }) = u
  have hBits : ∀ i, ((u.raiseAt (64 + p) (u.rd (Reg.portHalterStat p)) p).dropUpstream p).bitAt (Reg.portHalterStat p) i
      = u.bitAt (Reg.portHalterStat p) i := fun i => by
    rw [State.bitAt, rd_dropUpstream (by unfold Reg.portHalterStat; omega) (by unfold Reg.portHalterStat; omega),
      (raiseAt_noted _ _ _ (by omega)).rd _ HalterKept.not_evtReg, State.bitAt]
  refine ⟨?_, ?_, ?_⟩
  · rw [hBits, ← hu, bitAt_onPt, bitAt_stick_of_bit_ne _ _ (by decide), bitAt_clear _ _ (by decide)]
  · rw [hBits, ← hu, bitAt_onPt, bitAt_stick_self _ _ (by decide)]
  · rw [c7Ok_of_stills ((dropUpstream_stills _ p).trans (raiseAt_stills u (64 + p) (u.rd (Reg.portHalterStat p)) p)) p, ← hu, State.pt_onPt_self]

end Sys2Proof.Machine

open Sys2Proof Sys2Proof.Machine

/-- Settles O13: each event by its own equation; what a halter that agrees leaves, by the steps after it, none of which touches it. -/
theorem haltersComplete : Obligations.HaltersComplete := by
  refine ⟨fun s p hup hp hnat hport => ⟨fun hmsg => ⟨?_, ?_, ?_⟩, ?_, ?_, ?_⟩, fun s p ws hp hHash hPer => ?_⟩
  · exact fun hpend => (exec_halterSend hup hp hnat hport hmsg).trans (congrArg _ (if_pos hpend))
  · exact fun hpend => (exec_halterSend hup hp hnat hport hmsg).trans (congrArg _ (if_neg (by simp [hpend])))
  · exact fun hdue => exec_halterPeriodic hup hp hnat hport hmsg hdue
  · exact fun ws hal hok => (exec_halterReceive hup hp hnat hal).trans (congrArg _ (if_pos hok))
  · exact fun ws hal hok => (exec_halterReceive hup hp hnat hal).trans (congrArg _ (if_neg (by simp [hok])))
  · exact fun r hat hvalid hdue => ⟨_, exec_halterTimeout hup hp hnat hport hat hvalid hdue, halterMissed_spec hp⟩
  · obtain ⟨roleBad, dup, maj, hTake⟩ := takeHalter_of_agreed (p := p) hHash hPer
    obtain ⟨hAt, hValid, hMm1, hMm2⟩ := halterAgreed_spec s p ws
    have hKept : HalterKept p (s.halterAgreed p ws) (s.takeHalter p ws) := by
      rw [hTake]
      exact (((halterC7_kept _ p).trans (halterDom_kept _ _ (by decide))).trans (halterDom_kept _ _ (by decide))).trans
        (halterPeer_kept _ _ _ _ hp)
    exact ⟨hKept.at_.trans hAt, (hKept.bits 0 (by decide)).trans hValid, (hKept.bits 1 (by decide)).trans hMm1,
      (hKept.bits 2 (by decide)).trans hMm2⟩

end

section
/-! R38, R61, R67, R76, R83: lasers, quality figures, STD and SGMII lines, and multidrop segments. -/

namespace Sys2Proof.Machine

open Host

theorem raise_sets {s : State} {n c : Nat} (hn : n < 256) (hc : c < 8) (h : s.bitAt (Reg.evtRoute n) c = true) :
    (s.raise n).bitAt (Reg.evtStat c (n / 32)) (n % 32) = true :=
  (Onward.raiseBits_raise s n).bits _ _ (evtStat_mem_evtBlock hc (by omega)) (raiseBits_sets hn hc h)

/-- A word of two halves (R85). -/
theorem getFld_w32_high (a : Nat) {n : Nat} (ha : a < 2 ^ 16) (hn : n < 2 ^ 16) : getFld (w32 (a + n * 65536)) 16 16 = n := by
  rw [getFld, toNat_w32]
  omega

variable {s : State} {p : Nat}

theorem exec_laserFault (hup : s.life = .up) (hp : p < 16) (hon : s.txOn p = true) :
    exec (.laserFault p) s = .next (((s.portErr p (Reg.portPhyStat p) 8).onPt p fun x => { x with laserHeld := true }).toLos p) :=
  (onUnit_event hp hup _).trans (congrArg _ (if_pos hon))

/-! QUALITY_UPDATE (R76). -/

/-- The figures of a port as QUALITY_UPDATE writes them. -/
def State.quality (s : State) (p : Nat) (q : Quality) : State :=
  (s.wr (Reg.portQual0 p) (w32 (min 64 q.eye + min 255 q.margin * 256 + min 65535 q.resid * 65536))).wr (Reg.portQual1 p)
    (w32 ((if s.native p then min 65535 q.time else 65535) + (s.fld (Reg.portQual1 p) 16 16 + 1) % 65536 * 65536))

theorem exec_qualityUpdate {q : Quality} (hup : s.life = .up) (hp : p < 24) (hport : (s.pt p).up = true) (heye : 16 ≤ q.eye)
    (hmargin : 10 ≤ q.margin) : exec (.qualityUpdate p q) s = .next (s.quality p q) := by
  have hGood : ¬ (q.eye < 16 ∨ q.margin < 10) := by omega
  refine (onUnit_event hp hup _).trans (congrArg _ ?_)
  simp only [hport, hGood, Bool.not_true, Bool.false_eq_true, if_false, State.quality]

theorem quality_spec (s : State) (p : Nat) (q : Quality) :
    (s.quality p q).rd (Reg.portQual0 p) = w32 (min 64 q.eye + min 255 q.margin * 256 + min 65535 q.resid * 65536) ∧
      (s.quality p q).fld (Reg.portQual1 p) 16 16 = (s.fld (Reg.portQual1 p) 16 16 + 1) % 65536 := by
  have hne : Reg.portQual0 p ≠ Reg.portQual1 p := by unfold Reg.portQual1 Reg.portQual0; omega
  unfold State.quality
  constructor
  · rw [State.rd_wr, if_neg hne, State.rd_wr_self]
  · rw [fld_wr_self, getFld_w32_high _ (by split <;> omega) (by omega)]

/-! STD and SGMII lines (R61). -/

section
variable (hup : s.life = .up) (hp : p < 24)
include hup hp

theorem exec_stdBlockLockChange (locked : Bool) (hnat : s.native p = false) (hen : s.enabled p = true) (hst : s.lineState p ≠ 0) :
    exec (.stdBlockLockChange p locked) s = .next (
      if !locked then ((s.onPt p fun x => { x with pcs := locked }).leaveUp p).setLine p 2
      else if (s.pt p).mode = .sgmii ∧ (s.pt p).sgUp = false then (s.onPt p fun x => { x with pcs := locked }).setLine p 2
      else (s.onPt p fun x => { x with pcs := locked }).enterUp p) := by
  refine (onUnit_event hp hup _).trans (congrArg _ ?_)
  simp only [hnat, hen, hst, Bool.not_true, Bool.or_self, decide_false, Bool.false_eq_true, if_false]

theorem exec_sgmiiInbandWord_up {speed : Nat} (hmode : (s.pt p).mode = .sgmii) (hpcs : (s.pt p).pcs = true) (hdown : (s.pt p).up = false)
    (hs : speed < 3) : exec (.sgmiiInbandWord p true speed) s
      = .next (((s.setFld (Reg.portPhyStat p) 5 2 speed).onPt p fun x => { x with sgUp := true }).enterUp p) := by
  refine (onUnit_event hp hup _).trans (congrArg _ ?_)
  simp only [hmode, hpcs, hdown, Nat.not_le.mpr hs, ne_eq, not_true, Bool.not_true, Bool.false_eq_true, or_self, if_false, ite_self, if_true]

end

/-! Multidrop segments (R83). -/

section
variable (hup : s.life = .up) (h24 : 24 ≤ p) (hp : p < 28)
include h24 hp

theorem mPort_of_lt : mPort p = true := by simp [mPort, h24, hp]

include hup

theorem exec_mPortEntersUp (hen : s.enabled p = true) (hheld : (s.pt p).segHeld = false) :
    exec (.mPortEntersUp p) s = .next (s.enterUp p) :=
  (onUnit_event hp hup _).trans (congrArg _ (if_pos (by simp [mPort_of_lt h24 hp, hen, hheld])))

theorem exec_segmentFault (hport : (s.pt p).up = true) : exec (.segmentFault p) s
    = .next (((s.portErr p (Reg.portPhyStat p) 12).leaveUp p).onPt p fun x => { x with segHeld := true }) :=
  (onUnit_event hp hup _).trans (congrArg _ (if_pos (by simp [mPort_of_lt h24 hp, hport])))

theorem exec_segmentRetry (hen : s.enabled p = true) (hheld : (s.pt p).segHeld = true) :
    exec (.segmentRetry p true) s = .next (s.enterUp p) :=
  (onUnit_event hp hup _).trans (congrArg _ (if_pos (by simp [mPort_of_lt h24 hp, hen, hheld])))

end

/-! Entering UP raises source 32 + p (R38). -/

/-- A port entering UP, before its source is raised. -/
def State.entered (s : State) (p : Nat) : State :=
  let t := s.onPt p (PortSt.enter s.now s.uptime)
  let t := if p < 24 then (t.setLine p 3).setFld (Reg.portLineStat p) 3 1 0 else t
  if p < 16 ∧ s.bitAt (Reg.portPhyStat p) 2 = false then
    ((t.setFld (Reg.portPhyStat p) 2 1 1).wr (Reg.portEqDig p) (BitVec.ofInt 32 (Config.measured t.freeCtr))).drawn
  else t

theorem enterUp_of_down (h : (s.pt p).up = false) : s.enterUp p = (s.entered p).raise (32 + p) := by
  unfold State.enterUp
  rw [h]
  rfl

/-- A register below those of the ports stands while a port enters UP. -/
theorem rd_entered {a : Nat} (ha : a < 0x100000) : (s.entered p).rd a = s.rd a := by
  have hLine : a ≠ Reg.portLineStat p := by unfold Reg.portLineStat; omega
  have hPhy : a ≠ Reg.portPhyStat p := by unfold Reg.portPhyStat; omega
  have hEq : a ≠ Reg.portEqDig p := by unfold Reg.portEqDig; omega
  unfold State.entered State.setLine
  simp only [apply_ite (fun t => State.rd t a), State.rd_drawn, State.rd_wr, State.rd_setFld, State.rd_onPt, if_neg hLine, if_neg hPhy, if_neg hEq,
    ite_self]

theorem enterUp_raises {c : Nat} (hp : p < 28) (hc : c < 8) (hroute : s.bitAt (Reg.evtRoute (32 + p)) c = true) (h : (s.pt p).up = false) :
    (s.enterUp p).bitAt (Reg.evtStat c ((32 + p) / 32)) ((32 + p) % 32) = true := by
  rw [enterUp_of_down h]
  refine raise_sets (by omega) hc ?_
  rw [State.bitAt, rd_entered (by unfold Reg.evtRoute; omega)]
  exact hroute

end Sys2Proof.Machine

open Sys2Proof Sys2Proof.Machine

/-- Settles O14: each event by its own equation; entering and leaving UP by what they leave of the port and raise. -/
theorem lightAndSegmentsComplete : Obligations.LightAndSegmentsComplete := by
  refine ⟨fun s p hup => ⟨?_, ?_, ?_, ?_, ?_⟩, fun s p c hp hc hroute => ⟨fun hdown => ?_, fun hport => ?_⟩⟩
  · exact fun hp hon => exec_laserFault hup hp hon
  · exact fun q hp hport heye hmargin => ⟨_, exec_qualityUpdate hup hp hport heye hmargin, quality_spec s p q⟩
  · intro hp hnat hen hst
    refine ⟨fun hmode => ?_, exec_stdBlockLockChange hup hp false hnat hen hst⟩
    exact (exec_stdBlockLockChange hup hp true hnat hen hst).trans (congrArg _ (if_neg (not_and_of_not_left _ hmode)))
  · exact fun hp hmode hpcs hdown speed hs => exec_sgmiiInbandWord_up hup hp hmode hpcs hdown hs
  · intro h24 hp
    refine ⟨fun hen hheld => exec_mPortEntersUp hup h24 hp hen hheld, fun hport => ⟨_, exec_segmentFault hup h24 hp hport, ?_, ?_⟩,
      fun hen hheld _ => exec_segmentRetry hup h24 hp hen hheld⟩
    · rw [State.pt_onPt_self]
      exact leaveUp_up _ p
    · rw [State.pt_onPt_self]
  · exact ⟨enterUp_up hdown, enterUp_raises hp hc hroute hdown⟩
  · exact ⟨leaveUp_up s p, leaveUp_c7Ok hport⟩

end

section
/-! R122, R131, R136, R137, R139, R140: the DRAM lottery, and the switch core's own events. -/

namespace Sys2Proof.Machine

open Host

/-! The draw by weights (R136). -/

/-- A draw picks an index whose weight is not 0. -/
theorem drawOf_weight {ws : List Nat} {r acc i w : Nat} (hr : acc ≤ r) (h : drawOf ws r acc i = some w) :
    i ≤ w ∧ 0 < ws.getD (w - i) 0 := by
  induction ws generalizing acc i with
  | nil => cases h
  | cons x ws ih =>
    rw [drawOf] at h
    split at h
    · cases h
      simp
      omega
    · obtain ⟨hle, hpos⟩ := ih (by omega) h
      refine ⟨by omega, ?_⟩
      rw [show w - i = (w - (i + 1)) + 1 by omega]
      simpa using hpos

/-- A value below the sum of the weights draws some index. -/
theorem drawOf_isSome {ws : List Nat} {r acc : Nat} (i : Nat) (hr : acc ≤ r) (h : r < acc + ws.sum) : ∃ w, drawOf ws r acc i = some w := by
  induction ws generalizing acc i with
  | nil => simp at h; omega
  | cons x ws ih =>
    rw [List.sum_cons] at h
    rw [drawOf]
    split
    · exact ⟨i, rfl⟩
    · exact ih (i + 1) (by omega) (by omega)

/-- The upper half of a word scales a positive total to a value below it. -/
theorem scaled_lt (v : Word) {total : Nat} (h : 0 < total) : v.toNat / 65536 * total / 65536 < total := by
  have hv : v.toNat / 65536 < 65536 := by omega
  rw [Nat.div_lt_iff_lt_mul (by decide), Nat.mul_comm total]
  exact Nat.mul_lt_mul_of_pos_right hv h

/-- The pick of a slot by weights (R136). -/
def pickOf (lfsr : Word) (ws : List Nat) : Option Nat :=
  if ws.sum = 0 then none else drawOf ws (lfsr.toNat / 65536 * ws.sum / 65536) 0 0

/-- The weights of a slot: the tickets of the requesters that are active, and their number where all of them hold none. -/
def ticketsOf (tickets : List Nat) (active : BitVec 6) : List Nat := (List.range 6).map fun i => if active.getLsbD i then tickets.getD i 0 else 0
def requestsOf (active : BitVec 6) : List Nat := (List.range 6).map fun i => b2n (active.getLsbD i)

theorem lottery_eq (lfsr : Word) (tickets : List Nat) (active : BitVec 6) : lottery lfsr tickets active
    = pickOf lfsr (if (ticketsOf tickets active).sum = 0 then requestsOf active else ticketsOf tickets active) := by
  unfold lottery pickOf ticketsOf requestsOf
  simp only [← List.sum_eq_foldl_nat]
  split <;> rfl

theorem pickOf_weight {lfsr : Word} {ws : List Nat} {w : Nat} (h : pickOf lfsr ws = some w) : 0 < ws.getD w 0 := by
  unfold pickOf at h
  split at h
  · cases h
  · exact (drawOf_weight (Nat.zero_le _) h).2

theorem pickOf_isSome (lfsr : Word) {ws : List Nat} (h : ws.sum ≠ 0) : ∃ w, pickOf lfsr ws = some w := by
  unfold pickOf
  rw [if_neg h]
  exact drawOf_isSome 0 (Nat.zero_le _) (by rw [Nat.zero_add]; exact scaled_lt lfsr (Nat.pos_of_ne_zero h))

/-- A list over the six requesters with a weight above 0 has it at one of them. -/
theorem getD_six {f : Nat → Nat} {w : Nat} (h : 0 < ((List.range 6).map f).getD w 0) : w < 6 ∧ 0 < f w := by
  by_cases hw : w < 6
  · rw [List.getD_eq_getElem _ _ (by simpa using hw)] at h
    exact ⟨hw, by simpa using h⟩
  · rw [List.getD_eq_default _ _ (by simpa using hw)] at h
    exact absurd h (Nat.lt_irrefl 0)

theorem lottery_active {lfsr : Word} {tickets : List Nat} {active : BitVec 6} {w : Nat} (h : lottery lfsr tickets active = some w) :
    w < 6 ∧ active.getLsbD w = true := by
  rw [lottery_eq] at h
  have hpos := pickOf_weight h
  split at hpos
  · obtain ⟨hw, hf⟩ := getD_six hpos
    refine ⟨hw, ?_⟩
    cases ha : active.getLsbD w
    · rw [ha] at hf
      cases hf
    · rfl
  · obtain ⟨hw, hf⟩ := getD_six hpos
    refine ⟨hw, ?_⟩
    cases ha : active.getLsbD w
    · rw [ha] at hf
      cases hf
    · rfl

theorem requestsOf_sum {active : BitVec 6} (h : active ≠ 0) : (requestsOf active).sum ≠ 0 := by
  intro hsum
  refine h (BitVec.eq_of_getLsbD_eq fun i hi => ?_)
  have hzero := List.sum_eq_zero_iff.mp hsum (b2n (active.getLsbD i)) (List.mem_map.mpr ⟨i, List.mem_range.mpr hi, rfl⟩)
  cases ha : active.getLsbD i
  · simp
  · rw [ha] at hzero
    cases hzero

theorem lottery_isSome (lfsr : Word) (tickets : List Nat) {active : BitVec 6} (h : active ≠ 0) : ∃ w, lottery lfsr tickets active = some w := by
  rw [lottery_eq]
  refine pickOf_isSome lfsr ?_
  split
  · exact requestsOf_sum h
  · assumption

/-! The events of the switch core. -/

variable {s : State}

theorem sweepList_expired (d : State → Copy → List Copy → State) {x : Copy} (rest : List Copy) (h0 : x.sent = 0) (hx : s.expired x = true) :
    sweepList d (x :: rest) s = sweepList d rest (d s x rest) := if_pos ⟨h0, hx⟩

theorem sweepList_stops (d : State → Copy → List Copy → State) {x : Copy} (rest : List Copy) (h : x.sent ≠ 0 ∨ s.expired x = false) :
    sweepList d (x :: rest) s = s := by
  refine if_neg fun hgo => ?_
  obtain ⟨h0, hx⟩ := hgo
  rcases h with hs | he
  · exact hs h0
  · rw [he] at hx
    cases hx

theorem exec_dramReadyChange {ready : Bool} (hup : s.life = .up) (h : s.dramReady ≠ ready) : exec (.dramReadyChange ready) s = .next
    (if ready then (s.setFld Reg.swcDramStat 16 1 1).raise 99 else ((s.setFld Reg.swcDramStat 16 1 0).raise 99).flushDram.poolMark) := by
  refine (next_event hup _).trans (congrArg _ ?_)
  dsimp only
  rw [if_neg h]
  cases ready
  · simp only [b2n, Bool.false_eq_true, if_false]
  · simp only [b2n, if_true]

theorem exec_bufferEccError_descriptor {q : Nat} (n : Nat) (hup : s.life = .up) (hq : q < 256) :
    exec (.bufferEccError (.descriptor q n)) s = .next ((((((s.flushQueue q).flushSeg q).onSw
      fun x => { x with quar := x.quar + n }).countQ Reg.swcEccUncorr).raise 104).poolMark) := by
  refine (next_event hup _).trans (congrArg _ ?_)
  dsimp only
  rw [if_neg (Nat.not_le.mpr hq)]

/-! ARB_COMMIT_APPLY (R137). -/

/-- The tickets in force taken from the shadow registers, and the LFSR from its seed. -/
def State.arbTake (v : State) : State :=
  let u := (List.range 6).foldl (fun v i => v.wr (Reg.arbTicket i) (w32 (v.fld (Reg.arbTicketSh i) 0 8))) v
  u.wr Reg.arbLfsr (if u.rd Reg.arbLfsrSeed = 0 then 1 else u.rd Reg.arbLfsrSeed)

/-- What the captured values write. -/
def State.putAll (s : State) (l : List (Nat × Word)) : State := l.foldl (fun v x => v.wr x.1 x.2) s

theorem putAll_onSw (f : Sw → Sw) (l : List (Nat × Word)) : (s.onSw f).putAll l = (s.putAll l).onSw f := by
  induction l generalizing s with
  | nil => rfl
  | cons x l ih => exact ih (s := s.wr x.1 x.2)

theorem exec_arbCommitApply {l : List (Nat × Word)} (hup : s.life = .up) (hdue : s.sw.arbDue = some l) (hne : l ≠ []) :
    exec .arbCommitApply s = .next ((s.putAll l).onSw fun x => { x with arbDue := none }).arbTake := by
  refine (next_event hup _).trans (congrArg _ ?_)
  dsimp only
  rw [hdue]
  refine (if_neg (by simpa using hne)).trans ?_
  exact congrArg State.arbTake (putAll_onSw _ l)

/-- The shadow registers and the seed lie outside the registers that take them. -/
theorem rd_ticketsTaken (v : State) {a : Nat} (ha : ∀ i, a ≠ Reg.arbTicket i) (n : Nat) :
    ((List.range n).foldl (fun v i => v.wr (Reg.arbTicket i) (w32 (v.fld (Reg.arbTicketSh i) 0 8))) v).rd a = v.rd a := by
  induction n with
  | zero => rfl
  | succ n ih =>
    rw [List.range_succ, List.foldl_append]
    exact (State.rd_wr _ _ _ _).trans ((if_neg (ha n)).trans ih)

theorem ticketsTaken_rd (v : State) {i n : Nat} (hi : i < n) (hn : n ≤ 6) :
    ((List.range n).foldl (fun v i => v.wr (Reg.arbTicket i) (w32 (v.fld (Reg.arbTicketSh i) 0 8))) v).rd (Reg.arbTicket i)
      = w32 (v.fld (Reg.arbTicketSh i) 0 8) := by
  induction n with
  | zero => omega
  | succ n ih =>
    rw [List.range_succ, List.foldl_append, List.foldl_cons, List.foldl_nil, State.rd_wr]
    split
    · next h =>
      have hin : i = n := by unfold Reg.arbTicket at h; omega
      rw [State.fld, rd_ticketsTaken v (fun k => by unfold Reg.arbTicketSh Reg.arbTicket; omega), hin, State.fld]
    · next h => exact ih (by rcases Nat.lt_succ_iff_lt_or_eq.mp hi with hlt | rfl; exact hlt; exact absurd rfl h) (by omega)

theorem arbTake_sw (v : State) : v.arbTake.sw = v.sw := by
  unfold State.arbTake
  rw [State.wr_sw]
  refine List.foldlRecOn (motive := fun t : State => t.sw = v.sw) _ _ rfl fun t ht i _ => ?_
  exact ht

theorem arbTake_spec (v : State) : (∀ i, i < 6 → v.arbTake.rd (Reg.arbTicket i) = w32 (v.fld (Reg.arbTicketSh i) 0 8)) ∧
    v.arbTake.rd Reg.arbLfsr = if v.rd Reg.arbLfsrSeed = 0 then 1 else v.rd Reg.arbLfsrSeed := by
  unfold State.arbTake
  dsimp only
  constructor
  · intro i hi
    rw [State.rd_wr, if_neg (by unfold Reg.arbTicket Reg.arbLfsr; omega), ticketsTaken_rd v hi (by decide)]
  · rw [State.rd_wr_self, rd_ticketsTaken v (fun k => by unfold Reg.arbTicket Reg.arbLfsrSeed; omega)]

/-! DRAM_SLOT_DRAW (R136). -/

/-- The registers that counting an event may set. -/
def CountReg (a : Nat) : Prop := EvtReg a ∨ PmuReg a

theorem perf_rd (s : State) {n a : Nat} (hn : n < 512) (ha : ¬ CountReg a) : (s.perf n).rd a = s.rd a :=
  (perf_beside (A := CountReg) s n hn (fun _ => .inl) fun _ => .inr).rd a ha

theorem not_countReg {a : Nat} (h : 0x700000 ≤ a) : ¬ CountReg a := by
  rintro (he | hp)
  · exact not_evtReg_of_le (by omega) he
  · rcases hp with ⟨m, hm, rfl | rfl⟩ | rfl | rfl | rfl | rfl
    · unfold Reg.pmcSel at h; omega
    · unfold Reg.pmuOvf at h; omega
    · exact absurd h (by decide)
    · exact absurd h (by decide)
    · exact absurd h (by decide)
    · exact absurd h (by decide)

/-- A counter that is no event status register counts one. -/
theorem count_rd_self (s : State) {a src : Nat} (hs : src < 256) (ha : ¬ EvtReg a) : (s.count a src).rd a = s.rd a + 1 := by
  unfold State.count
  dsimp only
  split
  · rw [(raise_noted _ hs).rd a ha, State.rd_wr_self]
  · rw [State.rd_wr_self]

theorem count_rd (s : State) {a b src : Nat} (hs : src < 256) (hb : b ≠ a) (he : ¬ EvtReg b) : (s.count a src).rd b = s.rd b :=
  (count_noted s a hs).rd b (not_or.mpr ⟨hb, he⟩)

/-- What a draw leaves for its outcome: the grant of the winner, and the losers' events. -/
def State.slotDrawn (s : State) (active : BitVec 6) : Option Nat → State
  | none => s.perf 0xE6
  | some w => (List.range 6).foldl (fun v i => if active.getLsbD i && i != w then v.perf (0xE8 + i) else v)
      ((s.count (Reg.arbGrant w) 107).perf (0xE0 + w))

theorem exec_dramSlotDraw (active : BitVec 6) (hup : s.life = .up) : exec (.dramSlotDraw active) s
    = .next ((s.wr Reg.arbLfsr (lfsrNext (s.rd Reg.arbLfsr))).slotDrawn active
        (lottery (lfsrNext (s.rd Reg.arbLfsr)) ((List.range 6).map fun i => s.fld (Reg.arbTicket i) 0 8) active)) := by
  refine (next_event hup _).trans (congrArg _ ?_)
  dsimp only
  generalize lottery (lfsrNext (s.rd Reg.arbLfsr)) ((List.range 6).map fun i => s.fld (Reg.arbTicket i) 0 8) active = o
  cases o <;> rfl

/-- A draw with a winner counts its grant, and keeps every other register of the arbiter. -/
theorem slotDrawn_rd (s : State) (active : BitVec 6) {w a : Nat} (hw : w < 6) (ha : 0x700000 ≤ a) :
    (s.slotDrawn active (some w)).rd a = if a = Reg.arbGrant w then s.rd a + 1 else s.rd a := by
  have hNot : ¬ CountReg a := not_countReg ha
  have hLosers : ∀ t : State, ((List.range 6).foldl (fun v i => if active.getLsbD i && i != w then v.perf (0xE8 + i) else v) t).rd a = t.rd a := by
    intro t
    refine List.foldlRecOn (motive := fun v : State => v.rd a = t.rd a) _ _ rfl fun v hv i hi => ?_
    have hi6 : i < 6 := List.mem_range.mp hi
    split
    · rw [perf_rd v (by omega) hNot, hv]
    · exact hv
  unfold State.slotDrawn
  dsimp only
  rw [hLosers, perf_rd _ (by omega) hNot]
  split
  · next h =>
    subst h
    exact count_rd_self s (by decide) fun he => hNot (.inl he)
  · next h => exact count_rd s (by decide) h fun he => hNot (.inl he)

end Sys2Proof.Machine

open Sys2Proof Sys2Proof.Machine

/-- Settles O17: the winner's weight is not 0, and the scaled LFSR lies below the sum of the weights. -/
theorem lotteryIsFairToActive : Obligations.LotteryIsFairToActive := fun lfsr tickets _ =>
  ⟨fun _ h => (lottery_active h).2, fun h => lottery_isSome lfsr tickets h⟩

/-- Settles O16: each event by its own equation; a commit of the arbiter and a draw by what their registers read after. -/
theorem switchEventsComplete : Obligations.SwitchEventsComplete := by
  refine ⟨fun s hup => ⟨?_, ?_, ?_, ?_, ?_, ?_, ?_, ?_, ?_⟩, fun s active hup => ?_⟩
  · exact next_event hup _
  · rintro t rfl
    exact next_event hup _
  · exact fun d x rest => ⟨sweepList_expired d rest, sweepList_stops d rest⟩
  · exact fun ready h => exec_dramReadyChange hup h
  · exact next_event hup _
  · exact next_event hup _
  · exact next_event hup _
  · exact fun q n hq => exec_bufferEccError_descriptor n hup hq
  · rintro l v hdue hne rfl
    refine ⟨_, exec_arbCommitApply hup hdue hne, ?_, arbTake_spec _⟩
    rw [arbTake_sw, State.onSw_sw]
  · refine ⟨_, exec_dramSlotDraw active hup, ?_, fun w hw => ?_⟩
    · cases hl : lottery (lfsrNext (s.rd Reg.arbLfsr)) ((List.range 6).map fun i => s.fld (Reg.arbTicket i) 0 8) active with
      | none => exact (perf_rd _ (by decide) (not_countReg (by decide))).trans (State.rd_wr_self _ _ _)
      | some w =>
        rw [slotDrawn_rd _ active (lottery_active hl).1 (by decide), if_neg (by unfold Reg.arbLfsr Reg.arbGrant; have := (lottery_active hl).1; omega),
          State.rd_wr_self]
    · have h6 : w < 6 := (lottery_active hw).1
      rw [hw, slotDrawn_rd _ active h6 (by unfold Reg.arbGrant; omega), if_pos rfl, State.rd_wr,
        if_neg (by unfold Reg.arbLfsr Reg.arbGrant; omega)]

end

section
/-! R100, R101, R126, R129 to R131: overflow records, and frames that leave their output stages. -/

namespace Sys2Proof.Machine

open Host

variable {s : State}

/-! Overflow (R129, R130). -/

theorem exec_overflowRecordWrite {q : Nat} {qs : List Nat} {r : Rec} (hup : s.life = .up) (hready : s.dramReady = true)
    (hq : s.sw.stagedQ = q :: qs) (hr : (s.sw.seg q).find? (fun r => !r.written) = some r) :
    exec .overflowRecordWrite s = .next (((s.setSeg q ((s.sw.seg q).set ((s.sw.seg q).findIdx fun x => !x.written)
      { r with written := true })).unstage q r true).countQ (Reg.swcQspilled q)) := by
  refine (next_event hup _).trans (congrArg _ ?_)
  dsimp only
  rw [hq]
  dsimp only
  rw [hr, hready]
  rfl

/-- The record of a queue as it returns to SRAM (R130). -/
def State.recordBack (s : State) (q : Nat) (r : Rec) (rest : List Rec) : State :=
  let n := cellsOf r.frm.bytes.length
  let k := q * 32 + r.frm.ingress
  let u := (((s.popSeg q r rest).takeCells n).setFrame s.sw.nextId (some { r.frm with refs := 1, pool := n })).onSw fun x =>
    { x with nextId := s.sw.nextId + 1 }
  (u.setVq k (u.sw.vq k ++ [{ id := s.sw.nextId, sent := 0, dram := true, untag := r.untag }])).addOcc q n

section
variable {q : Nat} {r : Rec} {rest : List Rec} (hup : s.life = .up) (hready : s.dramReady = true) (hq : q < 256)
  (hseg : s.sw.seg q = r :: rest) (hw : r.written = true) (hocc : s.occ q < s.fld Reg.swcReturnThr 0 15)
include hup hready hq hseg hw hocc

/-- The oldest record of a segment, written, of a queue that is short. -/
theorem exec_dramReturn (hdr : List Byte) : exec (.dramReturn q hdr) s = .next (
    if !headerOk hdr then (s.flushSeg q).raise 102
    else if s.ageLimit r.frm true < s.now - r.frm.ts.toNat then (((s.popSeg q r rest).txGone r.frm).countQ (Reg.swcQaged q)).raise 98
    else if s.poolFree < cellsOf r.frm.bytes.length then s
    else (s.recordBack q r rest).countQ (Reg.swcQreturned q)) := by
  refine (onUnit_event hq hup _).trans (congrArg _ ?_)
  dsimp only
  rw [hseg]
  dsimp only
  rw [if_neg (by simp [hw, hready, hocc])]
  rfl

end

theorem recordBack_nextId (q : Nat) (r : Rec) (rest : List Rec) : (s.recordBack q r rest).sw.nextId = s.sw.nextId + 1 := by
  unfold State.recordBack State.addOcc State.setVq
  dsimp only
  rw [State.setFld_sw, State.onSw_sw, State.onSw_sw]

/-! FRAME_TRANSMIT (R126). -/

section
variable {p : Nat} (hup : s.life = .up) (hport : (s.pt p).up = true)
include hup hport

section
variable {ts : Raw} {sub : Byte} {a : Nat} (ha : a = stamp256 (s.txPlane p (ts.toNat * 256 + sub.toNat)))
include ha

theorem exec_frameTransmit_stage (hp : p < 24) (hline : s.sw.lineOf p = none) (hnone : s.sendBuffered p a = none) :
    exec (.frameTransmit p false ts sub) s = .next (s.startLine p a) := by
  refine (onUnit_event (by omega) hup _).trans (congrArg _ ?_)
  simp only [hport, hline, ← ha, hnone, show ¬ 24 ≤ p by omega, Bool.not_true, Bool.false_eq_true, Option.isSome_none, Bool.not_false, if_false, if_true]

theorem exec_frameTransmit_buffered {pre : Bool} {t : State} (hp : p < 24)
    (hpre : pre = true → (s.sw.lineOf p).isSome = true ∧ s.mayPreempt p = true) (hno : pre = false → s.sw.lineOf p = none)
    (hsome : s.sendBuffered p a = some t) : exec (.frameTransmit p pre ts sub) s = .next t := by
  have hGo : (if pre then (s.sw.lineOf p).isSome && s.mayPreempt p else !(s.sw.lineOf p).isSome) = true := by
    cases pre
    · simp [hno rfl]
    · simp [hpre rfl]
  refine (onUnit_event (by omega) hup _).trans (congrArg _ ?_)
  simp only [hport, hGo, ← ha, hsome, show ¬ 24 ≤ p by omega, Bool.not_true, Bool.false_eq_true, if_false, if_true]

theorem exec_frameTransmit_m (pre : Bool) (h24 : 24 ≤ p) (hp : p < 28) : exec (.frameTransmit p pre ts sub) s = .next (s.mSent p a) := by
  refine (onUnit_event hp hup _).trans (congrArg _ ?_)
  simp only [hport, ← ha, h24, Bool.not_true, Bool.false_eq_true, if_false, if_true]

end

/-! CSMA/CD (R100, R101). -/

/-- An M port's transmission. -/
def Sw.mtxOf (x : Sw) (p : Nat) : MTx := Tab.get (fun _ => {}) x.mtx p

section
variable (h24 : 24 ≤ p) (hp : p < 28)
include h24 hp

theorem exec_mPortTxAttempt_carrier (hidle : (s.sw.mtxOf p).sending = false) (hno : (s.sw.mtxOf p).until_ = none) :
    exec (.mPortTxAttempt p true) s = .next (s.carrierEnd p) := by
  unfold Sw.mtxOf at hidle hno
  refine (onUnit_event hp hup _).trans (congrArg _ ?_)
  simp only [mPort_of_lt h24 hp, hport, hidle, hno, Option.isSome_none, Bool.not_true, Bool.or_self, Bool.false_eq_true, if_false, if_true]

theorem exec_mPortTxAttempt (hidle : (s.sw.mtxOf p).sending = false) (hno : (s.sw.mtxOf p).until_ = none) (hon : s.txOn p = true)
    (hgap : Tab.get (fun _ => 0) s.sw.gapEnd p ≤ s.now) (hline : (s.sw.lineOf p).isSome = true) :
    exec (.mPortTxAttempt p false) s = .next (s.onMtx p fun y => { y with sending := true }) := by
  obtain ⟨c, hc⟩ := Option.isSome_iff_exists.mp hline
  unfold Sw.mtxOf at hidle hno
  refine (onUnit_event hp hup _).trans (congrArg _ ?_)
  simp only [mPort_of_lt h24 hp, hport, hidle, hno, hon, hc, Nat.not_lt.mpr hgap, Option.isSome_none, Bool.not_true, Bool.or_self, decide_false,
    Bool.false_eq_true, if_false]

/-- What a collision leaves whose frame is given up: the copy has gone, and the transmission starts anew. -/
def State.givenUp (s : State) (p : Nat) (c : Staged) : State := ((s.setLineCopy p none).dropStaged c).onMtx p fun _ => {}

/-- What a collision leaves that is tried again: the attempts, the back-off's end and the draws. -/
def State.backedOff (s : State) (p : Nat) : State :=
  let k := Tab.get (fun _ => 0) s.sw.draws p
  ((s.onMtx p fun y =>
    { y with n := (s.sw.mtxOf p).n + 1, sending := false,
             until_ := some (s.now + Config.backoff s.serial p k % 2 ^ min ((s.sw.mtxOf p).n + 1) 10 * 64000) }).onSw fun y =>
      { y with draws := Tab.set (fun _ => 0) y.draws p (k + 1) }).carrierEnd p

omit hport in
theorem exec_mPortCollision {c : Staged} (b : Nat) (hline : s.sw.lineOf p = some c) (hsend : (s.sw.mtxOf p).sending = true) :
    exec (.mPortCollision p b) s = .next (
      if 512 < b then (s.givenUp p c).countP (Reg.txColLate p) p
      else if 16 ≤ (s.sw.mtxOf p).n + 1 then (s.givenUp p c).countP (Reg.txColExcess p) p
      else s.backedOff p) := by
  refine (onUnit_event hp hup _).trans (congrArg _ ?_)
  dsimp only
  rw [hline]
  dsimp only
  rw [if_neg (by unfold Sw.mtxOf at hsend; simp [mPort_of_lt h24 hp, hsend])]
  rfl

omit h24 hport in
theorem exec_mPortBackoffExpiry {r : Nat} (huntil : (s.sw.mtxOf p).until_ = some r) (hdue : r ≤ s.now) :
    exec (.mPortBackoffExpiry p) s = .next (s.onMtx p fun y => { y with until_ := none }) := by
  unfold Sw.mtxOf at huntil
  refine (onUnit_event hp hup _).trans (congrArg _ ?_)
  rw [huntil]
  exact if_pos hdue

end

end

end Sys2Proof.Machine

open Sys2Proof Sys2Proof.Machine

/-- Settles O18: the write and the three ends of a return, each a branch of one equation. -/
theorem overflowCompletes : Obligations.OverflowCompletes := by
  intro s q hup hready
  refine ⟨fun qs r hq hr => exec_overflowRecordWrite hup hready hq hr, fun r rest hq hseg hw hocc => ?_⟩
  have hReturn := exec_dramReturn hup hready hq hseg hw hocc
  refine ⟨fun hdr hbad => ?_, fun hdr hok hage => ?_, fun hdr hok hage hfree => ⟨s.recordBack q r rest, ?_, recordBack_nextId q r rest⟩⟩
  · rw [hReturn, hbad]
    rfl
  · rw [hReturn, hok]
    exact congrArg _ (if_pos hage)
  · rw [hReturn, hok]
    exact congrArg _ ((if_neg (Nat.not_lt.mpr hage)).trans (if_neg (Nat.not_lt.mpr hfree)))

/-- Settles O19: each event by its own equation. -/
theorem transmitCompletes : Obligations.TransmitCompletes := by
  refine fun s p hup hport => ⟨fun ts sub a ha => ⟨?_, ?_, ?_⟩, fun h24 hp => ⟨fun hidle hno => ⟨?_, ?_⟩, ?_, ?_, ?_⟩⟩
  · exact fun hp hline hnone => exec_frameTransmit_stage hup hport ha hp hline hnone
  · exact fun pre t hp hpre hno hsome => exec_frameTransmit_buffered hup hport ha hp hpre hno hsome
  · exact fun pre h24 hp => exec_frameTransmit_m hup hport ha pre h24 hp
  · exact exec_mPortTxAttempt_carrier hup hport h24 hp hidle hno
  · exact fun hon hgap hline => exec_mPortTxAttempt hup hport h24 hp hidle hno hon hgap hline
  · rintro c b k hline hsend hb hn rfl
    exact (exec_mPortCollision hup h24 hp b hline hsend).trans (congrArg _ ((if_neg (Nat.not_lt.mpr hb)).trans (if_neg (Nat.not_le.mpr hn))))
  · rintro c b t hline hsend rfl
    refine ⟨fun hb => ?_, fun hb hn => ?_⟩
    · exact (exec_mPortCollision hup h24 hp b hline hsend).trans (congrArg _ (if_pos hb))
    · exact (exec_mPortCollision hup h24 hp b hline hsend).trans
        (congrArg _ ((if_neg (Nat.not_lt.mpr hb)).trans (if_pos (Nat.succ_le_succ hn))))
  · exact fun r huntil hdue => exec_mPortBackoffExpiry hup hp huntil hdue

end

section
/-! R135, R133, R137: the switch-core commands stage their fields and commit them. -/

namespace Sys2Proof.Machine

open Host

variable {s : State} {h : CmdHdr} {p : Nat}

/-! What reads back after a value is staged (R359). -/

theorem readBack_stage (s : State) (a b : Nat) (v : Word) : (s.stage a v).readBack b = if b = a then v else s.readBack b :=
  Tab.get_put _ s.pendK a b v

theorem readBack_stage_self (s : State) (a : Nat) (v : Word) : (s.stage a v).readBack a = v := by rw [readBack_stage, if_pos rfl]

theorem readBack_stageFld_of_ne (s : State) {a b : Nat} (lo len v : Nat) (h : b ≠ a) : (s.stageFld a lo len v).readBack b = s.readBack b := by
  rw [State.stageFld, readBack_stage, if_neg h]

theorem readBack_stageFld_self (s : State) (a lo len v : Nat) : (s.stageFld a lo len v).readBack a = putFld (s.readBack a) lo len v := by
  rw [State.stageFld, readBack_stage_self]

/-- A field staged reads back, and a field beside it stands. -/
theorem getFld_stageFld_self (s : State) (a : Nat) {lo len v : Nat} (h : lo + len ≤ 32) (hv : v < 2 ^ len) :
    getFld ((s.stageFld a lo len v).readBack a) lo len = v := by
  rw [readBack_stageFld_self, getFld_putFld _ _ h, Nat.mod_eq_of_lt hv]

theorem getFld_stageFld_of_disjoint (s : State) (a : Nat) {lo len lo' len' : Nat} (v : Nat) (h : lo + len ≤ 32)
    (hd : lo' + len' ≤ lo ∨ lo + len ≤ lo') : getFld ((s.stageFld a lo len v).readBack a) lo' len' = getFld (s.readBack a) lo' len' := by
  rw [readBack_stageFld_self, getFld_putFld_of_disjoint _ _ h hd]

/-! The operands, and the two ends of a command that commits (R133). -/

/-- The owner of the port of a switch-core command, where it has one. -/
def swcOwned (p : Nat) : List (Nat × Nat) := if p = 28 ∨ p = 31 then [] else [(0, p)]

theorem swcNeed_of_good {reins : List Nat} {bad : Option Nat} (hp : p < 32) (hex : s.exists p = true) (hbad : bad = none) :
    s.swcNeed p reins bad = { owned := swcOwned p, reins := reins } := by
  unfold State.swcNeed swcOwned
  rw [firstBad_one (by simp [hp, hex]), hbad]

theorem cmd_commits {op i : Nat} {n : Need} {need : State → Need} {stage : State → State} (ha : Admitted s h op n)
    (hn : need (s.receive h op) = n) :
    ((stage (s.receive h op)).swcOver = false → s.cmd h op need (fun t => commitOr i (stage t))
      = .next ((stage (s.receive h op)).swcCommit.answerOk h op [])) ∧
    ((stage (s.receive h op)).swcOver = true → s.cmd h op need (fun t => commitOr i (stage t))
      = .next ((s.receive h op).reply h.ctx op h.tag St.range [i] false)) :=
  ⟨fun hfit => cmd_done ha hn (if_neg (by simp [hfit])), fun hover => cmd_refused ha hn (if_pos hover)⟩

/-! The commands. -/

/-- The fields a profile stages for a queue (R135). -/
def State.stageProfile (u : State) (p prof c : Nat) : State :=
  let a := Reg.swcQcfg (8 * p + c)
  let d := Reg.swcQdramCfg (8 * p + c)
  if prof = 0 then (((u.stageFld a 12 4 4).stageFld a 28 1 (b2n (mayStore p c))).stageFld a 16 12 64).stageFld d 0 16 1024
  else if prof = 1 then (u.stageFld a 12 4 2).stageFld a 28 1 0
  else (((u.stageFld a 12 4 5).stageFld a 28 1 (b2n (mayStore p c))).stageFld a 16 12 32).stageFld d 0 16 8192

theorem exec_swcQueueSet {prof : Nat} (hp : p < 32) (hprof : prof < 3) (hex : (s.receive h 0x0201).exists p = true)
    (ha : Admitted s h 0x0201 { owned := swcOwned p, reins := [8] }) {u : State}
    (hu : u = (List.range 6).foldl (fun u c => u.stageProfile p prof c) (s.receive h 0x0201)) :
    (u.swcOver = false → exec (.swcQueueSet h p prof) s = .next (u.swcCommit.answerOk h 0x0201 [])) ∧
    (u.swcOver = true → exec (.swcQueueSet h p prof) s = .next ((s.receive h 0x0201).reply h.ctx 0x0201 h.tag St.range [1] false)) := by
  subst hu
  exact cmd_commits (stage := fun t => (List.range 6).foldl (fun u c => u.stageProfile p prof c) t) ha
    (swcNeed_of_good hp hex (firstBad_one (decide_eq_true hprof)))

/-- The classes of the eight PCPs put into a word (R135). -/
def pcpWord (w : Word) (classes : List Nat) : Nat → Word
  | 0 => w
  | n + 1 => putFld (pcpWord w classes n) (3 * n) 3 (classes.getD n 0)

theorem pcpWord_eq (w : Word) (classes : List Nat) (n : Nat) :
    (List.range n).foldl (fun w k => putFld w (3 * k) 3 (classes.getD k 0)) w = pcpWord w classes n := by
  induction n with
  | zero => rfl
  | succ n ih => rw [List.range_succ, List.foldl_append, ih]; rfl

theorem getFld_pcpWord (w : Word) {classes : List Nat} (hc : ∀ k, classes.getD k 0 < 8) {n k : Nat} (hn : n ≤ 8) (hk : k < n) :
    getFld (pcpWord w classes n) (3 * k) 3 = classes.getD k 0 := by
  induction n with
  | zero => omega
  | succ n ih =>
    rw [pcpWord]
    rcases Nat.lt_succ_iff_lt_or_eq.mp hk with hlt | rfl
    · rw [getFld_putFld_of_disjoint _ _ (by omega) (by omega), ih (by omega) hlt]
    · rw [getFld_putFld _ _ (by omega)]
      exact Nat.mod_eq_of_lt (hc k)

theorem getD_lt_of_mem {l : List Nat} {n : Nat} (h : ∀ x ∈ l, x < n) (hn : 0 < n) (k : Nat) : l.getD k 0 < n := by
  by_cases hk : k < l.length
  · rw [List.getD_eq_getElem _ _ hk]
    exact h _ (List.getElem_mem hk)
  · rw [List.getD_eq_default _ _ (Nat.le_of_not_lt hk)]
    exact hn

/-- The word that SWC_PCP_SET writes. -/
def State.pcpMap (s : State) (p : Nat) (classes : List Nat) (d : Nat) : Word := putFld (pcpWord (s.readBack (Reg.swcPcpMap p)) classes 8) 24 3 d

theorem exec_swcPcpSet {classes : List Nat} {d : Nat} (hp : p < 32) (hlen : classes.length = 8) (hc : ∀ c ∈ classes, c < 8) (hd : d < 8)
    (hex : (s.receive h 0x0202).exists p = true) (ha : Admitted s h 0x0202 { owned := swcOwned p, reins := [8] }) :
    exec (.swcPcpSet h p classes d) s
      = .next (((s.receive h 0x0202).writeF p (Reg.swcPcpMap p) ((s.receive h 0x0202).pcpMap p classes d)).answerOk h 0x0202 []) := by
  have hAll : (classes.all fun c => decide (c < 8)) = true := by simpa using hc
  refine cmd_done ha (swcNeed_of_good hp hex ?_) ?_
  · simp only [firstBad, hlen, hAll, hd, decide_true, Bool.and_self, if_true]
  · dsimp only
    rw [pcpWord_eq]
    rfl

theorem pcpMap_spec {classes : List Nat} {d : Nat} (hc : ∀ c ∈ classes, c < 8) (hd : d < 8) :
    (∀ k, k < 8 → getFld (s.pcpMap p classes d) (3 * k) 3 = classes.getD k 0) ∧ getFld (s.pcpMap p classes d) 24 3 = d := by
  unfold State.pcpMap
  refine ⟨fun k hk => ?_, ?_⟩
  · rw [getFld_putFld_of_disjoint _ _ (by decide) (by omega), getFld_pcpWord _ (getD_lt_of_mem hc (by decide)) (Nat.le_refl 8) hk]
  · rw [getFld_putFld _ _ (by decide)]
    exact Nat.mod_eq_of_lt hd

theorem exec_swcSampleSet {n d : Nat} (hp : p < 28) (hn : n ≤ 2 ^ 24) (hd : d < 16) (hex : (s.receive h 0x0203).exists p = true)
    (ha : Admitted s h 0x0203 { owned := [(0, p)], reins := [8] }) :
    exec (.swcSampleSet h p n d) s = .next (((s.receive h 0x0203).writeSample p
      (w32 ((n - 1) + b2n (decide (0 < n)) * 2 ^ 24 + d * 2 ^ 25))).answerOk h 0x0203 []) := by
  have hown : ¬ (p = 28 ∨ p = 31) := by omega
  refine cmd_done ha ?_ rfl
  dsimp only
  rw [swcNeed_of_good (by omega) hex (by simp only [firstBad, hn, hd, decide_true, if_true]), portGone_none hp hex, swcOwned, if_neg hown]

theorem exec_swcStatsGet (hp : p < 32) (hex : (s.receive h 0x0204).exists p = true)
    (ha : Admitted s h 0x0204 { role := .any, owned := swcOwned p }) :
    exec (.swcStatsGet h p) s = .next ((s.receive h 0x0204).reply h.ctx 0x0204 h.tag St.ok
      ((List.range 8).flatMap (fun c => (s.receive h 0x0204).queueGroup (8 * p + c)) ++ [(s.receive h 0x0204).poolWord.toNat]) false) :=
  cmd_answers ha (by rw [swcNeed_of_good hp hex rfl]) rfl (by simp)

/-! SWC_QUEUE_EXPERT_SET and SWC_GLOBAL_EXPERT_SET. -/

/-- The queue's own registers staged. -/
def State.stageQueue (s : State) (q fl al th : Nat) (en : Bool) (dm : Nat) : State :=
  ((((s.stageFld (Reg.swcQcfg q) 0 12 fl).stageFld (Reg.swcQcfg q) 12 4 al).stageFld (Reg.swcQcfg q) 16 12 th).stageFld (Reg.swcQcfg q) 28 1
    (b2n en)).stageFld (Reg.swcQdramCfg q) 0 16 dm

/-- The quantum of the queue's class staged. -/
def State.stageQuantum (v : State) (p cls qu : Nat) : State :=
  if cls < 4 then v.stageFld (Reg.swcDrr0 p) (8 * cls) 8 qu else if cls < 6 then v.stageFld (Reg.swcDrr1 p) (8 * (cls - 4)) 8 qu else v

theorem exec_swcQueueExpertSet {cls fl al th dm qu : Nat} {en : Bool} (hp : p < 32) (hcls : cls < 8) (hfl : fl < 4096) (hal : al < 16)
    (hth : th < 4096) (hen : en = true → mayStore p cls = true) (hdm : dm < 65536) (hqu : qu < 256) (hex : (s.receive h 0x0281).exists p = true)
    (ha : Admitted s h 0x0281 { owned := swcOwned p, reins := [8] }) {u : State}
    (hu : u = ((s.receive h 0x0281).stageQueue (8 * p + cls) fl al th en dm).stageQuantum p cls qu) :
    (u.swcOver = false → exec (.swcQueueExpertSet h p cls fl al th en dm qu) s = .next (u.swcCommit.answerOk h 0x0281 [])) ∧
    (u.swcOver = true → exec (.swcQueueExpertSet h p cls fl al th en dm qu) s
      = .next ((s.receive h 0x0281).reply h.ctx 0x0281 h.tag St.range [2] false)) := by
  have hSpill : (!en || mayStore p cls) = true := by
    cases en
    · rfl
    · simp [hen rfl]
  subst hu
  exact cmd_commits (stage := fun t => (t.stageQueue (8 * p + cls) fl al th en dm).stageQuantum p cls qu) ha
    (swcNeed_of_good hp hex (by simp only [firstBad, hcls, hfl, hal, hth, hSpill, hdm, hqu, decide_true, if_true]))

theorem readBack_stageQuantum (v : State) {a : Nat} (cls qu : Nat) (h0 : a ≠ Reg.swcDrr0 p) (h1 : a ≠ Reg.swcDrr1 p) :
    (v.stageQuantum p cls qu).readBack a = v.readBack a := by
  unfold State.stageQuantum
  split
  · exact readBack_stageFld_of_ne v _ _ _ h0
  · split
    · exact readBack_stageFld_of_ne v _ _ _ h1
    · rfl

theorem stageQueue_reads (s : State) (q : Nat) {fl al th dm : Nat} (en : Bool) (hfl : fl < 4096) (hal : al < 16) (hth : th < 4096) (hdm : dm < 65536) :
    getFld ((s.stageQueue q fl al th en dm).readBack (Reg.swcQcfg q)) 0 12 = fl ∧
      getFld ((s.stageQueue q fl al th en dm).readBack (Reg.swcQcfg q)) 12 4 = al ∧
      getFld ((s.stageQueue q fl al th en dm).readBack (Reg.swcQcfg q)) 16 12 = th ∧
      getFld ((s.stageQueue q fl al th en dm).readBack (Reg.swcQdramCfg q)) 0 16 = dm := by
  have hne : Reg.swcQcfg q ≠ Reg.swcQdramCfg q := by unfold Reg.swcQcfg Reg.swcQdramCfg; omega
  unfold State.stageQueue
  refine ⟨?_, ?_, ?_, getFld_stageFld_self _ _ (by decide) hdm⟩
  · rw [readBack_stageFld_of_ne _ _ _ _ hne, getFld_stageFld_of_disjoint _ _ _ (by decide) (by decide),
      getFld_stageFld_of_disjoint _ _ _ (by decide) (by decide), getFld_stageFld_of_disjoint _ _ _ (by decide) (by decide),
      getFld_stageFld_self _ _ (by decide) hfl]
  · rw [readBack_stageFld_of_ne _ _ _ _ hne, getFld_stageFld_of_disjoint _ _ _ (by decide) (by decide),
      getFld_stageFld_of_disjoint _ _ _ (by decide) (by decide), getFld_stageFld_self _ _ (by decide) hal]
  · rw [readBack_stageFld_of_ne _ _ _ _ hne, getFld_stageFld_of_disjoint _ _ _ (by decide) (by decide),
      getFld_stageFld_self _ _ (by decide) hth]

/-- The global registers staged. -/
def State.stageGlobal (s : State) (hr a b c st re : Nat) : State :=
  (((((s.stageFld Reg.swcHeadroom 0 15 hr).stageFld Reg.swcAgeSram 0 20 a).stageFld Reg.swcAgeDram 0 20 b).stageFld Reg.swcAgeC6 0 20 c).stageFld
    Reg.swcSpillStage 0 15 st).stageFld Reg.swcReturnThr 0 15 re

theorem exec_swcGlobalExpertSet {hr a b c st re lo : Nat} (hhr : hr < 32768) (hA : a ≤ 1000000) (hB : b ≤ 1000000) (hC : c ≤ 1000000)
    (hst : 144 ≤ st) (hst' : st ≤ 16384) (hre : 16 ≤ re) (hre' : re ≤ 16384) (hlo : lo < 262144)
    (ha : Admitted s h 0x0282 { reins := [8] }) {v u : State} (hv : v = (s.receive h 0x0282).stageGlobal hr a b c st re)
    (hu : u = v.writePoolLow (putFld (v.rd Reg.swcPoolLow) 0 18 lo)) :
    (u.swcOver = false → exec (.swcGlobalExpertSet h hr a b c st re lo) s = .next (u.swcCommit.answerOk h 0x0282 [])) ∧
    (u.swcOver = true → exec (.swcGlobalExpertSet h hr a b c st re lo) s
      = .next ((s.receive h 0x0282).reply h.ctx 0x0282 h.tag St.range [0] false)) := by
  subst hv hu
  exact cmd_commits (stage := fun t => (t.stageGlobal hr a b c st re).writePoolLow (putFld ((t.stageGlobal hr a b c st re).rd Reg.swcPoolLow) 0 18 lo))
    ha (by simp only [firstBad, hhr, hA, hB, hC, hst, hst', hre, hre', hlo, and_self, decide_true, if_true])

theorem stageGlobal_reads (s : State) {hr re : Nat} (a b c st : Nat) (hhr : hr < 32768) (hre : re ≤ 16384) :
    getFld ((s.stageGlobal hr a b c st re).readBack Reg.swcHeadroom) 0 15 = hr ∧
      getFld ((s.stageGlobal hr a b c st re).readBack Reg.swcReturnThr) 0 15 = re := by
  unfold State.stageGlobal
  constructor
  · rw [readBack_stageFld_of_ne _ _ _ _ (by decide), readBack_stageFld_of_ne _ _ _ _ (by decide), readBack_stageFld_of_ne _ _ _ _ (by decide),
      readBack_stageFld_of_ne _ _ _ _ (by decide), readBack_stageFld_of_ne _ _ _ _ (by decide), getFld_stageFld_self _ _ (by decide) hhr]
  · exact getFld_stageFld_self _ _ (by decide) (by omega)

/-! SWC_ARB_EXPERT_SET (R137): what the commit captures reads back. -/

/-- Listed values beside a predicate on their keys read as the default. -/
theorem get_filter_of_not {d : Nat → Word} (t : Tab Word) {f : Nat → Bool} {a : Nat} (h : f a = false) :
    Tab.get d (t.filter fun x => f x.1) a = d a := by
  induction t with
  | nil => rfl
  | cons x t ih =>
    rw [List.filter_cons]
    split
    · next hx =>
      rw [Tab.get, if_neg (by rintro rfl; rw [h] at hx; cases hx), ih]
    · exact ih

theorem get_filter_of {d : Nat → Word} (t : Tab Word) {f : Nat → Bool} {a : Nat} (h : f a = true) :
    Tab.get d (t.filter fun x => f x.1) a = Tab.get d t a := by
  induction t with
  | nil => rfl
  | cons x t ih =>
    obtain ⟨j, v⟩ := x
    rw [List.filter_cons]
    split
    · rw [Tab.get, Tab.get, ih]
    · next hx =>
      rw [ih, Tab.get, if_neg (by rintro rfl; exact hx h)]

theorem get_append (d : Nat → Word) (t u : Tab Word) (a : Nat) : Tab.get d (t ++ u) a = Tab.get (Tab.get d u) t a := by
  induction t with
  | nil => rfl
  | cons x t ih => rw [List.cons_append, Tab.get, Tab.get, ih]

/-- A value of a table that is listed does not rest on the default. -/
theorem get_of_listed (d e : Nat → Word) {t : Tab Word} {a : Nat} (h : ∃ v, (a, v) ∈ t) : Tab.get d t a = Tab.get e t a := by
  induction t with
  | nil => simp at h
  | cons x t ih =>
    obtain ⟨j, w⟩ := x
    rw [Tab.get, Tab.get]
    split
    · rfl
    · next hj =>
      obtain ⟨v, hv⟩ := h
      refine ih ⟨v, (List.mem_cons.mp hv).resolve_left fun heq => hj (congrArg Prod.fst heq)⟩

/-- A register of the arbiter that is staged as the commit comes is captured with its value. -/
theorem readBack_arbCommit {a : Nat} (harb : isArb a = true) (hl : ∃ v, (a, v) ∈ s.pendK) : s.arbCommit.readBack a = s.readBack a := by
  have hNew : ∃ v, (a, v) ∈ s.pendK.filter fun x => isArb x.1 := by
    obtain ⟨v, hv⟩ := hl
    exact ⟨v, List.mem_filter.mpr ⟨hv, harb⟩⟩
  have hOld : (!(s.pendK.filter fun x => isArb x.1).any fun y => decide (y.1 = a)) = false := by
    obtain ⟨v, hv⟩ := hNew
    rw [Bool.not_eq_false', List.any_eq_true]
    exact ⟨(a, v), hv, decide_eq_true rfl⟩
  show Tab.get (Tab.get (Tab.get s.rd s.pendF) ((((s.sw.arbDue.getD []).filter fun x =>
    !(s.pendK.filter fun x => isArb x.1).any fun y => decide (y.1 = x.1))) ++ s.pendK.filter fun x => isArb x.1))
      (s.pendK.filter fun x => !isArb x.1) a = _
  rw [get_filter_of_not _ (f := fun k => !isArb k) (by rw [harb]; rfl), get_append,
    get_filter_of_not _ (f := fun k => !(s.pendK.filter fun x => isArb x.1).any fun y => decide (y.1 = k)) hOld,
    get_filter_of _ harb]
  exact get_of_listed _ _ hl

theorem mem_put_self (t : Tab Word) (k : Nat) (v : Word) : (k, v) ∈ Tab.put t k v := by
  induction t with
  | nil => exact List.mem_singleton.mpr rfl
  | cons x t ih =>
    obtain ⟨j, w⟩ := x
    rw [Tab.put]
    split
    · exact List.mem_cons_self
    · split
      · exact List.mem_cons_self
      · exact List.mem_cons_of_mem _ ih

theorem listed_put {t : Tab Word} {a k : Nat} (v : Word) (h : ∃ w, (a, w) ∈ t) : ∃ w, (a, w) ∈ Tab.put t k v := by
  by_cases hk : a = k
  · subst hk
    exact ⟨v, mem_put_self t a v⟩
  · obtain ⟨w, hw⟩ := h
    refine ⟨w, ?_⟩
    induction t with
    | nil => cases hw
    | cons x t ih =>
      obtain ⟨j, y⟩ := x
      rw [Tab.put]
      split
      · exact List.mem_cons_of_mem _ hw
      · split
        · next hj =>
          exact List.mem_cons_of_mem _ ((List.mem_cons.mp hw).resolve_left fun heq => hk ((congrArg Prod.fst heq).trans hj.symm))
        · rcases List.mem_cons.mp hw with heq | hin
          · rw [heq]
            exact List.mem_cons_self
          · exact List.mem_cons_of_mem _ (ih hin)

/-- The six tickets staged. -/
def State.stageTickets (s : State) (tickets : List Nat) (n : Nat) : State :=
  (List.range n).foldl (fun u i => u.stageFld (Reg.arbTicketSh i) 0 8 (tickets.getD i 0)) s

theorem stageTickets_succ (s : State) (tickets : List Nat) (n : Nat) :
    s.stageTickets tickets (n + 1) = (s.stageTickets tickets n).stageFld (Reg.arbTicketSh n) 0 8 (tickets.getD n 0) := by
  unfold State.stageTickets
  rw [List.range_succ, List.foldl_append]
  rfl

theorem stageTickets_reads {tickets : List Nat} (ht : ∀ k, tickets.getD k 0 < 256) {n i : Nat} (hi : i < n) :
    getFld ((s.stageTickets tickets n).readBack (Reg.arbTicketSh i)) 0 8 = tickets.getD i 0 ∧
      ∃ v, (Reg.arbTicketSh i, v) ∈ (s.stageTickets tickets n).pendK := by
  induction n with
  | zero => omega
  | succ n ih =>
    rw [stageTickets_succ]
    rcases Nat.lt_succ_iff_lt_or_eq.mp hi with hlt | rfl
    · obtain ⟨hread, hmem⟩ := ih hlt
      exact ⟨by rw [readBack_stageFld_of_ne _ _ _ _ (by unfold Reg.arbTicketSh; omega), hread], listed_put _ hmem⟩
    · exact ⟨getFld_stageFld_self _ _ (by decide) (ht i), _, mem_put_self _ _ _⟩

/-- What SWC_ARB_EXPERT_SET leaves. -/
def State.arbExpert (s : State) (tickets : List Nat) (seed : Word) : State := ((s.stageTickets tickets 6).stage Reg.arbLfsrSeed seed).arbCommit

theorem exec_swcArbExpertSet {tickets : List Nat} (seed : Word) (hlen : tickets.length = 6) (ht : ∀ x ∈ tickets, x < 256)
    (ha : Admitted s h 0x0283 { reins := [8] }) :
    exec (.swcArbExpertSet h tickets seed) s = .next (((s.receive h 0x0283).arbExpert tickets seed).answerOk h 0x0283 []) := by
  have hAll : (tickets.all fun x => decide (x < 256)) = true := by simpa using ht
  exact cmd_done ha (by simp only [firstBad, hlen, hAll, decide_true, Bool.and_self, if_true]) rfl

theorem arbExpert_spec (s : State) {tickets : List Nat} (seed : Word) (ht : ∀ x ∈ tickets, x < 256) :
    (s.arbExpert tickets seed).sw.arbDue.isSome = true ∧ (s.arbExpert tickets seed).readBack Reg.arbLfsrSeed = seed ∧
      ∀ i, i < 6 → getFld ((s.arbExpert tickets seed).readBack (Reg.arbTicketSh i)) 0 8 = tickets.getD i 0 := by
  unfold State.arbExpert
  refine ⟨rfl, ?_, fun i hi => ?_⟩
  · rw [readBack_arbCommit (by decide) ⟨seed, mem_put_self _ _ _⟩, readBack_stage_self]
  · obtain ⟨hread, hmem⟩ := stageTickets_reads (s := s) (getD_lt_of_mem ht (by decide)) hi
    have harb : isArb (Reg.arbTicketSh i) = true := by unfold isArb Reg.arbTicketSh; simp; omega
    rw [readBack_arbCommit harb (listed_put seed hmem), readBack_stage, if_neg (by unfold Reg.arbTicketSh Reg.arbLfsrSeed; omega), hread]

end Sys2Proof.Machine

open Sys2Proof Sys2Proof.Machine

/-- Settles O20: each command by its own equation; what is staged by what reads back. -/
theorem switchCommandsComplete : Obligations.SwitchCommandsComplete := by
  rintro s h p own hp rfl
  refine ⟨?_, ?_, ?_, ?_, ?_, ?_, ?_⟩
  · exact fun prof u hprof hex ha hu => exec_swcQueueSet hp hprof hex ha hu
  · exact fun classes d hlen hc hd hex ha => ⟨_, exec_swcPcpSet hp hlen hc hd hex ha, pcpMap_spec hc hd⟩
  · exact fun n d hp28 hn hd hex ha => exec_swcSampleSet hp28 hn hd hex ha
  · exact fun hex ha => exec_swcStatsGet hp hex ha
  · rintro cls fl al th en dm qu v u hcls hfl hal hth hen hdm hqu hex ha rfl hu
    obtain ⟨hfit, hover⟩ := exec_swcQueueExpertSet hp hcls hfl hal hth hen hdm hqu hex ha hu
    obtain ⟨hFl, hAl, hTh, hDm⟩ := stageQueue_reads (s.receive h 0x0281) (8 * p + cls) en hfl hal hth hdm
    have hCfg : u.readBack (Reg.swcQcfg (8 * p + cls)) = ((s.receive h 0x0281).stageQueue (8 * p + cls) fl al th en dm).readBack (Reg.swcQcfg (8 * p + cls)) := by
      rw [hu]
      exact readBack_stageQuantum _ cls qu (by unfold Reg.swcQcfg Reg.swcDrr0; omega) (by unfold Reg.swcQcfg Reg.swcDrr1; omega)
    have hDram : u.readBack (Reg.swcQdramCfg (8 * p + cls))
        = ((s.receive h 0x0281).stageQueue (8 * p + cls) fl al th en dm).readBack (Reg.swcQdramCfg (8 * p + cls)) := by
      rw [hu]
      exact readBack_stageQuantum _ cls qu (by unfold Reg.swcQdramCfg Reg.swcDrr0; omega) (by unfold Reg.swcQdramCfg Reg.swcDrr1; omega)
    rw [hCfg, hDram]
    exact ⟨hfit, hover, hFl, hAl, hTh, hDm⟩
  · rintro hr a b c st re lo v u hhr hA hB hC hst hst' hre hre' hlo ha hv hu
    obtain ⟨hfit, hover⟩ := exec_swcGlobalExpertSet hhr hA hB hC hst hst' hre hre' hlo ha hv hu
    rw [hv]
    exact ⟨hfit, hover, stageGlobal_reads _ a b c st hhr hre'⟩
  · exact fun tickets seed hlen ht ha => ⟨_, exec_swcArbExpertSet seed hlen ht ha, arbExpert_spec _ seed ht⟩

end

section
/-! R144 to R156, R168: the FDB and learning commands, and what an insert leaves. -/

namespace Sys2Proof.Machine

open Host

variable {s : State} {h : CmdHdr}

/-! FDB_INSERT, FDB_DELETE, FDB_LOOKUP, FDB_FLUSH, FDB_BATCH (R151, R156, R168). -/

section
variable {op : FdbOp} (hthere : (s.receive h 0x0301).fdbOpThere { op with delete := false } = true)
  (hgood : fdbOpBad { op with delete := false } = none)
  (ha : Admitted s h 0x0301 { owned := ownedPorts ((s.receive h 0x0301).fdbOpPorts { op with delete := false }), reins := [9] })
  {st : Nat} {ps : List Nat} {u : State} (hins : (s.receive h 0x0301).fdbInsert { op with delete := false } = (st, ps, u))
include hthere hgood ha hins

theorem exec_fdbInsert_ok (hst : st = St.ok) : exec (.fdbInsert h op) s = .next (u.nextEpoch.answerOk h 0x0301 ps) := by
  refine cmd_done ha (by rw [State.fdbNeed, firstBad_one hthere, hgood]) ?_
  rw [hins]
  exact if_pos hst

theorem exec_fdbInsert_refused (hst : st ≠ St.ok) :
    exec (.fdbInsert h op) s = .next ((s.receive h 0x0301).reply h.ctx 0x0301 h.tag st ps false) := by
  refine cmd_refused ha (by rw [State.fdbNeed, firstBad_one hthere, hgood]) ?_
  rw [hins]
  exact if_neg hst

end

theorem exec_fdbDelete {fid mac i : Nat} {e : FdbEnt} {old : Bool} (hfid : fid < 4096)
    (hfind : (s.receive h 0x0302).fdbFind fid mac = some (i, e, old))
    (ha : Admitted s h 0x0302 { owned := ownedPorts (destPorts e.mc e.dest), reins := [9] }) :
    exec (.fdbDelete h fid mac) s = .next (((s.receive h 0x0302).removeWay i).nextEpoch.answerOk h 0x0302 []) := by
  refine cmd_done ha ?_ ?_
  · simp only [State.fdbNeed, State.fdbOpThere, State.fdbOpPorts, fdbOpBad, hfind, firstBad, hfid, Bool.true_or, decide_true, if_true]
  · rw [State.fdbDelete, hfind]
    rfl

theorem exec_fdbLookup {fid mac i : Nat} {e : FdbEnt} {old : Bool} (hfid : fid < 4096)
    (hfind : (s.receive h 0x0303).fdbFind fid mac = some (i, e, old)) (ha : Admitted s h 0x0303 { role := .any }) :
    exec (.fdbLookup h fid mac) s = .next ((s.receive h 0x0303).reply h.ctx 0x0303 h.tag St.ok
      [e.mac, e.ctl, e.dest.toNat, i / 8, i % 8, b2n old] false) := by
  refine cmd_answers ha (by rw [firstBad_one (decide_eq_true hfid)]) ?_ (by simp)
  rw [hfind]

theorem exec_fdbFlush {p fid : Nat} {st : Bool} {ports : Word}
    (hports : (p = 0xFF ∧ ports = (s.receive h 0x0304).portsOwned h.ctx) ∨ (p < 31 ∧ (s.receive h 0x0304).exists p = true ∧ ports = portBit p))
    (hfid : fid < 4096 ∨ fid = 0xFFFF) (ha : Admitted s h 0x0304 { owned := if p = 0xFF then [] else ownedPorts [p], reins := [9] }) :
    exec (.fdbFlush h p st fid) s = .next ((if ((s.receive h 0x0304).fdbFlush ports st fid).2
        then ((s.receive h 0x0304).fdbFlush ports st fid).1.nextEpoch
        else ((s.receive h 0x0304).fdbFlush ports st fid).1).answerOk h 0x0304 []) := by
  have hThere : (decide (p = 0xFF) || (decide (p < 31) && (s.receive h 0x0304).exists p)) = true := by
    rcases hports with ⟨rfl, -⟩ | ⟨hp, hex, -⟩
    · rfl
    · simp [hp, hex]
  have hPorts : (if p = 0xFF then (s.receive h 0x0304).portsOwned h.ctx else portBit p) = ports := by
    rcases hports with ⟨rfl, rfl⟩ | ⟨hp, -, rfl⟩
    · rfl
    · exact if_neg (by omega)
  refine cmd_done ha (by rw [firstBad_one hThere, firstBad_one (by simpa using hfid)]) ?_
  rw [hPorts]
  cases hflush : (s.receive h 0x0304).fdbFlush ports st fid with
  | mk u b => cases b <;> rfl

theorem exec_fdbBatch {ops : List FdbOp} (hlen : ops.length ≤ 254)
    (hops : ∀ o ∈ ops, (s.receive h 0x0305).fdbOpThere o = true ∧ fdbOpBad o = none)
    (ha : Admitted s h 0x0305 { owned := ops.flatMap fun o => ownedPorts ((s.receive h 0x0305).fdbOpPorts o), reins := [9] }) :
    exec (.fdbBatch h ops) s = .next (((s.receive h 0x0305).batch ops).1.nextEpoch.answerOk h 0x0305
      (((s.receive h 0x0305).batch ops).2 ++ [(((s.receive h 0x0305).batch ops).1.nextEpoch.rd Reg.tblCfgEpoch).toNat])) := by
  refine cmd_done ha ?_ rfl
  rw [List.findIdx?_eq_none_iff.mpr fun o ho => by rw [(hops o ho).1]; rfl, if_neg (Nat.not_lt.mpr hlen),
    List.findIdx?_eq_none_iff.mpr fun o ho => by rw [(hops o ho).2]; rfl]

/-! Learning and ageing (R150, R168). -/

theorem exec_learnSet {p m : Nat} (en : Bool) (hp : p < 32) (hex : (s.receive h 0x0306).exists p = true) (hm : m < 4096)
    (ha : Admitted s h 0x0306 { owned := ownedPorts [p], reins := [9] }) :
    exec (.learnSet h p en m) s = .next ((((s.receive h 0x0306).setFld Reg.tblLearnEn p 1 (b2n en)).setFld (Reg.tblLearnRate p) 0 12 m).answerOk
      h 0x0306 []) :=
  cmd_done ha (by rw [firstBad_one (by simp [hp, hex]), firstBad_one (decide_eq_true hm)]) rfl

theorem exec_fdbAgeSet {time : Nat} (ht : time < 65536) (ha : Admitted s h 0x0307 { reins := [9] }) :
    exec (.fdbAgeSet h time) s = .next (((s.receive h 0x0307).setFld Reg.tblAge 0 16 time).answerOk h 0x0307 []) :=
  cmd_done ha (by rw [firstBad_one (decide_eq_true ht)]) rfl

theorem exec_learnRead {m : Nat} (hm : m ≤ 128) (ha : Admitted s h 0x0308 { role := .any }) :
    exec (.learnRead h m) s = .next ((((s.receive h 0x0308).onCx h.ctx fun x => { x with learn := x.learn.drop m })).reply h.ctx 0x0308 h.tag St.ok
      ((((s.receive h 0x0308).cx h.ctx).learn.take m).length ::
        (((s.receive h 0x0308).cx h.ctx).learn.take m).flatMap fun r => (learnWords r).map (·.toNat)) false) :=
  cmd_answers ha (by rw [firstBad_one (decide_eq_true hm)]) rfl (by simp)

/-! What an insert leaves (R151): the first way of the set that holds the key is the one written. -/

/-- A list whose images change at one place alone, in which no image stood before unless at that place, finds that place. -/
theorem findSome?_update {β : Type} {l : List Nat} {f g : Nat → Option β} {w : Nat} {b : β} {P : β → Prop} (hw : w ∈ l)
    (hg : ∀ v, v ≠ w → g v = f v) (hb : g w = some b) (hOld : ∀ x, l.findSome? f = some x → P x)
    (hne : ∀ v x, v ≠ w → f v = some x → ¬ P x) : l.findSome? g = some b := by
  induction l with
  | nil => cases hw
  | cons a l ih =>
    rw [List.findSome?_cons]
    by_cases haw : a = w
    · rw [haw, hb]
    · rw [hg a haw]
      cases hfa : f a with
      | some x => exact absurd (hOld x (by rw [List.findSome?_cons, hfa])) (hne a x haw hfa)
      | none =>
        refine ih ((List.mem_cons.mp hw).resolve_left fun heq => haw heq.symm) fun x hx => hOld x ?_
        rw [List.findSome?_cons, hfa]
        exact hx

/-- What a lookup sees of one way. -/
def State.wayHit (s : State) (fid mac i : Nat) : Option (Nat × FdbEnt) :=
  match s.way i with
  | some e => if e.fid = fid ∧ e.mac = mac ∧ !e.bad then some (i, e) else none
  | none => none

theorem wayIn_eq (s : State) (set fid mac : Nat) : s.wayIn set fid mac = (List.range 8).findSome? fun w => s.wayHit fid mac (8 * set + w) := rfl

theorem wayHit_index {fid mac i : Nat} {x : Nat × FdbEnt} (hx : s.wayHit fid mac i = some x) : x.1 = i := by
  unfold State.wayHit at hx
  split at hx
  · split at hx
    · cases hx
      rfl
    · cases hx
  · cases hx

theorem wayIn_update {t : State} {set w fid mac : Nat} {e : FdbEnt} (hw : w < 8) (hOthers : ∀ i, i ≠ 8 * set + w → t.way i = s.way i)
    (hSelf : t.way (8 * set + w) = some e) (hkey : e.fid = fid ∧ e.mac = mac ∧ e.bad = false)
    (hOld : ∀ x, s.wayIn set fid mac = some x → x.1 = 8 * set + w) : t.wayIn set fid mac = some (8 * set + w, e) := by
  obtain ⟨hfid, hmac, hbad⟩ := hkey
  rw [wayIn_eq]
  refine findSome?_update (f := fun v => s.wayHit fid mac (8 * set + v)) (P := fun x => x.1 = 8 * set + w) (List.mem_range.mpr hw)
    (fun v hv => ?_) ?_ (fun x hx => hOld x hx) fun v x hv hx => ?_
  · unfold State.wayHit
    rw [hOthers _ (by omega)]
  · unfold State.wayHit
    rw [hSelf]
    exact if_pos ⟨hfid, hmac, by rw [hbad]; rfl⟩
  · rw [wayHit_index hx]
    omega

theorem wayIn_index {set fid mac : Nat} {x : Nat × FdbEnt} (hx : s.wayIn set fid mac = some x) : ∃ w, w < 8 ∧ x.1 = 8 * set + w := by
  rw [wayIn_eq] at hx
  obtain ⟨w, hw, hf⟩ := List.exists_of_findSome?_eq_some hx
  exact ⟨w, List.mem_range.mp hw, wayHit_index hf⟩

theorem way_setWay (s : State) (i j : Nat) (e : Option FdbEnt) : (s.setWay i e).way j = if j = i then e else s.way j := Tab.get_set _ _ _ _ _

theorem freeWay_index {set i : Nat} (hi : s.freeWay set = some i) : ∃ w, w < 8 ∧ i = 8 * set + w := by
  unfold State.freeWay at hi
  rw [Option.map_eq_some_iff] at hi
  obtain ⟨w, hw, rfl⟩ := hi
  exact ⟨w, List.mem_range.mp (List.mem_of_find?_eq_some hw), rfl⟩

/-- The entry FDB_INSERT writes. -/
def fdbEntry (o : FdbOp) : FdbEnt :=
  { mac := o.mac, fid := o.fid, stat := o.flags.testBit 0, hit := true, mc := o.flags.testBit 2, dest := o.dest }

/-- Outside a rehash an insert that ends OK writes its entry to one way of its key's set, and moves no seed. -/
theorem fdbInsert_ok {o : FdbOp} {ps : List Nat} {t : State} (hdual : s.dual = false) (hins : s.fdbInsert o = (St.ok, ps, t)) :
    ∃ w, w < 8 ∧ t.rd Reg.tblFdbSeed = s.rd Reg.tblFdbSeed ∧
      (∀ i, i ≠ 8 * fdbSet (s.rd Reg.tblFdbSeed) o.fid o.mac + w → t.way i = s.way i) ∧
      t.way (8 * fdbSet (s.rd Reg.tblFdbSeed) o.fid o.mac + w) = some (fdbEntry o) ∧
      ∀ x, s.wayIn (fdbSet (s.rd Reg.tblFdbSeed) o.fid o.mac) o.fid o.mac = some x → x.1 = 8 * fdbSet (s.rd Reg.tblFdbSeed) o.fid o.mac + w := by
  unfold State.fdbInsert at hins
  dsimp only at hins
  generalize hset : fdbSet (s.rd Reg.tblFdbSeed) o.fid o.mac = set at hins ⊢
  cases hIn : s.wayIn set o.fid o.mac with
  | some x =>
    obtain ⟨w, hw, hxi⟩ := wayIn_index hIn
    have hFind : s.fdbFind o.fid o.mac = some (x.1, x.2, false) := by
      unfold State.fdbFind
      rw [hset, hIn]
    rw [hFind] at hins
    dsimp only at hins
    split at hins
    · obtain ⟨-, ht⟩ := Prod.ext_iff.mp hins
      obtain ⟨-, rfl⟩ := Prod.ext_iff.mp ht
      have hWay : ∀ i, ((s.setWay x.1 (some (fdbEntry o))).countT Reg.tblFdbMoves).way i = if i = x.1 then some (fdbEntry o) else s.way i := fun i => by
        unfold State.countT State.way
        rw [(count_noted _ _ (by decide)).tbl]
        exact way_setWay s x.1 i _
      refine ⟨w, hw, ?_, fun i hi => ?_, ?_, fun y hy => ?_⟩
      · exact count_rd _ (by decide) (by decide) (not_evtReg_of_le (by decide))
      · exact (hWay i).trans (if_neg (by rw [hxi]; exact hi))
      · exact (hWay _).trans (if_pos hxi.symm)
      · cases hy
        exact hxi
    · exact absurd (Prod.ext_iff.mp hins).1 (show St.exists_ ≠ St.ok by decide)
  | none =>
    have hFind : s.fdbFind o.fid o.mac = none := by
      unfold State.fdbFind
      rw [hset, hIn, hdual]
      rfl
    rw [hFind] at hins
    dsimp only at hins
    split at hins
    · next i hfree =>
      obtain ⟨w, hw, rfl⟩ := freeWay_index hfree
      obtain ⟨-, ht⟩ := Prod.ext_iff.mp hins
      obtain ⟨-, rfl⟩ := Prod.ext_iff.mp ht
      have hRemove : (s.removeWay (8 * set + w)).rd Reg.tblFdbSeed = s.rd Reg.tblFdbSeed ∧
          ∀ j, j ≠ 8 * set + w → (s.removeWay (8 * set + w)).way j = s.way j := by
        unfold State.removeWay
        rw [hdual]
        split
        · exact ⟨rfl, fun _ _ => rfl⟩
        · exact ⟨rfl, fun j hj => (way_setWay s _ j none).trans (if_neg hj)⟩
      refine ⟨w, hw, hRemove.1, fun j hj => ?_, ?_, fun y hy => absurd hy (by simp)⟩
      · exact (way_setWay _ _ j _).trans ((if_neg hj).trans (hRemove.2 j hj))
      · exact (way_setWay _ _ _ _).trans (if_pos rfl)
    · exact absurd (Prod.ext_iff.mp hins).1 (show St.full ≠ St.ok by decide)

theorem fdbInsert_found {o : FdbOp} {ps : List Nat} {t : State} (hdual : s.dual = false) (hins : s.fdbInsert o = (St.ok, ps, t)) :
    ∃ i, t.fdbFind o.fid o.mac = some (i, (fdbEntry o), false) := by
  obtain ⟨w, hw, hSeed, hOthers, hSelf, hOld⟩ := fdbInsert_ok hdual hins
  refine ⟨8 * fdbSet (s.rd Reg.tblFdbSeed) o.fid o.mac + w, ?_⟩
  unfold State.fdbFind
  have hIn : t.wayIn (fdbSet (s.rd Reg.tblFdbSeed) o.fid o.mac) o.fid o.mac = _ := wayIn_update hw hOthers hSelf ⟨rfl, rfl, rfl⟩ hOld
  rw [hSeed, hIn]

end Sys2Proof.Machine

open Sys2Proof Sys2Proof.Machine

/-- Settles O21: each command by its own equation. -/
theorem fdbCommandsComplete : Obligations.FdbCommandsComplete := by
  refine fun s h => ⟨?_, ?_, ?_, ?_, ?_, ?_, ?_, ?_⟩
  · exact fun op st ps u hthere hgood ha hins =>
      ⟨exec_fdbInsert_ok hthere hgood ha hins, exec_fdbInsert_refused hthere hgood ha hins⟩
  · exact fun fid mac i e old hfid hfind ha => exec_fdbDelete hfid hfind ha
  · exact fun fid mac i e old hfid hfind ha => exec_fdbLookup hfid hfind ha
  · exact fun p st fid ports hports hfid ha => exec_fdbFlush hports hfid ha
  · exact fun ops hlen hops ha => exec_fdbBatch hlen hops ha
  · exact fun p en m hp hex hm ha => exec_learnSet en hp hex hm ha
  · exact fun time ht ha => exec_fdbAgeSet ht ha
  · exact fun m hm ha => exec_learnRead hm ha

/-- Settles O22: the way an insert writes is the first of its set that holds the key. -/
theorem fdbInsertIsFound : Obligations.FdbInsertIsFound := by
  intro s o ps t _ hdual hins
  obtain ⟨i, hi⟩ := fdbInsert_found hdual hins
  exact ⟨i, (fdbEntry o), hi, rfl, rfl, rfl, rfl⟩

end

section
/-! R153, R156 to R168: the VLAN, stream, protection, shadow and rehash commands. -/

namespace Sys2Proof.Machine

open Host

variable {s : State} {h : CmdHdr}

/-! VLAN_SET (R156): the entry, and the PVID of each port named. -/

/-- The PVID of each port of a list. -/
def State.setPvids (s : State) (l : List Nat) (vid : Nat) : State := l.foldl (fun v p => v.setFld (Reg.tblPvid p) 0 12 vid) s

theorem setPvids_tbl (l : List Nat) (vid : Nat) : (s.setPvids l vid).tbl = s.tbl := by
  unfold State.setPvids
  induction l generalizing s with
  | nil => rfl
  | cons p l ih => exact ih

theorem setPvids_fld_of_notMem {l : List Nat} (vid : Nat) {p : Nat} (hp : p ∉ l) :
    (s.setPvids l vid).fld (Reg.tblPvid p) 0 12 = s.fld (Reg.tblPvid p) 0 12 := by
  unfold State.setPvids
  induction l generalizing s with
  | nil => rfl
  | cons q l ih =>
    obtain ⟨hpq, hpl⟩ := not_or.mp (mt List.mem_cons.mpr hp)
    rw [List.foldl_cons, ih hpl]
    exact fld_setFld_of_ne s _ _ _ _ _ (by unfold Reg.tblPvid; omega)

theorem setPvids_fld {l : List Nat} {vid p : Nat} (hvid : vid < 4096) (hp : p ∈ l) : (s.setPvids l vid).fld (Reg.tblPvid p) 0 12 = vid := by
  induction l generalizing s with
  | nil => cases hp
  | cons q l ih =>
    by_cases hpl : p ∈ l
    · exact ih hpl
    · obtain rfl : p = q := (List.mem_cons.mp hp).resolve_right hpl
      have hFold : s.setPvids (p :: l) vid = (s.setFld (Reg.tblPvid p) 0 12 vid).setPvids l vid := rfl
      rw [hFold, setPvids_fld_of_notMem vid hpl, fld_setFld_self s _ vid (by decide)]
      exact Nat.mod_eq_of_lt hvid

/-- The VLAN entry and the PVIDs as VLAN_SET leaves them. -/
def State.withVlan (s : State) (vid : Nat) (entry : VlanEntry) (l : List Nat) : State :=
  (s.onTbl fun x => { x with vlan := Tab.set vlanReset x.vlan vid entry, badVlan := Tab.set (fun _ => false) x.badVlan vid false }).setPvids l vid

theorem withVlan_vlan (vid : Nat) (entry : VlanEntry) (l : List Nat) : (s.withVlan vid entry l).vlan vid = entry := by
  unfold State.withVlan State.vlan
  rw [setPvids_tbl]
  exact Tab.get_set_self _ _ _ _

theorem nextEpoch_fld_pvid (p : Nat) (hp : p < 32) : s.nextEpoch.fld (Reg.tblPvid p) 0 12 = s.fld (Reg.tblPvid p) 0 12 :=
  fld_wr_of_ne s _ _ _ (by unfold Reg.tblPvid Reg.tblCfgEpoch; omega)

theorem lt_of_mem_portsOf {m : Word} {p : Nat} (hp : p ∈ portsOf m) : p < 32 := List.mem_range.mp (List.mem_filter.mp hp).1

theorem all_exists {m : Word} (hm : ∀ p ∈ portsOf m, s.exists p = true) : ((portsOf m).all fun p => s.exists p) = true := List.all_eq_true.mpr hm

theorem exec_vlanSet {vid : Nat} {entry : VlanEntry} {ports : Word} (h1 : 1 ≤ vid) (h2 : vid ≤ 4094) (hfid : entry.fid < 4096)
    (hports : ∀ p ∈ portsOf ports, (s.receive h 0x0310).exists p = true) (hmem : ∀ p ∈ portsOf entry.member, (s.receive h 0x0310).exists p = true)
    (hunt : ∀ p ∈ portsOf entry.untag, (s.receive h 0x0310).exists p = true)
    (ha : Admitted s h 0x0310 { owned := ownedPorts (portsOf ports), reins := [11] }) :
    exec (.vlanSet h vid entry ports) s = .next ((if (s.receive h 0x0310).vlan vid ≠ entry
      then ((s.receive h 0x0310).withVlan vid entry (portsOf ports)).nextEpoch
      else (s.receive h 0x0310).withVlan vid entry (portsOf ports)).answerOk h 0x0310 []) := by
  refine cmd_done ha ?_ ?_
  · simp only [firstBad, all_exists hports, all_exists hmem, all_exists hunt, h1, h2, hfid, and_self, decide_true, if_true]
  · simp only [decide_eq_true_eq]
    rfl

theorem vlanSet_spec {vid : Nat} {entry : VlanEntry} {ports : Word} (h2 : vid ≤ 4094) (changed : Prop) [Decidable changed] {u : State}
    (hu : u = if changed then (s.withVlan vid entry (portsOf ports)).nextEpoch else s.withVlan vid entry (portsOf ports)) :
    u.vlan vid = entry ∧ ∀ p ∈ portsOf ports, u.fld (Reg.tblPvid p) 0 12 = vid := by
  have hFld : ∀ p ∈ portsOf ports, (s.withVlan vid entry (portsOf ports)).fld (Reg.tblPvid p) 0 12 = vid :=
    fun p hp => setPvids_fld (by omega) hp
  subst hu
  split
  · exact ⟨withVlan_vlan vid entry _, fun p hp => (nextEpoch_fld_pvid p (lt_of_mem_portsOf hp)).trans (hFld p hp)⟩
  · exact ⟨withVlan_vlan vid entry _, hFld⟩

/-! STREAM_SET, STREAM_DELETE, STREAM_GET (R157, R158, R168, R192). -/

theorem exec_streamSet {n : Nat} {e : StreamEntry} (hn : n < 16384) (hin : e.inPort < 32) (hex : (s.receive h 0x0320).exists e.inPort = true)
    (hthere : (s.receive h 0x0320).streamThere e = true) (hvid : e.vid < 4096) (hwin : e.window < 1024)
    (hdead : e.valid = true → 1 ≤ e.deadline ∧ e.deadline < 2 ^ 32) (hslot : e.slot < 4096)
    (ha : Admitted s h 0x0320 { owned := [(1, n)], reins := [10] }) (harm : (s.receive h 0x0320).cyc.armed = none)
    (hfits : (s.receive h 0x0320).streamFits n e = none) :
    exec (.streamSet h n e) s = .next (((s.receive h 0x0320).setStreamP n e).answerOk h 0x0320 []) := by
  have hDead : (!e.valid || decide (1 ≤ e.deadline ∧ e.deadline < 2 ^ 32)) = true := by
    cases hv : e.valid with
    | false => rfl
    | true => exact decide_eq_true (hdead hv)
  refine cmd_done ha ?_ ?_
  · simp only [firstBad, hn, hin, hex, hthere, hvid, hwin, hDead, hslot, decide_true, Bool.and_self, if_true]
  · simp only [harm, hfits, Option.isSome_none, Bool.false_eq_true, if_false]

theorem exec_streamDelete {n : Nat} (hn : n < 16384) (ha : Admitted s h 0x0321 { owned := [(1, n)], reins := [10] })
    (harm : (s.receive h 0x0321).cyc.armed = none) (hval : ((s.receive h 0x0321).streamP n).valid = true) :
    exec (.streamDelete h n) s = .next (((s.receive h 0x0321).setStreamP n {}).answerOk h 0x0321 []) := by
  refine cmd_done ha (by rw [firstBad_one (decide_eq_true hn)]) ?_
  simp only [harm, hval, Option.isSome_none, Bool.not_true, Bool.false_eq_true, if_false]

theorem exec_streamGet {n : Nat} (pend : Bool) (hn : n < 16384) (ha : Admitted s h 0x0322 { role := .any }) :
    exec (.streamGet h n pend) s = .next ((s.receive h 0x0322).reply h.ctx 0x0322 h.tag St.ok ((dwords 8 (streamImage
      (if pend then (s.receive h 0x0322).streamP n else (s.receive h 0x0322).stream n))).map (·.toNat)) false) :=
  cmd_answers ha (by rw [firstBad_one (decide_eq_true hn)]) rfl (by simp [dwords])

/-! PROT_SET, PROT_GET, PROT_REVERT (R159, R161, R168). -/

theorem ownedPorts_pair {a b : Nat} (ha : a < 24) (hb : b < 24) : ownedPorts [a, b] = [(0, a), (0, b)] := by
  have hAll : ([a, b].filter fun p => decide (p ≠ 28 ∧ p ≠ 31)) = [a, b] :=
    List.filter_eq_self.mpr fun p hp => decide_eq_true (by simp at hp; omega)
  rw [ownedPorts, hAll]
  rfl

/-- The word of TBL_PROTq that PROT_SET writes (R159). -/
def protWord (a b : Nat) (en rev : Bool) (w : Nat) : Word := w32 (a + b * 32 + b2n en * 1024 + b2n rev * 2048 + w * 16384)

theorem b2n_le_one (b : Bool) : b2n b ≤ 1 := by cases b <;> decide

theorem protWord_toNat {a b w : Nat} (en rev : Bool) (ha : a < 24) (hb : b < 24) (hw : w ≤ 3600) :
    (protWord a b en rev w).toNat = a + b * 32 + b2n en * 1024 + b2n rev * 2048 + w * 16384 := by
  have hEn := b2n_le_one en
  have hRev := b2n_le_one rev
  rw [protWord, toNat_w32]
  exact Nat.mod_eq_of_lt (by omega)

/-- A word's bit is the flag its one-bit field holds. -/
theorem bit_of_getFld {w : Word} {i : Nat} {b : Bool} (hb : getFld w i 1 = b2n b) : bit w i = b := by
  rw [getFld_one] at hb
  revert hb
  cases bit w i <;> cases b <;> decide

theorem protWord_fields {a b w : Nat} (en rev : Bool) (ha : a < 24) (hb : b < 24) (hw : w ≤ 3600) :
    getFld (protWord a b en rev w) 0 5 = a ∧ getFld (protWord a b en rev w) 5 5 = b ∧ getFld (protWord a b en rev w) 10 1 = b2n en ∧
      getFld (protWord a b en rev w) 11 1 = b2n rev ∧ getFld (protWord a b en rev w) 12 2 = 0 ∧ getFld (protWord a b en rev w) 14 12 = w := by
  have hEn := b2n_le_one en
  have hRev := b2n_le_one rev
  simp only [getFld, protWord_toNat en rev ha hb hw]
  omega

/-- A pair set: its word, its traffic on its primary, and no error in it. -/
def State.withProt (s : State) (q : Nat) (w : Word) : State := (s.wr (Reg.tblProt q) w).onTbl fun x =>
  { x with
    onAlt := Tab.set (fun _ => false) x.onAlt q false
    back := Tab.set (fun _ => false) x.back q false
    badProt := Tab.set (fun _ => false) x.badProt q false }

theorem withProt_rd (s : State) (q : Nat) (w : Word) : (s.withProt q w).rd (Reg.tblProt q) = w := State.rd_wr_self _ _ _

theorem withProt_onAlternate (s : State) (q : Nat) (w : Word) : (s.withProt q w).onAlternate q = false := by
  unfold State.onAlternate badAt State.withProt State.onTbl
  rw [Tab.get_set_self]

theorem withProt_reads (s : State) (q : Nat) {a b w : Nat} (en rev : Bool) (ha : a < 24) (hb : b < 24) (hw : w ≤ 3600) {u : State}
    (hu : u = s.withProt q (protWord a b en rev w)) :
    u.protPrimary q = a ∧ u.protAlternate q = b ∧ u.protEn q = en ∧ u.bitAt (Reg.tblProt q) 11 = rev ∧ u.onAlternate q = false ∧
      u.fld (Reg.tblProt q) 12 2 = 0 ∧ u.fld (Reg.tblProt q) 14 12 = w := by
  obtain ⟨hA, hB, hEn, hRev, hSt, hW⟩ := protWord_fields en rev ha hb hw
  have hRd : u.rd (Reg.tblProt q) = protWord a b en rev w := by rw [hu, withProt_rd]
  simp only [State.protPrimary, State.protAlternate, State.protEn, State.fld, State.bitAt, hRd]
  refine ⟨hA, hB, bit_of_getFld hEn, bit_of_getFld hRev, ?_, hSt, hW⟩
  rw [hu, withProt_onAlternate]

theorem exec_protSet {q a b w : Nat} (en rev : Bool) (hq : q < 16) (hpa : a < 24) (hpb : b < 24) (hea : (s.receive h 0x0330).exists a = true)
    (heb : (s.receive h 0x0330).exists b = true) (hgrp : groupOf a ≠ groupOf b) (hw1 : 1 ≤ w) (hw : w ≤ 3600)
    (hfree : ∀ o, o < 16 → o ≠ q → (s.receive h 0x0330).protEn o = true → ∀ p, p = a ∨ p = b →
      (s.receive h 0x0330).protPrimary o ≠ p ∧ (s.receive h 0x0330).protAlternate o ≠ p)
    (ha : Admitted s h 0x0330 { owned := [(0, a), (0, b)], reins := [8] }) :
    exec (.protSet h q a b en rev w) s = .next (((s.receive h 0x0330).withProt q (protWord a b en rev w)).answerOk h 0x0330 []) := by
  have hTaken : ((List.range 16).any fun o => decide (o ≠ q) && (s.receive h 0x0330).protEn o &&
      ([(s.receive h 0x0330).protPrimary o, (s.receive h 0x0330).protAlternate o].any fun p => decide (p = a ∨ p = b))) = false := by
    simp only [List.any_eq_false, List.mem_range, Bool.and_eq_true, decide_eq_true_eq, List.any_cons, List.any_nil, Bool.or_false, Bool.or_eq_true]
    rintro o ho ⟨⟨hne, hen⟩, hp | hp⟩
    · exact (hfree o ho hne hen _ hp).1 rfl
    · exact (hfree o ho hne hen _ hp).2 rfl
  refine cmd_done ha ?_ rfl
  simp only [firstBad, hTaken, hq, hpa, hpb, hea, heb, hgrp, hw1, hw, ownedPorts_pair hpa hpb, ne_eq, not_false_eq_true, and_self, decide_true,
    Bool.and_self, Bool.not_false, if_true]

theorem exec_protGet {q : Nat} (hq : q < 16) (ha : Admitted s h 0x0331 { role := .any }) : exec (.protGet h q) s
    = .next ((s.receive h 0x0331).reply h.ctx 0x0331 h.tag St.ok [((s.receive h 0x0331).rd (Reg.tblProt q)).toNat] false) :=
  cmd_answers ha (by rw [firstBad_one (decide_eq_true hq)]) rfl (by simp)

theorem exec_protRevert {q : Nat} (hq : q < 16) (hpa : (s.receive h 0x0332).protPrimary q < 24) (hpb : (s.receive h 0x0332).protAlternate q < 24)
    (hen : (s.receive h 0x0332).protEn q = true) (hup : (((s.receive h 0x0332).pt ((s.receive h 0x0332).protPrimary q)).up) = true)
    (hbad : badAt (s.receive h 0x0332).tbl.badProt q = false)
    (ha : Admitted s h 0x0332 { owned := [(0, (s.receive h 0x0332).protPrimary q), (0, (s.receive h 0x0332).protAlternate q)], reins := [8] }) :
    exec (.protRevert h q) s = .next ((if (s.receive h 0x0332).onAlternate q then (s.receive h 0x0332).protFlip q
      else s.receive h 0x0332).answerOk h 0x0332 []) := by
  refine cmd_done ha (by rw [firstBad_one (decide_eq_true hq), ownedPorts_pair hpa hpb]) ?_
  simp only [hen, hup, hbad, Bool.not_true, Bool.or_self, Bool.false_eq_true, if_false]

/-! SHADOW_WRITE, SHADOW_CTRL, SHADOW_LOG_GET (R163 to R165). -/

/-- Entries put one after the other, from `first` on. -/
def putRun (t : Tab Nat) (first : Nat) (entries : List Nat) : Tab Nat :=
  (entries.zip (List.range entries.length)).foldl (fun u x => Tab.set (fun _ => 0) u (first + x.2) x.1) t

theorem putRun_append (t : Tab Nat) (first : Nat) (l : List Nat) (e : Nat) :
    putRun t first (l ++ [e]) = Tab.set (fun _ => 0) (putRun t first l) (first + l.length) e := by
  have hLen : (l ++ [e]).length = l.length + 1 := by simp
  rw [putRun, hLen, List.range_succ, List.zip_append (by simp), List.foldl_append]
  rfl

theorem get_putRun (t : Tab Nat) (first : Nat) (l : List Nat) : ∀ i, i < l.length → Tab.get (fun _ => 0) (putRun t first l) (first + i) = l.getD i 0 := by
  induction l using List.reverseRecOn with
  | nil => exact fun i hi => absurd hi (Nat.not_lt_zero i)
  | append_singleton l e ih =>
    intro i hi
    rw [putRun_append, Tab.get_set]
    by_cases hil : i < l.length
    · rw [if_neg (by omega), ih i hil, List.getD_append _ _ _ _ hil]
    · obtain rfl : i = l.length := by simp at hi; omega
      rw [if_pos rfl]
      simp

theorem exec_shadowWrite {k first : Nat} {entries : List Nat} (hk : k < 3)
    (hsize : first + entries.length ≤ (if k = 0 then 262144 else if k = 1 then 4096 else 16384))
    (hlen : entries.length ≤ (if k = 2 then 127 else 254)) (hval : ∀ e ∈ entries, e < if k = 2 then 2 ^ 256 else 2 ^ 128)
    (ha : Admitted s h 0x0340 { reins := [if k = 0 then 9 else if k = 1 then 11 else 10] }) :
    exec (.shadowWrite h k first entries) s = .next (((s.receive h 0x0340).onTbl fun x =>
      if k = 0 then { x with shFdb := putRun x.shFdb first entries } else if k = 1 then { x with shVlan := putRun x.shVlan first entries }
      else { x with shStr := putRun x.shStr first entries }).answerOk h 0x0340 []) := by
  have hAll : (entries.all fun e => decide (e < if k = 2 then 2 ^ 256 else 2 ^ 128)) = true :=
    List.all_eq_true.mpr fun e he => decide_eq_true (hval e he)
  refine cmd_done ha ?_ rfl
  simp only [firstBad, hk, hsize, hlen, hAll, decide_true, if_true]

theorem shadowWrite_reads {k first : Nat} {entries : List Nat} {u : State} (hu : u = s.onTbl fun x =>
      if k = 0 then { x with shFdb := putRun x.shFdb first entries } else if k = 1 then { x with shVlan := putRun x.shVlan first entries }
      else { x with shStr := putRun x.shStr first entries }) {i : Nat} (hi : i < entries.length) :
    Tab.get (fun _ => 0) (if k = 0 then u.tbl.shFdb else if k = 1 then u.tbl.shVlan else u.tbl.shStr) (first + i) = entries.getD i 0 := by
  subst hu
  unfold State.onTbl
  split
  · exact get_putRun _ _ _ i hi
  · split
    · exact get_putRun _ _ _ i hi
    · exact get_putRun _ _ _ i hi

theorem exec_shadowCtrl {m pace : Nat} (hm : m < 3) (h1 : 1 ≤ pace) (hp : pace ≤ 1000) (ha : Admitted s h 0x0341 { reins := [8] }) :
    exec (.shadowCtrl h m pace) s = .next (((s.receive h 0x0341).writeShadow
      (putFld (putFld ((s.receive h 0x0341).rd Reg.tblShadowCtrl) 0 2 m) 2 10 pace)).answerOk h 0x0341 []) := by
  refine cmd_done ha ?_ rfl
  simp only [firstBad, hm, h1, hp, and_self, decide_true, if_true]

theorem exec_shadowLogGet {m : Nat} (hm : m ≤ 64) (ha : Admitted s h 0x0342 { role := .any }) :
    exec (.shadowLogGet h m) s = .next (((s.receive h 0x0342).onTbl fun x => { x with mmLog := x.mmLog.drop m }).reply
      h.ctx 0x0342 h.tag St.ok (((s.receive h 0x0342).tbl.mmLog.take m).length ::
        ((s.receive h 0x0342).tbl.mmLog.take m).flatMap fun r => (mmWords r).map (·.toNat)) false) :=
  cmd_answers ha (by rw [firstBad_one (decide_eq_true hm)]) rfl (by simp)

/-! FDB_REHASH (R153): the new seed, the old one kept, and both positions probed. -/

/-- A rehash begun. -/
def State.rehashTo (s : State) (seed : Word) : State :=
  ((s.wr Reg.tblFdbSeedOld (s.rd Reg.tblFdbSeed)).wr Reg.tblFdbSeed seed).setFld Reg.tblFdbStat 0 2 3

/-- What a command that defers its completion adds to the list of those that wait. -/
def State.defers (s : State) (d : Deferred) : State := { s with deferred := s.deferred ++ [d] }

theorem rd_defers (s : State) (d : Deferred) (a : Nat) : (s.defers d).rd a = s.rd a := (rfl)

theorem bitAt_defers (s : State) (d : Deferred) (a i : Nat) : (s.defers d).bitAt a i = s.bitAt a i := (rfl)

theorem rehashTo_reads (s : State) (seed : Word) (d : Deferred) {u : State} (hu : u = (s.rehashTo seed).defers d) :
    u.rd Reg.tblFdbSeed = seed ∧ u.rd Reg.tblFdbSeedOld = s.rd Reg.tblFdbSeed ∧ u.rehashing = true ∧ u.dual = true ∧
      u.deferred = s.deferred ++ [d] := by
  subst hu
  unfold State.rehashing State.dual
  simp only [rd_defers, bitAt_defers, State.rehashTo]
  refine ⟨?_, ?_, ?_, ?_, ?_⟩
  · rw [State.rd_setFld, if_neg (by decide), State.rd_wr_self]
  · rw [State.rd_setFld, if_neg (by decide), State.rd_wr, if_neg (by decide), State.rd_wr_self]
  · rw [bitAt_setFld_self _ _ _ _ (by decide)]
    rfl
  · rw [bitAt_setFld_self _ _ _ _ (by decide)]
    rfl
  · unfold State.defers
    simp

theorem exec_fdbRehash (seed : Word) (hre : (s.receive h 0x0390).rehashing = false) (hst : (s.receive h 0x0390).rd Reg.tblFdbStranded = 0)
    (ha : Admitted s h 0x0390 { reins := [9] }) :
    exec (.fdbRehash h seed) s = .next ((((s.receive h 0x0390).rehashTo seed).defers { ctx := h.ctx, op := 0x0390, tag := h.tag, idx := 0 }).reply
      h.ctx 0x0390 h.tag St.accepted [] false) := by
  refine cmd_accepted ha rfl (if_neg ?_)
  rw [hre, hst]
  decide

end Sys2Proof.Machine

open Sys2Proof Sys2Proof.Machine

/-- Settles O23: each command by its own equation, and what the state it leaves reads back. -/
theorem tableCommandsComplete : Obligations.TableCommandsComplete := by
  refine fun s h => ⟨?_, ?_, ?_, ?_, ?_, ?_, ?_, ?_, ?_, ?_, ?_⟩
  · exact fun vid entry ports h1 h2 hfid hports hmem hunt ha =>
      ⟨_, exec_vlanSet h1 h2 hfid hports hmem hunt ha, vlanSet_spec h2 _ rfl⟩
  · exact fun n e hn hin hex hthere hvid hwin hdead hslot ha harm hfits => exec_streamSet hn hin hex hthere hvid hwin hdead hslot ha harm hfits
  · exact fun n hn ha harm hval => exec_streamDelete hn ha harm hval
  · exact fun n pend hn ha => exec_streamGet pend hn ha
  · exact fun q a b en rev w hq hpa hpb hea heb hgrp hw1 hw hfree ha =>
      ⟨_, exec_protSet en rev hq hpa hpb hea heb hgrp hw1 hw hfree ha, withProt_reads _ q en rev hpa hpb hw rfl⟩
  · exact fun q hq ha => exec_protGet hq ha
  · exact fun q hq hpa hpb hen hup hbad ha => exec_protRevert hq hpa hpb hen hup hbad ha
  · exact fun k first entries hk hsize hlen hval ha =>
      ⟨_, exec_shadowWrite hk hsize hlen hval ha, fun i hi => shadowWrite_reads rfl hi⟩
  · exact fun m pace hm h1 hp ha => exec_shadowCtrl hm h1 hp ha
  · exact fun m hm ha => exec_shadowLogGet hm ha
  · exact fun seed hre hst ha => ⟨_, exec_fdbRehash seed hre hst ha, rehashTo_reads _ seed _ rfl⟩

end

section
/-! R149 to R170: what the tables' own engines do. Emptying a queue changes registers, contexts and the switch core alone: what
a reading of the state that none of these changes (`OffQueues`) shows stays. -/

namespace Sys2Proof.Machine

open Host

/-- A reading of the state that the switch core's queues, their registers, the contexts' rings and the event sources leave. -/
structure OffQueues {α : Type} (π : State → α) : Prop where
  wr : ∀ (s : State) (a : Nat) (v : Word), π (s.wr a v) = π s
  onCx : ∀ (s : State) (c : Nat) (f : Ctx → Ctx), π (s.onCx c f) = π s
  onSw : ∀ (s : State) (f : Sw → Sw), π (s.onSw f) = π s
  raise : ∀ (s : State) (n : Nat), π (s.raise n) = π s

theorem offQueues_tbl : OffQueues State.tbl where
  wr _ _ _ := rfl
  onCx _ _ _ := rfl
  onSw _ _ := rfl
  raise s n := (Noted.raiseAt (A := fun _ => True) s 0 (unitOf n) (fun _ _ => trivial) fun _ _ => trivial).tbl

/-- A fold over steps that keep a reading keeps it. -/
theorem foldl_keeps {α β : Type} (π : State → α) (f : State → β → State) (l : List β) (s : State) (h : ∀ t b, π (f t b) = π t) :
    π (l.foldl f s) = π s := by
  induction l generalizing s with
  | nil => rfl
  | cons b l ih => exact (ih (f s b)).trans (h s b)

theorem ite_keeps {α : Type} (π : State → α) {c : Prop} [Decidable c] {s t u : State} (ht : π t = π s) (hu : π u = π s) :
    π (if c then t else u) = π s := by split <;> assumption

namespace OffQueues

variable {α : Type} {π : State → α} (hπ : OffQueues π)
include hπ

/-! Registers, counters and the pool. -/

theorem count (s : State) (a src : Nat) : π (s.count a src) = π s := by
  unfold State.count
  dsimp only
  split
  · rw [hπ.raise, hπ.wr]
  · rw [hπ.wr]

theorem countQ (s : State) (a : Nat) : π (s.countQ a) = π s := hπ.count s a 107

theorem subOcc (s : State) (q n : Nat) : π (s.subOcc q n) = π s := hπ.wr s _ _

theorem freeCells (s : State) (n : Nat) : π (s.freeCells n) = π s := by
  unfold State.freeCells State.poolMark State.raiseIf
  dsimp only
  split
  · rw [hπ.raise, hπ.onSw, hπ.onSw]
  · rw [hπ.onSw, hπ.onSw]

/-! Write-backs of a TX ring (R109). -/

theorem putTxBack (s : State) (c r h k st : Nat) (stamp : Option (Raw × Byte)) : π (s.putTxBack c r h k st stamp) = π s :=
  foldl_keeps π _ _ s fun t _ => hπ.onCx t c _

theorem ringMsg (s : State) (c r : Nat) : π (s.ringMsg c r) = π s := by
  unfold State.ringMsg
  split
  · exact hπ.onCx s c _
  · rfl

theorem flushWb (f : Nat) (s : State) (c r : Nat) : π (State.flushWb f s c r) = π s := by
  induction f generalizing s with
  | zero => rfl
  | succ f ih =>
    unfold State.flushWb
    split
    · rfl
    · split
      · rfl
      · dsimp only
        rw [ih, hπ.ringMsg]
        split
        · rw [hπ.count, hπ.putTxBack, hπ.onCx]
        · rw [hπ.putTxBack, hπ.onCx]

theorem txGone (s : State) (f : Frm) : π (s.txGone f) = π s := by
  unfold State.txGone
  split
  · rfl
  · split
    · rw [State.flushAll, hπ.flushWb, State.txStatus, hπ.onCx]
    · rfl

/-! Frames, copies and queues (R120, R129, R140). -/

theorem release (s : State) (id : Nat) : π (s.release id) = π s := by
  unfold State.release
  split
  · rfl
  · split
    · exact hπ.onSw s _
    · rw [hπ.txGone, hπ.freeCells, State.setFrame, hπ.onSw]

theorem dropCopy (s : State) (q : Nat) (c : Copy) : π (s.dropCopy q c) = π s := by
  unfold State.dropCopy
  split
  · rfl
  · rw [hπ.release, hπ.subOcc]

theorem unqueue (s : State) (c : Staged) : π (s.unqueue c) = π s := by
  unfold State.unqueue
  dsimp only
  split
  · rw [State.setOpen, hπ.onSw, State.setVq, hπ.onSw]
  · rfl

theorem dropCounted (s : State) (q a : Nat) (c : Copy) : π ((s.dropCopy q c).countQ a) = π s := by rw [hπ.countQ, hπ.dropCopy]

theorem flushHeld (s : State) (q : Nat) : π (s.flushHeld q) = π s :=
  foldl_keeps π _ _ s fun t k => by
    split
    · exact (foldl_keeps π _ _ _ fun u c => hπ.dropCounted u q _ c).trans (hπ.onSw t _)
    · rfl

theorem flushQueue (s : State) (q : Nat) : π (s.flushQueue q) = π s := by
  unfold State.flushQueue
  dsimp only
  refine (foldl_keeps π _ _ _ fun u i => (foldl_keeps π _ _ _ fun v c => hπ.dropCounted v q _ c).trans (hπ.onSw u _)).trans ?_
  refine (hπ.flushHeld _ q).trans ((foldl_keeps π _ _ _ fun u c => ?_).trans (hπ.onSw s _))
  rw [hπ.dropCounted, hπ.unqueue]

theorem unstage (s : State) (q : Nat) (r : Rec) (written : Bool) : π (s.unstage q r written) = π s := by
  unfold State.unstage
  dsimp only
  rw [hπ.release]
  have hWritten : ∀ u, π (if written then s.setFrame r.id u else s) = π s := fun u => ite_keeps π (hπ.onSw s _) rfl
  exact ite_keeps π ((hπ.onSw _ _).trans (hWritten _)) ((hπ.onSw _ _).trans ((hπ.onSw _ _).trans (hWritten _)))

theorem flushSeg (s : State) (q : Nat) : π (s.flushSeg q) = π s := by
  unfold State.flushSeg
  dsimp only
  refine (foldl_keeps π _ _ _ fun u r => ?_).trans ((hπ.onSw _ _).trans (hπ.onSw s _))
  rw [hπ.countQ]
  split
  · exact hπ.txGone u _
  · exact hπ.unstage u q r false

end OffQueues

variable {s : State}

/-! The rehash walk ends (R153). -/

theorem exec_rehashWalkEnd (hup : s.life = .up) (hre : s.rehashing = true) (hfw : s.fwOn = true) : exec .rehashWalkEnd s = .next
    (((((s.rehashWalk).wr Reg.tblFdbStranded (w32 s.rehashWalk.leftOver)).setFld Reg.tblFdbStat 0 2
      (if s.rehashWalk.leftOver = 0 then 0 else 2)).raise 111).complete 0x0390 0 (if s.rehashWalk.leftOver = 0 then St.ok else St.full) []) := by
  refine (next_event hup _).trans (congrArg _ (if_neg ?_))
  rw [hre, hfw]
  decide

/-! Protection (R159 to R161). -/

/-- The pair changes over, before its old port's queues are emptied. -/
def State.protMoved (s : State) (q : Nat) : State :=
  (s.onTbl fun x => { x with
    onAlt := Tab.set (fun _ => false) x.onAlt q (!s.onAlternate q)
    back := Tab.set (fun _ => false) x.back q (!(!s.onAlternate q)) }).setProtState q (b2n (!s.onAlternate q))

theorem protFlip_tbl (s : State) (q : Nat) : (s.protFlip q).tbl = (s.protMoved q).tbl :=
  (offQueues_tbl.raise _ 114).trans (foldl_keeps State.tbl _ _ _ fun u c => by
    rw [offQueues_tbl.flushSeg, offQueues_tbl.flushQueue])

theorem protFlip_onAlternate (s : State) (q : Nat) : (s.protFlip q).onAlternate q = !s.onAlternate q := by
  unfold State.onAlternate badAt
  rw [protFlip_tbl]
  exact Tab.get_set_self ..

theorem protJudge_flips {q : Nat} (hen : s.protEn q = true) (hbad : badAt s.tbl.badProt q = false) (hact : s.portFault (s.protActive q) = true)
    (hoth : s.portFault (s.protOther q) = false) : s.protJudge q = s.protFlip q := by
  unfold State.protJudge
  simp only [hen, hbad, hact, hoth, Bool.not_true, Bool.not_false, Bool.or_self, Bool.false_eq_true, if_false, if_true]

theorem protJudge_bothDown {q : Nat} (hen : s.protEn q = true) (hbad : badAt s.tbl.badProt q = false)
    (hact : s.portFault (s.protActive q) = true) (hoth : s.portFault (s.protOther q) = true) :
    s.protJudge q = if s.fld (Reg.tblProt q) 12 2 = 2 then s else (s.setProtState q 2).raise 115 := by
  unfold State.protJudge
  simp only [hen, hbad, hact, hoth, Bool.not_true, Bool.or_self, Bool.false_eq_true, if_false, if_true]

/-- A pair found BOTH_DOWN keeps its traffic where it is. -/
theorem bothDown_reads (s : State) {q : Nat} (hq : q < 16) {u : State}
    (hu : u = if s.fld (Reg.tblProt q) 12 2 = 2 then s else (s.setProtState q 2).raise 115) :
    u.onAlternate q = s.onAlternate q ∧ u.fld (Reg.tblProt q) 12 2 = 2 := by
  have hReg : ¬ EvtReg (Reg.tblProt q) := not_evtReg_of_le (by unfold Reg.tblProt; omega)
  subst hu
  split
  · next h => exact ⟨rfl, h⟩
  · refine ⟨?_, ?_⟩
    · unfold State.onAlternate
      rw [offQueues_tbl.raise]
      rfl
    · rw [(raise_noted _ (by decide)).fld hReg, State.setProtState, fld_setFld_self _ _ _ (by decide)]
      rfl

theorem exec_protSwitch {q : Nat} (hup : s.life = .up) (hq : q < 16) : exec (.protSwitch q) s = .next (s.protJudge q) := onUnit_event hq hup _

theorem exec_protWtrReturn {q : Nat} (hup : s.life = .up) (hq : q < 16) (hen : s.protEn q = true) (hrev : s.bitAt (Reg.tblProt q) 11 = true)
    (halt : s.onAlternate q = true) (hbad : badAt s.tbl.badProt q = false) (hok : s.portFault (s.protPrimary q) = false)
    (hwait : (s.pt (s.protPrimary q)).cleanAt + s.fld (Reg.tblProt q) 14 12 * 1000000000 ≤ s.uptime) :
    exec (.protWtrReturn q) s = .next (s.protFlip q) := by
  refine (onUnit_event hq hup _).trans (congrArg _ (if_pos ?_))
  rw [hen, hrev, halt, hbad, hok, decide_eq_true hwait]
  rfl

/-! The shadow, ageing, the learn filter (R149, R154, R164). -/

theorem exec_shadowCompareUnit (hup : s.life = .up) : exec .shadowCompareUnit s = .next s.compareUnit := next_event hup _

theorem exec_ageScanVisit {i : Nat} (hup : s.life = .up) (hi : i < 262144) : exec (.ageScanVisit i) s = .next (s.ageVisit i) := onUnit_event hi hup _

section
variable {i : Nat} {e : FdbEnt} (hway : s.way i = some e) (hst : e.stat = false) (hbad : e.bad = false) (hage : s.fld Reg.tblAge 0 16 ≠ 0)
include hway hst hbad hage

theorem ageVisit_of_dynamic : s.ageVisit i = if e.hit && !(s.scanTick.tbl.hits.contains i) then s.setWay i (some { e with hit := false })
    else ((((s.scanTick.removeWay i).onTbl fun x =>
      { x with aged := Tab.set (fun _ => false) x.aged (i / 8) true, gone := e :: x.gone }).countT Reg.tblFdbAged).perf 0x106).agedRecords e := by
  unfold State.ageVisit
  rw [hway]
  dsimp only
  rw [hst, hbad, decide_eq_false hage]
  rfl

theorem ageVisit_hit (hhit : e.hit = true) (hnew : i ∉ s.scanTick.tbl.hits) : s.ageVisit i = s.setWay i (some { e with hit := false }) := by
  rw [ageVisit_of_dynamic hway hst hbad hage]
  exact if_pos (by simp [hhit, hnew])

theorem ageVisit_old (hhit : e.hit = false ∨ i ∈ s.scanTick.tbl.hits) : s.ageVisit i = ((((s.scanTick.removeWay i).onTbl fun x =>
      { x with aged := Tab.set (fun _ => false) x.aged (i / 8) true, gone := e :: x.gone }).countT Reg.tblFdbAged).perf 0x106).agedRecords e := by
  rw [ageVisit_of_dynamic hway hst hbad hage]
  refine if_neg ?_
  rcases hhit with h | h <;> simp [h]

end

theorem exec_learnFilterExpiry (hup : s.life = .up) : exec .learnFilterExpiry s =
    .next (s.onTbl fun x => { x with filter := x.filter.filter fun k => decide (s.now < k.2.2.2 + 1250000) }) := next_event hup _

/-! Errors in the tables (R170). -/

/-- An uncorrectable error in a table: its place is marked, counted and told. -/
def State.eccBad (s : State) (f : Tables → Tables) : State := ((s.onTbl f).countT Reg.tblEccUncorr).raise 117

theorem exec_ecc_corrected (hup : s.life = .up) : exec (.tableEccError .corrected) s = .next ((s.countT Reg.tblEccCorr).raise 116) :=
  next_event hup _

theorem exec_ecc_entry {i : Nat} {e : FdbEnt} (hup : s.life = .up) (hway : s.way i = some e) : exec (.tableEccError (.fdb i)) s =
    .next (s.eccBad fun x => { x with fdb := Tab.set (fun _ => none) x.fdb i (some { e with bad := true }) }) := by
  refine (next_event hup _).trans (congrArg _ ?_)
  dsimp only
  rw [hway]
  rfl

theorem exec_ecc_free {i : Nat} (hup : s.life = .up) (hway : s.way i = none) : exec (.tableEccError (.fdb i)) s =
    .next (s.eccBad fun x => { x with badWay := Tab.set (fun _ => false) x.badWay i true }) := by
  refine (next_event hup _).trans (congrArg _ ?_)
  dsimp only
  rw [hway]
  rfl

theorem exec_ecc_vlan (v : Nat) (hup : s.life = .up) : exec (.tableEccError (.vlan v)) s =
    .next (s.eccBad fun x => { x with badVlan := Tab.set (fun _ => false) x.badVlan v true }) := next_event hup _

theorem exec_ecc_stream (n : Nat) (hup : s.life = .up) : exec (.tableEccError (.stream n)) s =
    .next (s.eccBad fun x => { x with badStr := Tab.set (fun _ => false) x.badStr n true }) := next_event hup _

theorem exec_ecc_prot (q : Nat) (hup : s.life = .up) : exec (.tableEccError (.prot q)) s =
    .next (s.eccBad fun x => { x with badProt := Tab.set (fun _ => false) x.badProt q true }) := next_event hup _

end Sys2Proof.Machine

open Sys2Proof Sys2Proof.Machine

/-- Settles O24: each event by its own equation; a pair that changes over keeps its tables but for its own two flags. -/
theorem tableEventsComplete : Obligations.TableEventsComplete := by
  refine ⟨fun s hup => ⟨?_, ?_, ?_, ?_, ?_, ?_, ?_, ?_, ?_, ?_, ?_, ?_⟩, fun s q hq hen hbad hact => ⟨?_, ?_⟩⟩
  · exact fun hre hfw => exec_rehashWalkEnd hup hre hfw
  · exact fun q hq => exec_protSwitch hup hq
  · exact fun q hq hen hrev halt hbad hok hwait => exec_protWtrReturn hup hq hen hrev halt hbad hok hwait
  · exact fun _ => exec_shadowCompareUnit hup
  · exact fun i e hi hway hst hbad hage =>
      ⟨fun hhit hnew => (exec_ageScanVisit hup hi).trans (congrArg _ (ageVisit_hit hway hst hbad hage hhit hnew)),
        fun hhit => (exec_ageScanVisit hup hi).trans (congrArg _ (ageVisit_old hway hst hbad hage hhit))⟩
  · exact exec_learnFilterExpiry hup
  · exact exec_ecc_corrected hup
  · exact fun i e hway => exec_ecc_entry hup hway
  · exact fun i hway => exec_ecc_free hup hway
  · exact fun v => exec_ecc_vlan v hup
  · exact fun n => exec_ecc_stream n hup
  · exact fun q => exec_ecc_prot q hup
  · exact fun hoth => by rw [protJudge_flips hen hbad hact hoth, protFlip_onAlternate]
  · exact fun hoth => bothDown_reads s hq (protJudge_bothDown hen hbad hact hoth)

end

section
/-! R221, R238, the commands of the time scale. The statement of O25 says that TIME_DOM_SET leaves a renumbered domain UNLOCKED,
and it speaks of every state. A switch armed towards the domain is cancelled by the command, and its deferred completion raises
the source 224 + c of its context c: where the state holds a completion of a context that does not exist, that source's event
status bit may be the low bit of TSU_DOM_B's state field, which the command has just cleared. -/

namespace Sys2Proof.Machine

open Host

/-- A context number far past the eight there are, taken so that its source 224 + c has its status bit for HC0 in TSU_DOM_B. -/
def strayCtxB : Nat := 8 * (Reg.tsuDom 1 - Reg.evtStat 0 0) - 224

/-- The status bit of that context's source in HC0 is bit 0 of TSU_DOM_B, the low bit of the domain's state. -/
theorem evtStat_strayCtxB : Reg.evtStat 0 ((224 + strayCtxB) / 32) = Reg.tsuDom 1 ∧ (224 + strayCtxB) % 32 = 0 := by decide

/-- The block up and its firmware ready, with a switch to domain B armed whose deferred completion is the stray context's, and
that context's source routed to HC0. -/
def strayRename : State :=
  { (({ State.reset with life := .up } : State).onMgt fun m => { m with fw := .ready }).wr (Reg.evtRoute (224 + strayCtxB)) 1 with
    tim := { armed := some { dom := 1, sec := 0, force := false } }
    deferred := [{ ctx := strayCtxB, op := 0x0410, tag := 0, idx := 0 }] }

/-- TIME_DOM_SET's header: HC0, which is PRINCIPAL, asks for a reply. -/
def renameHdr : CmdHdr := { ctx := 0, tag := 1, ackreq := true, expert := false }

theorem strayRename_admitted : Admitted strayRename renameHdr 0x0402 { reins := [13] } := by
  unfold Admitted
  decide +kernel

theorem strayRename_number : (strayRename.receive renameHdr 0x0402).fld (Reg.tsuDom 1) 8 8 ≠ 255 := by decide +kernel

theorem strayRename_active : (strayRename.receive renameHdr 0x0402).tim.active = 0 := by decide +kernel

/-- The state of domain B that an outcome leaves. -/
def outcomeDomB (o : Outcome State Fault Refusal) : Nat :=
  match o with
  | .next t => t.domState 1
  | _ => 0

/-- Renumbered and UNLOCKED, domain B is set to FIRST_LOCK by the stray completion. -/
theorem strayRename_domState : outcomeDomB (exec (.timeDomSet renameHdr 1 255 0) strayRename) = 1 := by decide +kernel

/-- An answer leaves the domains' states. -/
theorem domState_answerOk {s : State} {h : CmdHdr} {op : Nat} (hc : h.ctx < 8) (d : Nat) : (s.answerOk h op []).domState d = s.domState d := by
  unfold State.domState State.fld
  rw [rd_answerOk_port hc (by unfold Reg.tsuDom; omega)]

end Sys2Proof.Machine

open Sys2Proof Sys2Proof.Machine

/-- Refutes O25: where a switch to domain B is armed whose deferred completion belongs to a context that does not exist
(`strayRename`), TIME_DOM_SET of another number leaves domain B at FIRST_LOCK and not UNLOCKED. `State.cmd` runs no command of such a
context, so none defers a completion for it; but the statement speaks of every state and does not ask that of it. -/
theorem not_timeCommandsComplete : ¬ Obligations.TimeCommandsComplete := by
  unfold Obligations.TimeCommandsComplete
  intro hAll
  obtain ⟨-, hDomSet, -⟩ := hAll strayRename renameHdr
  obtain ⟨u, hExec, -, -, hUnlocked⟩ := hDomSet 1 255 0 (by decide) (by decide) (by decide)
    (fun _ => by rw [strayRename_active]; decide) strayRename_admitted
  have hZero : u.domState 1 = 0 := hUnlocked strayRename_number.symm
  have hOne : outcomeDomB (.next (u.answerOk renameHdr 0x0402 [])) = 1 := by rw [← hExec, strayRename_domState]
  have hKept : outcomeDomB (.next (u.answerOk renameHdr 0x0402 [])) = u.domState 1 := domState_answerOk (by decide) 1
  exact absurd (hOne.symm.trans (hKept.trans hZero)) (by decide)

end

section
/-! R252 to R254, R260, R264: the commands of time transfer. -/

namespace Sys2Proof.Machine

open Host

variable {s : State} {h : CmdHdr} {p : Nat}

/-- The histories' clearing leaves the registers that show none of them. -/
theorem rd_clearHist {a : Nat} (hT0 : a ≠ Reg.ttTheta p 0) (hT1 : a ≠ Reg.ttTheta p 1) (hA0 : a ≠ Reg.ttTavg p 0) (hA1 : a ≠ Reg.ttTavg p 1)
    (hRtd : a ≠ Reg.ttRtd p) (hNrr : a ≠ Reg.ttNrr p) : (s.clearHist p).rd a = s.rd a := by
  unfold State.clearHist
  simp only [State.rd_wr, if_neg hT0, if_neg hT1, if_neg hA0, if_neg hA1, if_neg hRtd, if_neg hNrr, State.rd_onPtm]

theorem rd_clearHist_alpha : (s.clearHist p).rd (Reg.ttAlpha p) = s.rd (Reg.ttAlpha p) := by
  apply rd_clearHist <;> simp [Reg.ttAlpha, Reg.ttTheta, Reg.ttTavg, Reg.ttRtd, Reg.ttNrr]

theorem rd_clearHist_asym : (s.clearHist p).rd (Reg.ttAsym p) = s.rd (Reg.ttAsym p) := by
  apply rd_clearHist <;> simp [Reg.ttAsym, Reg.ttTheta, Reg.ttTavg, Reg.ttRtd, Reg.ttNrr]

theorem linkNeed_none {reins : List Nat} {bad : Option Nat} (hp : p < 24) (hex : s.exists p = true) (hbad : bad = none) :
    s.linkNeed p reins bad = { owned := [(0, p)], reins := reins } := by
  rw [State.linkNeed, firstBad_one (by simp [hp, hex]), hbad]

/-! TIME_LINK_SET (R264). -/

/-- A link's profile set: α and δ of R252 and R254, the histories cleared, fast and no_upstream. -/
def State.withLink (s : State) (p prof : Nat) (fast no : Bool) : State :=
  ((((s.wr (Reg.ttAlpha p) (if p < 16 ∧ prof = 0 then 0x001A36E3 else 0)).wr (Reg.ttAsym p) 0).clearHist p).setFld
    (Reg.ttCtrl p) 1 1 (b2n fast)).setFld (Reg.ttCtrl p) 2 1 (b2n no)

theorem exec_timeLinkSet {prof : Nat} (fast no : Bool) (hp : p < 24) (hprof : prof < 2) (hex : (s.receive h 0x0420).exists p = true)
    (hnat : (s.receive h 0x0420).native p = true) (ha : Admitted s h 0x0420 { owned := [(0, p)], reins := [13] }) :
    exec (.timeLinkSet h p prof fast no) s = .next (((s.receive h 0x0420).withLink p prof fast no).answerOk h 0x0420 []) := by
  refine cmd_done ha (linkNeed_none hp hex (firstBad_one (decide_eq_true hprof))) ?_
  rw [hnat]
  rfl

theorem withLink_reads (s : State) (p prof : Nat) (fast no : Bool) {u : State} (hu : u = s.withLink p prof fast no) :
    u.rd (Reg.ttAlpha p) = (if p < 16 ∧ prof = 0 then 0x001A36E3 else 0) ∧ u.rd (Reg.ttAsym p) = 0 ∧
      u.bitAt (Reg.ttCtrl p) 1 = fast ∧ u.bitAt (Reg.ttCtrl p) 2 = no := by
  have hAlpha : Reg.ttAlpha p ≠ Reg.ttCtrl p := by simp [Reg.ttAlpha, Reg.ttCtrl]
  have hAsym : Reg.ttAsym p ≠ Reg.ttCtrl p := by simp [Reg.ttAsym, Reg.ttCtrl]
  have hBoth : Reg.ttAlpha p ≠ Reg.ttAsym p := by simp [Reg.ttAlpha, Reg.ttAsym]
  subst hu
  unfold State.withLink
  refine ⟨?_, ?_, ?_, ?_⟩
  · rw [State.rd_setFld, if_neg hAlpha, State.rd_setFld, if_neg hAlpha, rd_clearHist_alpha, State.rd_wr, if_neg hBoth, State.rd_wr_self]
  · rw [State.rd_setFld, if_neg hAsym, State.rd_setFld, if_neg hAsym, rd_clearHist_asym, State.rd_wr_self]
  · rw [bitAt_setFld_self _ _ _ _ (by decide), if_neg (by decide)]
    exact bitAt_setFld_bit _ _ fast (by decide)
  · exact bitAt_setFld_bit _ _ no (by decide)

/-! TIME_LINK_GET (R264): PORT_TT_STAT as it is read, the other registers as they stand. -/

theorem exec_timeLinkGet (hp : p < 24) (hex : (s.receive h 0x0421).exists p = true) (hnat : (s.receive h 0x0421).native p = true)
    (ha : Admitted s h 0x0421 { role := .any, owned := [(0, p)] }) : exec (.timeLinkGet h p) s =
      .next ((s.receive h 0x0421).drawn.reply h.ctx 0x0421 h.tag St.ok
        (((s.receive h 0x0421).rd (Reg.ttCtrl p)).toNat :: ((s.receive h 0x0421).ttWord p).toNat ::
          ([Reg.ttAlpha p, Reg.ttAsym p, Reg.ttRtd p, Reg.ttDin p, Reg.ttTheta p 0, Reg.ttTheta p 1, Reg.ttTavg p 0, Reg.ttTavg p 1, Reg.ttNrr p,
            Reg.ttPhase p, Reg.ttTxdly p, Reg.ttRxdly p, Reg.ttReqTx p, Reg.ttRespOk p, Reg.ttLost p, Reg.ttReject p].map fun a =>
              ((s.receive h 0x0421).rd a).toNat) ++ [(BitVec.ofInt 32 (Config.measured (s.receive h 0x0421).freeCtr)).toNat]) false) := by
  have hOthers : [Reg.ttAlpha p, Reg.ttAsym p, Reg.ttRtd p, Reg.ttDin p, Reg.ttTheta p 0, Reg.ttTheta p 1, Reg.ttTavg p 0, Reg.ttTavg p 1,
      Reg.ttNrr p, Reg.ttPhase p, Reg.ttTxdly p, Reg.ttRxdly p, Reg.ttReqTx p, Reg.ttRespOk p, Reg.ttLost p, Reg.ttReject p].map (fun a =>
        (if a = Reg.ttStat p then (s.receive h 0x0421).ttWord p else (s.receive h 0x0421).rd a).toNat) =
      [Reg.ttAlpha p, Reg.ttAsym p, Reg.ttRtd p, Reg.ttDin p, Reg.ttTheta p 0, Reg.ttTheta p 1, Reg.ttTavg p 0, Reg.ttTavg p 1,
        Reg.ttNrr p, Reg.ttPhase p, Reg.ttTxdly p, Reg.ttRxdly p, Reg.ttReqTx p, Reg.ttRespOk p, Reg.ttLost p, Reg.ttReject p].map fun a =>
          ((s.receive h 0x0421).rd a).toNat := by
    refine List.map_congr_left fun a hmem => ?_
    rw [if_neg]
    rintro rfl
    simp [Reg.ttStat, Reg.ttAlpha, Reg.ttAsym, Reg.ttRtd, Reg.ttDin, Reg.ttTheta, Reg.ttTavg, Reg.ttNrr, Reg.ttPhase, Reg.ttTxdly, Reg.ttRxdly,
      Reg.ttReqTx, Reg.ttRespOk, Reg.ttLost, Reg.ttReject] at hmem
  have hCtrl : Reg.ttCtrl p ≠ Reg.ttStat p := by simp [Reg.ttCtrl, Reg.ttStat]
  refine cmd_answers ha (by rw [linkNeed_none hp hex rfl]) ?_ (by simp)
  rw [hnat, List.map_cons, List.map_cons, hOthers, if_neg hCtrl, if_pos rfl]
  rfl

/-! TIME_GM_SET (R260, R264). -/

section
variable {d flags p1 p2 cls acc : Nat} {utc : Int} {sec ns : Nat} {given : Bool} {u : State}
  (hd : d < 2) (hfl : flags < 256) (h1 : p1 < 256) (h2 : p2 < 256) (hcls : cls < 256) (hacc : acc < 256) (hlo : -32768 ≤ utc) (hhi : utc ≤ 32767)
  (hgiven : given = true → sec < 2 ^ 48 ∧ ns < 1000000000) (ha : Admitted s h 0x0422 { reins := [13] })
  (hu : u = (s.receive h 0x0422).onDm d (fun x => { x with gm :=
        { flags := flags, prio1 := p1, prio2 := p2, cls := cls, accuracy := acc, utc := utc,
          init := if given then some (sec, ns) else none } }))
include hd hfl h1 h2 hcls hacc hlo hhi hgiven ha hu

theorem exec_timeGmSet : exec (.timeGmSet h d flags p1 p2 cls acc utc sec ns given) s = .next ((if u.gmSelf d then
      if flags % 2 = 1 then u.beGm d
      else match best (u.candidates d) with
        | some w => (u.setFld (Reg.tsuDom d) 6 1 0).choose d w.1
        | none => (u.setFld (Reg.tsuDom d) 6 1 0).loseUpstream d
    else u).answerOk h 0x0422 []) := by
  have hSec : (!given || decide (sec < 2 ^ 48)) = true := by
    cases given with
    | false => rfl
    | true => exact decide_eq_true (hgiven rfl).1
  have hNs : (!given || decide (ns < 1000000000)) = true := by
    cases given with
    | false => rfl
    | true => exact decide_eq_true (hgiven rfl).2
  subst hu
  refine cmd_done ha ?_ rfl
  simp only [firstBad, inRange, hd, hfl, h1, h2, hcls, hacc, hlo, hhi, hSec, hNs, decide_true, Bool.and_self, if_true]

theorem exec_timeGmSet_other (hself : u.gmSelf d = false) :
    exec (.timeGmSet h d flags p1 p2 cls acc utc sec ns given) s = .next (u.answerOk h 0x0422 []) := by
  rw [exec_timeGmSet hd hfl h1 h2 hcls hacc hlo hhi hgiven ha hu, hself]
  rfl

theorem exec_timeGmSet_candidate (hself : u.gmSelf d = true) (hodd : flags % 2 = 1) :
    exec (.timeGmSet h d flags p1 p2 cls acc utc sec ns given) s = .next ((u.beGm d).answerOk h 0x0422 []) := by
  rw [exec_timeGmSet hd hfl h1 h2 hcls hacc hlo hhi hgiven ha hu, if_pos hself, if_pos hodd]

theorem exec_timeGmSet_alone (hself : u.gmSelf d = true) (heven : flags % 2 = 0) (hbest : best (u.candidates d) = none) :
    exec (.timeGmSet h d flags p1 p2 cls acc utc sec ns given) s =
      .next (((u.setFld (Reg.tsuDom d) 6 1 0).loseUpstream d).answerOk h 0x0422 []) := by
  rw [exec_timeGmSet hd hfl h1 h2 hcls hacc hlo hhi hgiven ha hu, if_pos hself, if_neg (by omega), hbest]

theorem exec_timeGmSet_withdrawn {w : Nat × List Nat} (hself : u.gmSelf d = true) (heven : flags % 2 = 0) (hbest : best (u.candidates d) = some w) :
    exec (.timeGmSet h d flags p1 p2 cls acc utc sec ns given) s =
      .next (((u.setFld (Reg.tsuDom d) 6 1 0).choose d w.1).answerOk h 0x0422 []) := by
  rw [exec_timeGmSet hd hfl h1 h2 hcls hacc hlo hhi hgiven ha hu, if_pos hself, if_neg (by omega), hbest]

end

/-! TIME_LINK_EXPERT_SET (R264). -/

theorem exec_timeLinkExpertSet {a d : Int} (en : Bool) (hp : p < 24) (ha1 : -4294967 ≤ a) (ha2 : a ≤ 4294967) (hcopper : p < 16 ∨ a = 0)
    (hd1 : -16000000 ≤ d) (hd2 : d ≤ 16000000) (hex : (s.receive h 0x0482).exists p = true)
    (ha : Admitted s h 0x0482 { owned := [(0, p)], reins := [13] }) :
    exec (.timeLinkExpertSet h p a d en) s = .next ((((((s.receive h 0x0482).wr (Reg.ttAlpha p) (BitVec.ofInt 32 a)).wr (Reg.ttAsym p)
      (BitVec.ofInt 32 d)).clearHist p).setFld (Reg.ttCtrl p) 0 1 (b2n en)).answerOk h 0x0482 []) := by
  have hAlpha : (inRange (-4294967) 4294967 a && (decide (p < 16) || decide (a = 0))) = true := by
    simp only [inRange, ha1, ha2, decide_true, Bool.and_self, Bool.true_and]
    simpa using hcopper
  have hDelta : inRange (-16000000) 16000000 d = true := by simp only [inRange, hd1, hd2, decide_true, Bool.and_self]
  refine cmd_done ha (linkNeed_none hp hex ?_) rfl
  rw [firstBad_cons, hAlpha, if_pos rfl, firstBad_one hDelta]

end Sys2Proof.Machine

open Sys2Proof Sys2Proof.Machine

/-- Settles O26: each command by its own equation. -/
theorem linkTimeCommandsComplete : Obligations.LinkTimeCommandsComplete := by
  refine fun s h p hp => ⟨?_, ?_, ?_, ?_⟩
  · exact fun prof fast no hprof hex hnat ha => ⟨_, exec_timeLinkSet fast no hp hprof hex hnat ha, withLink_reads _ p prof fast no rfl⟩
  · exact fun hex hnat ha => exec_timeLinkGet hp hex hnat ha
  · intro d flags p1 p2 cls acc utc sec ns given hd hfl h1 h2 hcls hacc hlo hhi hgiven ha u hu
    exact ⟨exec_timeGmSet_other hd hfl h1 h2 hcls hacc hlo hhi hgiven ha hu, exec_timeGmSet_candidate hd hfl h1 h2 hcls hacc hlo hhi hgiven ha hu,
      exec_timeGmSet_alone hd hfl h1 h2 hcls hacc hlo hhi hgiven ha hu,
      fun w => exec_timeGmSet_withdrawn hd hfl h1 h2 hcls hacc hlo hhi hgiven ha hu⟩
  · exact fun a d en ha1 ha2 hcopper hd1 hd2 hex ha => exec_timeLinkExpertSet en hp ha1 ha2 hcopper hd1 hd2 hex ha

end

section
/-! R216 to R260: what passes in the time scale by itself. -/

namespace Sys2Proof.Machine

open Host

variable {s : State} {d : Nat}

/-! Domain states and traceability (R216, R235). -/

theorem exec_firstLockTimeout (hup : s.life = .up) (hd : d < 2) (hst : s.domState d = 1) (hlate : (s.dm d).lockAt + 150000000000 ≤ s.now) :
    exec (.firstLockTimeout d) s = .next (s.setDomState d 0) := (onUnit_event hd hup _).trans (congrArg _ (if_pos ⟨hst, hlate⟩))

theorem exec_traceHoldExpiry (hup : s.life = .up) (hd : d < 2) (hhold : s.bitAt (Reg.tsuDom d) 2 = true)
    (hlate : (s.dm d).holdAt + s.fld Reg.tsuCtrl 0 16 * 1000000000 ≤ s.uptime) :
    exec (.traceHoldExpiry d) s = .next (s.setTrace d false false (s.bitAt (Reg.tsuDom d) 5)) := by
  refine (onUnit_event hd hup _).trans (congrArg _ (if_pos ?_))
  rw [hhold, decide_eq_true hlate]
  rfl

/-! The switch (R224, R225). -/

section
variable {a : SwitchArm} (hup : s.life = .up) (harm : s.tim.armed = some a)
  (hdue : a.sec ≤ s.netTime.1 ∨ s.domState s.tim.active = 0)
include hup harm hdue

theorem exec_timeSwitchStart : exec .timeSwitchStart s = .next (match s.switchTo a.dom a.force with
    | some u => u.completeSwitch St.ok []
    | none => ((({ s with tim := { s.tim with armed := none } } : State).stick Reg.tsuState 8).raise 130).completeSwitch St.state [1]) := by
  refine (next_event hup _).trans (congrArg _ ?_)
  dsimp only
  rw [harm]
  exact if_pos hdue

theorem exec_timeSwitchStart_made {t : State} (hto : s.switchTo a.dom a.force = some t) :
    exec .timeSwitchStart s = .next (t.completeSwitch St.ok []) := by rw [exec_timeSwitchStart hup harm hdue, hto]

theorem exec_timeSwitchStart_refused (hto : s.switchTo a.dom a.force = none) : exec .timeSwitchStart s =
    .next (((({ s with tim := { s.tim with armed := none } } : State).stick Reg.tsuState 8).raise 130).completeSwitch St.state [1]) := by
  rw [exec_timeSwitchStart hup harm hdue, hto]

end

/-- A sticky bit of TSU_STATE stands after its source is raised, and the raise leaves the time state. -/
theorem stickState_raise (s : State) {i n : Nat} (hi : i < 32) (hn : n < 256) :
    ((s.stick Reg.tsuState i).raise n).tim = s.tim ∧ ((s.stick Reg.tsuState i).raise n).bitAt Reg.tsuState i = true := by
  have hReg : ¬ EvtReg Reg.tsuState := not_evtReg_of_le (by decide)
  exact ⟨(raise_noted (s.stick Reg.tsuState i) hn).tim, by rw [(raise_noted _ hn).bitAt hReg, bitAt_stick_self _ _ hi]⟩

theorem exec_slewEnd (hup : s.life = .up) (hslew : s.tim.slewing = true) (hzero : s.tim.bridge = 0) :
    exec .slewEnd s = .next s.slewDone := by
  refine (next_event hup _).trans (congrArg _ (if_pos ?_))
  rw [hslew, hzero]
  rfl

/-! PPS_IN (R260). -/

section
variable {edge : Nat} (hup : s.life = .up) (hd : d < 2) (hgm : s.gmSelf d = true) (hpps : (s.dm d).gm.flags.testBit 4 = true)
  (hok : s.bitAt (Reg.clkRefStat 5) 1 = true)
include hup hd hgm hpps hok

theorem exec_ppsAlignMeasure : exec (.ppsAlignMeasure d edge) s = .next (if s.domState d = 0 then s.beGm d
    else s.measure d ((s.dm d).at edge - roundDiv ((s.dm d).at edge) (1000000000 * 2 ^ 32) * (1000000000 * 2 ^ 32))
      (roundDiv ((s.dm d).at edge) (1000000000 * 2 ^ 32) * (1000000000 * 2 ^ 32)) edge 1 1) := by
  refine (onUnit_event hd hup _).trans (congrArg _ (if_pos ?_))
  rw [hgm, hpps, hok]
  rfl

theorem exec_ppsAlignMeasure_step (hst : s.domState d = 0) : exec (.ppsAlignMeasure d edge) s = .next (s.beGm d) := by
  rw [exec_ppsAlignMeasure hup hd hgm hpps hok, if_pos hst]

theorem exec_ppsAlignMeasure_servo {n : Int} (hst : s.domState d ≠ 0) (hn : n = roundDiv ((s.dm d).at edge) (1000000000 * 2 ^ 32)) :
    exec (.ppsAlignMeasure d edge) s =
      .next (s.measure d ((s.dm d).at edge - n * (1000000000 * 2 ^ 32)) (n * (1000000000 * 2 ^ 32)) edge 1 1) := by
  rw [exec_ppsAlignMeasure hup hd hgm hpps hok, if_neg hst, hn]

end

/-! The choice of the upstream (R258, R259). -/

theorem exec_upstreamSelect (hd : d < 2) (hfw : s.fwOn = true) : exec (.upstreamSelect d) s = .next ((s.selectUpstream d).ptpDecideAll) := by
  refine (onUnit_of_lt hd _).trans (congrArg _ (if_neg ?_))
  rw [hfw]
  decide

theorem selectUpstream_first {w : Nat × List Nat} (hbest : best (s.candidates d) = some w) (hnone : s.following d = none) :
    s.selectUpstream d = s.choose d w.1 := by
  unfold State.selectUpstream
  rw [hbest, hnone]
  rfl

theorem selectUpstream_lost {p : Nat} (hbest : best (s.candidates d) = none) (hsome : s.following d = some p) :
    s.selectUpstream d = s.loseUpstream d := by
  unfold State.selectUpstream
  rw [hbest, hsome]
  rfl

/-- A different grandmaster wins while the upstream followed is still a candidate: it is noted as the rival. -/
theorem selectUpstream_rival {p : Nat} {c : List Nat} {w : Nat × List Nat} (hbest : best (s.candidates d) = some w)
    (hsome : s.following d = some p) (hne : p ≠ w.1) (hmem : (p, c) ∈ s.candidates d) (hgm : (s.infoOf d).gmId ≠ w.2.getD 4 0)
    (hriv : (s.dm d).rival = none) : s.selectUpstream d = s.onDm d fun x => { x with rival := some (w.2.getD 4 0, s.now) } := by
  have hStill : ((s.candidates d).any fun c => c.1 == p) = true := List.any_eq_true.mpr ⟨(p, c), hmem, beq_self_eq_true p⟩
  have hOther : ¬ (some p = some w.1) := fun heq => hne (Option.some.inj heq)
  have hGm : decide (s.fld (Reg.tsuGmIdLo d) 0 32 + s.fld (Reg.tsuGmIdHi d) 0 32 * 2 ^ 32 = w.2.getD 4 0) = false := decide_eq_false hgm
  unfold State.selectUpstream
  simp only [hbest, hsome, hStill, hriv, if_neg hOther, hGm, Bool.not_true, Bool.or_self, Bool.false_eq_true, if_false]

theorem exec_upstreamChange {g r : Nat} {w : Nat × List Nat} (hd : d < 2) (hfw : s.fwOn = true) (hriv : (s.dm d).rival = some (g, r))
    (hbest : best (s.candidates d) = some w) (hg : g = w.2.getD 4 0) (hlate : r + 3750000000 ≤ s.now) :
    exec (.upstreamChange d) s = .next ((s.choose d w.1).ptpDecideAll) := by
  refine (onUnit_of_lt hd _).trans (congrArg _ ?_)
  rw [hfw, hriv, hbest]
  dsimp only
  rw [if_neg (by decide), if_pos ⟨hg, hlate⟩]

end Sys2Proof.Machine

open Sys2Proof Sys2Proof.Machine

/-- Settles O27: each event by its own equation. -/
theorem timeEventsComplete : Obligations.TimeEventsComplete := by
  refine fun s hup => ⟨?_, ?_, ?_, ?_, ?_, ?_, ?_, ?_, ?_, ?_, ?_⟩
  · exact fun d hd hst hlate => exec_firstLockTimeout hup hd hst hlate
  · exact fun d hd hhold hlate => exec_traceHoldExpiry hup hd hhold hlate
  · exact fun a t harm hdue hto => exec_timeSwitchStart_made hup harm hdue hto
  · exact fun a harm hdue hto => ⟨_, exec_timeSwitchStart_refused hup harm hdue hto, stickState_raise _ (by decide) (by decide)⟩
  · exact fun hslew hzero => ⟨_, exec_slewEnd hup hslew hzero, stickState_raise _ (by decide) (by decide)⟩
  · exact fun d edge hd hgm hpps hok hst => exec_ppsAlignMeasure_step hup hd hgm hpps hok hst
  · exact fun d edge n hd hgm hpps hok hst hn => exec_ppsAlignMeasure_servo hup hd hgm hpps hok hst hn
  · exact fun d w hd hfw hbest hnone => by rw [exec_upstreamSelect hd hfw, selectUpstream_first hbest hnone]
  · exact fun d p hd hfw hbest hsome => by rw [exec_upstreamSelect hd hfw, selectUpstream_lost hbest hsome]
  · exact fun d p c w hd hfw hbest hsome hne hmem hgm hriv => by
      rw [exec_upstreamSelect hd hfw, selectUpstream_rival hbest hsome hne hmem hgm hriv]
  · exact fun d g r w hd hfw hriv hbest hg hlate => exec_upstreamChange hd hfw hriv hbest hg hlate

end

section
/-! R241 to R251, R266: the exchange and INFO on a native port. -/

namespace Sys2Proof.Machine

open Host

/-! The ports' time state, which the time domains' own operations and the messages a port sends leave. -/

section
variable (s : State)

@[simp] theorem raiseAt_ptime (n : Nat) (w : Word) (u : Nat) : (s.raiseAt n w u).ptime = s.ptime := by
  rw [(Noted.raiseAt (A := fun _ => True) s w u (fun _ _ => trivial) fun _ _ => trivial).eq]
@[simp] theorem raise_ptime (n : Nat) : (s.raise n).ptime = s.ptime := raiseAt_ptime s n _ _
@[simp] theorem setHold_ptime (d : Nat) (on : Bool) : (s.setHold d on).ptime = s.ptime := by simp [State.setHold, apply_ite State.ptime]
@[simp] theorem armCause_ptime : s.armCause.ptime = s.ptime := by
  unfold State.armCause
  split <;> rfl
@[simp] theorem setDomState_ptime (d n : Nat) : (s.setDomState d n).ptime = s.ptime := by simp [State.setDomState, apply_ite State.ptime]
@[simp] theorem setTrace_ptime (d : Nat) (tr fr ps : Bool) : (s.setTrace d tr fr ps).ptime = s.ptime := by
  simp [State.setTrace, apply_ite State.ptime]
@[simp] theorem setGmId_ptime (d gm : Nat) : (s.setGmId d gm).ptime = s.ptime := by simp [State.setGmId, apply_ite State.ptime]
@[simp] theorem follow_ptime (d : Nat) (m : InfoMsg) : (s.follow d m).ptime = s.ptime := by simp [State.follow, State.setUtc]
@[simp] theorem loseUpstream_ptime (d : Nat) : (s.loseUpstream d).ptime = s.ptime := by
  unfold State.loseUpstream
  dsimp only
  split
  · simp only [State.onDm_ptime, State.setFld_ptime]
  · simp only [setDomState_ptime, State.setFld_ptime]
  · simp only [setHold_ptime, State.setFld_ptime]
@[simp] theorem wakeTx_ptime (p : Nat) : (s.wakeTx p).ptime = s.ptime := by
  unfold State.wakeTx
  split <;> rfl
@[simp] theorem sendMsg_ptime (p ty : Nat) (ws : List Nat) : (s.sendMsg p ty ws).ptime = s.ptime := by
  unfold State.sendMsg State.emit
  split
  · exact wakeTx_ptime s p
  · rfl

end

theorem ptm_of_ptime {s t : State} (h : t.ptime = s.ptime) (p : Nat) : t.ptm p = s.ptm p := by rw [State.ptm, h, State.ptm]

variable {s : State} {p : Nat}

/-! TIME messages (R243, R247). -/

theorem native_of_takesPart (h : s.takesPart p = true) : s.native p = true ∧ (s.pt p).up = true := by
  simp only [State.takesPart, Bool.and_eq_true] at h
  obtain ⟨⟨⟨⟨⟨hNat, hUp⟩, -⟩, -⟩, -⟩, -⟩ := h
  exact ⟨hNat, hUp⟩

theorem takesPart_of_carries {d : Nat} (h : s.carries p d = true) : s.takesPart p = true := by
  simp only [State.carries, Bool.and_eq_true] at h
  obtain ⟨⟨hPart, -⟩, -⟩ := h
  exact hPart

theorem timeMsg_acts {kind : Nat} {ws : List Nat} (hpart : s.takesPart p = true) (hok : timeOk kind ws = true) (f : State → State) :
    s.timeMsg p kind ws f = f s := by
  obtain ⟨hNat, hUp⟩ := native_of_takesPart hpart
  simp only [State.timeMsg, hNat, hUp, hok, hpart, Bool.and_self, Bool.not_true, Bool.false_eq_true, if_false, if_true]

/-! REQ (R241, R242, R245). -/

/-- A REQ is due at a port that has sent none yet, and at one whose interval has passed. -/
theorem due_of {o : Option Nat} {q : Nat → Bool} (h : ∀ r, o = some r → q r = true) :
    (match (generalizing := false) o with
      | none => true
      | some r => q r) = true := by
  cases o with
  | none => rfl
  | some r => exact h r rfl

/-- The port's note of the REQ that it sends now. -/
def PortTime.request (x : PortTime) (t1 : Int) (now : Nat) : PortTime :=
  { x with reqSeq := (x.reqSeq + 1) % 256, t1 := t1, waiting := true, reqAt := some now }

/-- The state with a REQ that never was answered counted. -/
def State.lostCounted (s : State) (p : Nat) : State := if (s.ptm p).waiting then s.count (Reg.ttLost p) (64 + p) else s

theorem lostCounted_ptm (s : State) (hp : p < 24) (q : Nat) : (s.lostCounted p).ptm q = s.ptm q := by
  unfold State.lostCounted
  split
  · exact (count_noted s _ (by omega)).ptm q
  · rfl

/-- A REQ sent (R242). -/
def State.sentReq (s : State) (p at_ : Nat) : State :=
  (((s.lostCounted p).onPtm p fun y => y.request (stampFine (s.txPlane p at_)) s.now).count (Reg.ttReqTx p) (64 + p)).sendMsg p 0x08
    (withMsgCrc (reqWords (((s.ptm p).reqSeq + 1) % 256) (s.fineOn p) (stampFine (s.txPlane p at_))))

theorem exec_timeReqSend (at_ : Nat) (hup : s.life = .up) (hp : p < 24) (hpart : s.takesPart p = true)
    (hdue : ∀ r, (s.ptm p).reqAt = some r → r + s.reqEvery p ≤ s.now) (hmay : s.mayMessage p 14 = true) :
    exec (.timeReqSend p at_) s = .next (s.sentReq p at_) := by
  have hDue := due_of (q := fun r => decide (r + s.reqEvery p ≤ s.now)) fun r hr => decide_eq_true (hdue r hr)
  refine (onUnit_event hp hup _).trans (congrArg _ (if_pos ?_))
  rw [hpart, hmay, Bool.true_and, Bool.and_true]
  exact hDue

theorem sentReq_ptm (s : State) (at_ : Nat) (hp : p < 24) :
    (s.sentReq p at_).ptm p = (s.ptm p).request (stampFine (s.txPlane p at_)) s.now := by
  unfold State.sentReq
  rw [ptm_of_ptime (sendMsg_ptime _ _ _ _), (count_noted _ _ (by omega)).ptm, State.ptm_onPtm_self, lostCounted_ptm s hp]

/-! RESP (R243 to R245). -/

section
variable {words : List Nat} {t2 : RxStamp} {t3 : Nat} (hup : s.life = .up) (hp : p < 24) (hpart : s.takesPart p = true)
  (hok : timeOk 0 words = true)
include hup hp hpart hok

theorem exec_timeReqReceive : exec (.timeReqReceive p words t2 t3) s = .next
    (if 0 ≤ stampFine (s.txPlane p t3) - stampFine (s.rxPlane p t2) ∧ stampFine (s.txPlane p t3) - stampFine (s.rxPlane p t2) ≤ 25000 * 65536 ∧
        s.mayMessageIn p 24 (t3 / 256 - s.now) then
      ((s.notePhase p t2).onPtm p fun x =>
        { x with resp := some (s.respTo p (words.getD 1 0 % 256) (stampFine (s.rxPlane p t2)) (stampFine (s.txPlane p t3))) }).sendMsg p 0x08
        (withMsgCrc (respWords (s.respTo p (words.getD 1 0 % 256) (stampFine (s.rxPlane p t2)) (stampFine (s.txPlane p t3)))))
    else s.notePhase p t2) := (onUnit_event hp hup _).trans (congrArg _ (timeMsg_acts hpart hok _))

theorem exec_timeReqReceive_answered {a2 a3 : Int} (h2 : a2 = stampFine (s.rxPlane p t2)) (h3 : a3 = stampFine (s.txPlane p t3))
    (hlo : 0 ≤ a3 - a2) (hhi : a3 - a2 ≤ 25000 * 65536) (hmay : s.mayMessageIn p 24 (t3 / 256 - s.now) = true) :
    exec (.timeReqReceive p words t2 t3) s = .next (((s.notePhase p t2).onPtm p fun x =>
      { x with resp := some (s.respTo p (words.getD 1 0 % 256) a2 a3) }).sendMsg p 0x08
        (withMsgCrc (respWords (s.respTo p (words.getD 1 0 % 256) a2 a3)))) := by
  subst h2 h3
  rw [exec_timeReqReceive hup hp hpart hok, if_pos ⟨hlo, hhi, hmay⟩]

theorem exec_timeReqReceive_late (hlate : 25000 * 65536 < stampFine (s.txPlane p t3) - stampFine (s.rxPlane p t2)) :
    exec (.timeReqReceive p words t2 t3) s = .next (s.notePhase p t2) := by
  rw [exec_timeReqReceive hup hp hpart hok, if_neg]
  rintro ⟨-, hhi, -⟩
  omega

end

theorem ptm_sendMsg_onPtm (s : State) (f : PortTime → PortTime) (ty : Nat) (ws : List Nat) : ((s.onPtm p f).sendMsg p ty ws).ptm p = f (s.ptm p) := by
  rw [ptm_of_ptime (sendMsg_ptime _ _ _ _), State.ptm_onPtm_self]

theorem exec_timeRespReceive {words : List Nat} {t4 : RxStamp} (hup : s.life = .up) (hp : p < 24) (hpart : s.takesPart p = true)
    (hok : timeOk 1 words = true) (hwait : (s.ptm p).waiting = true) (hecho : (respOf words).echo = (s.ptm p).reqSeq)
    (hsoon : stampFine (s.rxPlane p t4) - (s.ptm p).t1 ≤ 375000 * 65536) :
    exec (.timeRespReceive p words t4) s = .next ((s.notePhase p t4).exchange p (respOf words) (stampFine (s.rxPlane p t4))) := by
  refine (onUnit_event hp hup _).trans (congrArg _ ((timeMsg_acts hpart hok _).trans (if_pos ?_)))
  rw [hwait, decide_eq_true hecho, decide_eq_true hsoon]
  rfl

/-! The exchange is lost (R266). -/

/-- The state in which a port has had no accepted exchange for too long. -/
def State.exchLost (s : State) (p : Nat) : State := (s.stick (Reg.ttStat p) 8).onPtm p fun x => { x with exchAt := none }

theorem exec_exchangeLost {r : Nat} (hup : s.life = .up) (hp : p < 24) (hpart : s.takesPart p = true) (hlast : (s.ptm p).exchAt = some r)
    (hlate : r + (if s.fastReq p then 1250000000 else 3750000000) ≤ s.now) :
    exec (.exchangeLost p) s =
      .next (((s.exchLost p).raiseAt (64 + p) ((s.exchLost p).rd (Reg.ttStat p)) p).dropUpstream p) := by
  refine (onUnit_event hp hup _).trans (congrArg _ ?_)
  dsimp only
  rw [hlast]
  dsimp only
  rw [hpart, decide_eq_true hlate]
  rfl

theorem ttStat_not_evtReg (p : Nat) : ¬ EvtReg (Reg.ttStat p) := not_evtReg_of_le (by unfold Reg.ttStat; omega)

/-- PORT_TT_STAT reads no exch_ok where no exchange is noted. -/
theorem ttWord_of_exchAt_none {t : State} (h : (t.ptm p).exchAt = none) : (t.ttWord p).getLsbD 2 = false := by
  unfold State.ttWord
  rw [h]
  refine (bit_putFld _ _ _ (by decide)).trans ?_
  rw [if_pos (by decide)]
  dsimp only
  rw [Nat.testBit_zero]
  refine decide_eq_false ?_
  rw [show b2n false = 0 from rfl]
  omega

theorem exchLost_reads (s : State) (hp : p < 24) {t : State} (ht : t = (s.exchLost p).raiseAt (64 + p) ((s.exchLost p).rd (Reg.ttStat p)) p) :
    (t.ttWord p).getLsbD 2 = false ∧ t.bitAt (Reg.ttStat p) 8 = true ∧ (t.ptm p).exchAt = none := by
  have hNoted : Noted EvtReg (s.exchLost p) t := by rw [ht]; exact raiseAt_noted _ _ _ (by omega)
  have hPtm : (t.ptm p).exchAt = none := by rw [hNoted.ptm, State.exchLost, State.ptm_onPtm_self]
  refine ⟨ttWord_of_exchAt_none hPtm, ?_, hPtm⟩
  rw [hNoted.bitAt (ttStat_not_evtReg p)]
  exact bitAt_stick_self s _ (by decide)

/-! INFO (R247). -/

theorem exec_infoSend {d : Nat} (hup : s.life = .up) (hp : p < 24) (hd : d < 2) (hcar : s.carries p d = true)
    (hhas : s.domState d ≠ 0 ∨ s.gmSelf d = true)
    (hdue : ∀ o r, (s.ptm p).sentInfo d = some (o, r) → o ≠ s.infoOf d ∨ r + 1250000000 ≤ s.now) (hmay : s.mayMessage p 14 = true) :
    exec (.infoSend p d) s = .next ((s.onPtm p fun x => if d = 0 then { x with sentA := some (s.infoOf d, s.now) }
      else { x with sentB := some (s.infoOf d, s.now) }).sendMsg p 0x08 (withMsgCrc (infoWords (s.infoOf d)))) := by
  have hHas : (decide (s.domState d ≠ 0) || s.gmSelf d) = true := by simpa using hhas
  have hDue : (match (s.ptm p).sentInfo d with
      | none => true
      | some (o, r) => decide (o ≠ s.infoOf d) || decide (r + 1250000000 ≤ s.now)) = true := by
    revert hdue
    generalize (s.ptm p).sentInfo d = o
    intro hdue
    match o with
    | none => rfl
    | some (o, r) => simpa using hdue o r rfl
  refine (onUnit_of_lt hp _).trans (congrArg _ ((onUnitS_of_lt hd _ _).trans ((event_of_up hup _).trans (if_pos ?_))))
  rw [hcar, hHas, hmay, Bool.true_and, Bool.true_and, Bool.and_true]
  exact hDue

/-- A partner's INFO held. -/
def State.holdInfo (s : State) (p d : Nat) (m : InfoMsg) : State :=
  s.onPtm p fun x => if d = 0 then { x with infoA := some (m, s.now) } else { x with infoB := some (m, s.now) }

theorem holdInfo_info (s : State) {d : Nat} (m : InfoMsg) : ((s.holdInfo p d m).ptm p).info d = some (m, s.now) := by
  rw [State.holdInfo, State.ptm_onPtm_self]
  unfold PortTime.info
  split <;> rfl

theorem exec_infoReceive {words : List Nat} {d : Nat} (hup : s.life = .up) (hp : p < 24) (hd : d = (infoMsgOf words).which % 2)
    (hok : timeOk 2 words = true) (hcar : s.carries p d = true) : exec (.infoReceive p words) s =
      .next (if s.isUp p d then
          if (infoMsgOf words).locked && !(infoMsgOf words).holdover then
            (s.holdInfo p d (infoMsgOf words)).follow d { infoMsgOf words with steps := (infoMsgOf words).steps + 1 }
          else ((s.holdInfo p d (infoMsgOf words)).follow d { infoMsgOf words with steps := (infoMsgOf words).steps + 1 }).loseUpstream d
        else s.holdInfo p d (infoMsgOf words)) := by
  subst hd
  exact (onUnit_event hp hup _).trans (congrArg _ ((timeMsg_acts (takesPart_of_carries hcar) hok _).trans (if_pos hcar)))

/-- TSU_DOM_x.traceable takes its value. -/
theorem setTrace_traceable (s : State) (d : Nat) (tr fr ps : Bool) : (s.setTrace d tr fr ps).bitAt (Reg.tsuDom d) 3 = tr := by
  have hSet : (((s.setFld (Reg.tsuDom d) 3 1 (b2n tr)).setFld (Reg.tsuDom d) 4 1 (b2n fr)).setFld (Reg.tsuDom d) 5 1 (b2n ps)).bitAt
      (Reg.tsuDom d) 3 = tr := by
    rw [bitAt_setFld_self _ _ _ _ (by decide), if_neg (by decide), bitAt_setFld_self _ _ _ _ (by decide), if_neg (by decide)]
    exact bitAt_setFld_bit _ _ tr (by decide)
  unfold State.setTrace
  dsimp only
  split
  · exact hSet
  · rw [(raiseAt_noted _ _ _ (by decide)).bitAt (not_evtReg_of_le (by unfold Reg.tsuDom; omega))]
    exact hSet

@[simp] theorem setTrace_dm (s : State) (d : Nat) (tr fr ps : Bool) (e : Nat) : (s.setTrace d tr fr ps).dm e = s.dm e := by
  unfold State.setTrace
  dsimp only
  split
  · rfl
  · rw [(raiseAt_noted _ _ _ (by decide)).dm]
    rfl

/-- What a domain takes over from the grandmaster it follows. -/
theorem follow_reads (s : State) (d : Nat) (m : InfoMsg) :
    ((s.follow d m).dm d).prio1 = m.prio1 ∧ (s.follow d m).bitAt (Reg.tsuDom d) 3 = m.traceable := by
  have hUtc : Reg.tsuDom d ≠ Reg.tsuUtc d := by simp [Reg.tsuDom, Reg.tsuUtc]
  unfold State.follow State.setUtc
  dsimp only
  refine ⟨?_, ?_⟩
  · rw [State.dm_wr, setTrace_dm, State.dm_onDm_self]
  · rw [State.bitAt, State.rd_wr, if_neg hUtc]
    exact setTrace_traceable _ _ _ _ _

theorem infoReceive_spec (s : State) {d : Nat} (m : InfoMsg) {t : State} (ht : t = if s.isUp p d then
          if m.locked && !m.holdover then (s.holdInfo p d m).follow d { m with steps := m.steps + 1 }
          else ((s.holdInfo p d m).follow d { m with steps := m.steps + 1 }).loseUpstream d
        else s.holdInfo p d m) :
    (t.ptm p).info d = some (m, s.now) ∧ (s.isUp p d = true → m.locked = true → m.holdover = false →
      (t.dm d).prio1 = m.prio1 ∧ t.bitAt (Reg.tsuDom d) 3 = m.traceable) := by
  have hTime : t.ptime = (s.holdInfo p d m).ptime := by
    subst ht
    split
    · split <;> simp
    · rfl
  refine ⟨by rw [ptm_of_ptime hTime, holdInfo_info], fun hUp hLock hHold => ?_⟩
  rw [ht, if_pos hUp, hLock, hHold]
  exact follow_reads _ d _

theorem exec_infoVoid {d r : Nat} {m : InfoMsg} (hup : s.life = .up) (hp : p < 24) (hd : d < 2) (hinfo : (s.ptm p).info d = some (m, r))
    (hlate : r + 3750000000 ≤ s.now) (hnot : s.isUp p d = false) :
    exec (.infoVoid p d) s = .next (s.onPtm p fun x => if d = 0 then { x with infoA := none } else { x with infoB := none }) := by
  refine (onUnit_of_lt hp _).trans (congrArg _ ((onUnitS_of_lt hd _ _).trans ((event_of_up hup _).trans ?_)))
  dsimp only
  rw [hinfo]
  dsimp only
  rw [if_pos hlate]
  refine if_neg ?_
  have hSame : (s.onPtm p fun x => if d = 0 then { x with infoA := none } else { x with infoB := none }).isUp p d = s.isUp p d := rfl
  rw [hSame, hnot]
  decide

/-! The fit (R249, R266). -/

theorem exec_vernierFitLoss (hup : s.life = .up) (hp : p < 24) (hnat : s.native p = true) (hfit : s.bitAt (Reg.ttStat p) 0 = true) :
    exec (.vernierFitLoss p) s = .next (((s.setFld (Reg.ttStat p) 0 1 0).stick (Reg.ttStat p) 11).raiseAt (64 + p)
      (((s.setFld (Reg.ttStat p) 0 1 0).stick (Reg.ttStat p) 11).rd (Reg.ttStat p)) p) := by
  refine (onUnit_event hp hup _).trans (congrArg _ (if_pos ?_))
  rw [hnat, hfit]
  rfl

theorem vernierFitLoss_reads (s : State) (hp : p < 24) {t : State} (w : Word)
    (ht : t = ((s.setFld (Reg.ttStat p) 0 1 0).stick (Reg.ttStat p) 11).raiseAt (64 + p) w p) :
    t.bitAt (Reg.ttStat p) 0 = false ∧ t.bitAt (Reg.ttStat p) 11 = true := by
  have hNoted : Noted EvtReg ((s.setFld (Reg.ttStat p) 0 1 0).stick (Reg.ttStat p) 11) t := by rw [ht]; exact raiseAt_noted _ _ _ (by omega)
  rw [hNoted.bitAt (ttStat_not_evtReg p), hNoted.bitAt (ttStat_not_evtReg p)]
  refine ⟨?_, bitAt_stick_self _ _ (by decide)⟩
  rw [bitAt_stick_of_bit_ne _ _ (by decide), bitAt_clear _ _ (by decide)]

theorem exec_fineValidReturn (hup : s.life = .up) (hp : p < 24) (hnat : s.native p = true) (hport : (s.pt p).up = true) :
    exec (.fineValidReturn p) s = .next (s.setFld (Reg.ttStat p) 0 1 1) := by
  refine (onUnit_event hp hup _).trans (congrArg _ (if_pos ?_))
  rw [hnat, hport]
  rfl

end Sys2Proof.Machine

open Sys2Proof Sys2Proof.Machine

/-- Settles O28: each event by its own equation, and what the state it leaves reads back. -/
theorem exchangeCompletes : Obligations.ExchangeCompletes := by
  refine fun s p hup hp => ⟨?_, ?_, ?_, ?_, ?_, ?_, ?_, ?_, ?_, ?_⟩
  · intro at_ hpart hdue hmay
    refine ⟨_, exec_timeReqSend at_ hup hp hpart hdue hmay, ?_⟩
    rw [sentReq_ptm s at_ hp]
    exact ⟨rfl, rfl, rfl, rfl⟩
  · intro words t2 t3 a2 a3 hpart hok h2 h3 hlo hhi hmay
    refine ⟨_, s.respTo p (words.getD 1 0 % 256) a2 a3, exec_timeReqReceive_answered hup hp hpart hok h2 h3 hlo hhi hmay, ?_,
      rfl, rfl, rfl, rfl, rfl, rfl⟩
    rw [ptm_sendMsg_onPtm]
  · exact fun words t2 t3 hpart hok hlate => exec_timeReqReceive_late hup hp hpart hok hlate
  · exact fun words t4 hpart hok hwait hecho hsoon => exec_timeRespReceive hup hp hpart hok hwait hecho hsoon
  · exact fun r hpart hlast hlate => ⟨_, exec_exchangeLost hup hp hpart hlast hlate, exchLost_reads s hp rfl⟩
  · exact fun d hd hcar hhas hdue hmay => exec_infoSend hup hp hd hcar hhas hdue hmay
  · exact fun words d hd hok hcar => ⟨_, exec_infoReceive hup hp hd hok hcar, infoReceive_spec s _ rfl⟩
  · exact fun d m r hd hinfo hlate hnot => exec_infoVoid hup hp hd hinfo hlate hnot
  · exact fun hnat hfit => ⟨_, exec_vernierFitLoss hup hp hnat hfit, vernierFitLoss_reads s hp _ rfl⟩
  · exact fun hnat hport => exec_fineValidReturn hup hp hnat hport

end

section
/-! R228 to R235: PTP on a port that is not native. A message of the module's own goes into the switch as a frame of port 28
(R103): that changes what the switch core's queues, their registers, the event sources and the PMU hold, and no reading of the
state outside of these (`OffPaths`). -/

namespace Sys2Proof.Machine

open Host

/-- A reading that the performance counters leave as well. -/
structure OffPaths {α : Type} (π : State → α) : Prop extends OffQueues π where
  perf : ∀ (s : State) (n : Nat), n < 512 → π (s.perf n) = π s

theorem offPaths_ptime : OffPaths State.ptime where
  wr _ _ _ := rfl
  onCx _ _ _ := rfl
  onSw _ _ := rfl
  raise := raise_ptime
  perf s n hn := by rw [(perf_beside (A := fun _ => True) s n hn (fun _ _ => trivial) fun _ _ => trivial).eq]

namespace OffPaths

variable {α : Type} {π : State → α} (hπ : OffPaths π)
include hπ

theorem raiseIf (s : State) (b : Bool) (n : Nat) : π (s.raiseIf b n) = π s := by
  unfold State.raiseIf
  split
  · exact hπ.raise s n
  · rfl

theorem takeCells (s : State) (n : Nat) : π (s.takeCells n) = π s := by
  unfold State.takeCells State.poolMark
  dsimp only
  rw [hπ.raiseIf, hπ.onSw, hπ.onSw]

theorem refused (s : State) (q cause : Nat) (multi : Bool) : π (s.refused q cause multi) = π s := by
  unfold State.refused
  dsimp only
  rw [hπ.raiseIf]
  refine ite_keeps π ?_ ?_
  · rw [State.countP, hπ.count, State.lastDrop, hπ.wr, hπ.countQ]
  · rw [State.lastDrop, hπ.wr, hπ.countQ]

theorem fateSources (s : State) (q : Nat) (f : Fate) : π (s.fateSources q f) = π s := by
  unfold State.fateSources
  dsimp only
  split
  · rw [hπ.raiseIf, hπ.raiseIf, hπ.raiseIf]
  · rw [hπ.raiseIf, hπ.raiseIf]

theorem enqueue (s : State) (f : Frm) (dests : List (Nat × Bool)) (multi : Bool) (hin : f.ingress < 32) : π (s.enqueue f dests multi) = π s := by
  have hFates : ∀ qs : List (Nat × Bool × Fate), π (qs.foldl (fun u x => match x.2.2 with
      | .refuse c => u.refused x.1 c multi
      | _ => u) (qs.foldl (fun u x => u.fateSources x.1 x.2.2) s)) = π s := fun qs => by
    rw [foldl_keeps π _ qs _ fun t b => by
      split
      · exact hπ.refused t _ _ _
      · rfl]
    exact foldl_keeps π _ qs s fun t b => hπ.fateSources t _ _
  unfold State.enqueue
  dsimp only
  split
  · exact hFates _
  · refine (foldl_keeps π _ _ _ fun u _ => hπ.perf u _ (by omega)).trans ?_
    refine (foldl_keeps π _ _ _ fun u x => (hπ.onSw _ _).trans (hπ.onSw u _)).trans ?_
    refine (foldl_keeps π _ _ _ fun u x => (hπ.wr _ _ _).trans (hπ.onSw u _)).trans ?_
    rw [hπ.onSw, State.setFrame, hπ.onSw, hπ.takeCells]
    exact hFates _

theorem mgtSend (s : State) (e : Nat) (vid : Option Nat) (untag : Bool) (job : PtpJob) (b : List Byte) :
    π (s.mgtSend e vid untag job b) = π s := by
  unfold State.mgtSend
  rw [hπ.enqueue _ _ _ _ (show (28 : Nat) < 32 by decide), State.countRxType, State.countP, hπ.count, State.countRx, hπ.perf _ _ (by decide), State.countP, hπ.count]

end OffPaths

/-! A port's time state changed twice. -/

theorem Tab.put_put {α : Type} (t : Tab α) (k : Nat) (v w : α) : Tab.put (Tab.put t k v) k w = Tab.put t k w := by
  induction t with
  | nil => simp [Tab.put]
  | cons x t ih =>
    obtain ⟨j, y⟩ := x
    simp only [Tab.put]
    split
    · simp [Tab.put]
    · split
      · simp [Tab.put]
      · next hlt heq => simp only [Tab.put, if_neg hlt, if_neg heq, ih]

theorem Tab.set_set {α : Type} [DecidableEq α] (d : Nat → α) (t : Tab α) (k : Nat) {v w : α} (hv : v ≠ d k) (hw : w ≠ d k) :
    Tab.set d (Tab.set d t k v) k w = Tab.set d t k w := by
  rw [Tab.set, Tab.set, Tab.set, if_neg hw, if_neg hv, if_neg hw, Tab.put_put]

variable {s : State} {p : Nat}

theorem onPtm_congr {f g : PortTime → PortTime} (h : f (s.ptm p) = g (s.ptm p)) : s.onPtm p f = s.onPtm p g := by
  rw [State.onPtm, h, State.onPtm]

theorem onPtm_onPtm (s : State) (p : Nat) {f g : PortTime → PortTime} (hf : f (s.ptm p) ≠ {}) (hg : g (f (s.ptm p)) ≠ {}) :
    (s.onPtm p f).onPtm p g = s.onPtm p fun x => g (f x) := by
  have hTab : Tab.set (fun _ => {}) (Tab.set (fun _ => {}) s.ptime p (f (s.ptm p))) p (g (f (s.ptm p))) =
      Tab.set (fun _ => {}) s.ptime p (g (f (s.ptm p))) := Tab.set_set _ _ _ hf hg
  have hRead : (s.onPtm p f).ptm p = f (s.ptm p) := State.ptm_onPtm_self s p f
  rw [State.onPtm, hRead, State.onPtm, State.onPtm, hTab]

/-- A message of the module's own counts at its port. -/
theorem ptpSend_ptm (s : State) (p : Nat) (job : PtpJob) (m : PtpOut) :
    (s.ptpSend p job m).ptm p = { s.ptm p with txCount := (s.ptm p).txCount + 1 } := by
  rw [State.ptpSend, ptm_of_ptime (offPaths_ptime.mgtSend _ _ _ _ _ _), State.ptm_onPtm_self]

/-! PTP_MESSAGE_RECEIVE (R228 to R230). -/

/-- A received message counted at its port. -/
def State.ptpCounted (s : State) (p : Nat) : State := s.onPtm p fun y => { y with rxCount := y.rxCount + 1 }

/-- A received message with its instant at the reference plane. -/
def State.atPlane (s : State) (p : Nat) (msg : PtpMsg) : PtpMsg := { msg with stamp := stamp256 (s.rxPlane p { at_ := msg.stamp }) }

theorem ptpCounted_ptm (s : State) (p : Nat) : (s.ptpCounted p).ptm p = { s.ptm p with rxCount := (s.ptm p).rxCount + 1 } :=
  State.ptm_onPtm_self s p _

theorem ptpCounted_now (s : State) (p : Nat) : (s.ptpCounted p).now = s.now := (rfl)
theorem ptpCounted_eui (s : State) (p : Nat) : (s.ptpCounted p).eui = s.eui := (rfl)

theorem ptpCounted_ptpDoms (s : State) (p num : Nat) : (s.ptpCounted p).ptpDoms p num = s.ptpDoms p num := by
  have hNames : ∀ d, (s.ptpCounted p).ptpNames p d = s.ptpNames p d := fun d => by
    rw [State.ptpNames, ptpCounted_ptm, State.ptpNames]
  unfold State.ptpDoms
  simp only [hNames]
  rfl

theorem exec_ptpMessageReceive {msg : PtpMsg} (hup : s.life = .up) (hp : p < 28) (hon : s.ptpOn p = true) :
    exec (.ptpMessageReceive p msg) s = .next ((s.ptpCounted p).ptpTake p (s.atPlane p msg)) :=
  (onUnit_event hp hup _).trans (congrArg _ (if_pos hon))

theorem ptpTake_management (s : State) (p : Nat) {m : PtpMsg} (hk : m.kind = .management) : s.ptpTake p m = s.count Reg.tsuPtpDiscard 143 := by
  unfold State.ptpTake
  rw [hk]

theorem ptpTake_announce (s : State) (p : Nat) {m : PtpMsg} (hk : m.kind = .announce) : s.ptpTake p m = s.ptpAnnounce p m := by
  unfold State.ptpTake
  rw [hk]

/-- A two-step Sync of a port that follows waits for its Follow_Up. -/
theorem ptpTake_sync {m : PtpMsg} (hk : m.kind = .sync) (htwo : m.twoStep = true) (hfol : (s.ptm p).ptp.follows = true)
    (htake : (s.ptm p).takes = true) : s.ptpTake p m = s.onPtm p fun y => { y with sync := some (m.seq, m.stamp, m.corr) } := by
  unfold State.ptpTake
  rw [hk]
  dsimp only
  rw [hfol, htake, htwo]
  rfl

/-- A Delay_Req of a domain that the port names is answered by a master under profile 1. -/
theorem ptpTake_delayReq {m : PtpMsg} {d : Nat} {ds : List Nat} (hk : m.kind = .delayReq) (hdoms : s.ptpDoms p m.domain = d :: ds)
    (hprof : (s.ptm p).profile = 1) (hmas : (s.ptm p).ptp = .master) : s.ptpTake p m = s.delayAnswer p d m := by
  unfold State.ptpTake
  rw [hk, hdoms]
  exact if_pos ⟨hprof, hmas⟩

section
variable {m : PtpMsg} (hfw : s.fwOn = true) (hdoms : s.ptpDoms p m.domain ≠ []) (hown : m.parent / 65536 ≠ s.eui)
  (htake : (s.ptm p).takes = true) (hpath : (s.ptm p).profile = 3 → s.eui ∉ m.path)
include hfw hdoms hown htake hpath

/-- An Announce that a port takes part in is held, whatever domains follow it. -/
theorem ptpAnnounce_ptm : (s.ptpAnnounce p m).ptm p = { s.ptm p with announce := some (m, s.now) } := by
  have hPath : (decide ((s.ptm p).profile = 3) && m.path.contains s.eui) = false := by
    rw [Bool.and_eq_false_iff]
    by_cases h3 : (s.ptm p).profile = 3
    · exact .inr (by simpa using hpath h3)
    · exact .inl (decide_eq_false h3)
  have hDoms : (s.ptpDoms p m.domain).isEmpty = false := by simpa using hdoms
  unfold State.ptpAnnounce
  simp only [hfw, hDoms, decide_eq_false hown, htake, hPath, Bool.not_true, Bool.or_self, Bool.false_eq_true, if_false]
  rw [ptm_of_ptime (foldl_keeps State.ptime _ _ _ fun t d => ?_), State.ptm_onPtm_self]
  split
  · exact follow_ptime t d _
  · rfl

end

theorem onPtm_rxCount_ne (x : PortTime) : ({ x with rxCount := x.rxCount + 1 } : PortTime) ≠ {} := fun h =>
  Nat.succ_ne_zero x.rxCount (congrArg PortTime.rxCount h)

section
variable {msg : PtpMsg} (hup : s.life = .up) (hp : p < 28) (hon : s.ptpOn p = true)
include hup hp hon

theorem exec_ptp_management (hk : msg.kind = .management) : exec (.ptpMessageReceive p msg) s =
    .next ((s.onPtm p fun y => { y with rxCount := y.rxCount + 1 }).count Reg.tsuPtpDiscard 143) := by
  rw [exec_ptpMessageReceive hup hp hon, ptpTake_management (m := s.atPlane p msg) _ p hk]
  rfl

theorem exec_ptp_sync (hk : msg.kind = .sync) (htwo : msg.twoStep = true) (hfol : (s.ptm p).ptp.follows = true) (htake : (s.ptm p).takes = true) :
    exec (.ptpMessageReceive p msg) s = .next (s.onPtm p fun y =>
      { y with rxCount := y.rxCount + 1, sync := some (msg.seq, stamp256 (s.rxPlane p { at_ := msg.stamp }), msg.corr) }) := by
  have hFol : ((s.ptpCounted p).ptm p).ptp.follows = true := by rw [ptpCounted_ptm]; exact hfol
  have hTake : ((s.ptpCounted p).ptm p).takes = true := by rw [ptpCounted_ptm]; exact htake
  rw [exec_ptpMessageReceive hup hp hon, ptpTake_sync (m := s.atPlane p msg) hk htwo hFol hTake, State.ptpCounted,
    onPtm_onPtm s p (onPtm_rxCount_ne _) fun h => Nat.succ_ne_zero _ (congrArg PortTime.rxCount h)]
  rfl

theorem exec_ptp_announce (hk : msg.kind = .announce) (hfw : s.fwOn = true) (hdoms : s.ptpDoms p msg.domain ≠ [])
    (hown : msg.parent / 65536 ≠ s.eui) (htake : (s.ptm p).takes = true) (hpath : (s.ptm p).profile = 3 → s.eui ∉ msg.path) :
    ∃ t, exec (.ptpMessageReceive p msg) s = .next t ∧ (t.ptm p).rxCount = (s.ptm p).rxCount + 1 ∧
      (t.ptm p).announce = some ({ msg with stamp := stamp256 (s.rxPlane p { at_ := msg.stamp }) }, s.now) := by
  have hTake : ((s.ptpCounted p).ptm p).takes = true := by rw [ptpCounted_ptm]; exact htake
  have hPath : ((s.ptpCounted p).ptm p).profile = 3 → (s.ptpCounted p).eui ∉ (s.atPlane p msg).path := by
    rw [ptpCounted_ptm, ptpCounted_eui]; exact hpath
  have hDoms : (s.ptpCounted p).ptpDoms p (s.atPlane p msg).domain ≠ [] := by rw [ptpCounted_ptpDoms]; exact hdoms
  have hHeld : ((s.ptpCounted p).ptpAnnounce p (s.atPlane p msg)).ptm p = _ :=
    ptpAnnounce_ptm (s := s.ptpCounted p) (m := s.atPlane p msg) hfw hDoms hown hTake hPath
  refine ⟨_, exec_ptpMessageReceive hup hp hon, ?_⟩
  rw [ptpTake_announce (m := s.atPlane p msg) _ p hk, hHeld, ptpCounted_ptm, ptpCounted_now]
  exact ⟨rfl, rfl⟩

theorem exec_ptp_delayReq {d : Nat} {ds : List Nat} (hk : msg.kind = .delayReq) (hdoms : s.ptpDoms p msg.domain = d :: ds)
    (hprof : (s.ptm p).profile = 1) (hmas : (s.ptm p).ptp = .master) :
    ∃ t, exec (.ptpMessageReceive p msg) s = .next t ∧ (t.ptm p).rxCount = (s.ptm p).rxCount + 1 ∧ (t.ptm p).txCount = (s.ptm p).txCount + 1 := by
  have hDoms : (s.ptpCounted p).ptpDoms p (s.atPlane p msg).domain = d :: ds := by rw [ptpCounted_ptpDoms]; exact hdoms
  have hProf : ((s.ptpCounted p).ptm p).profile = 1 := by rw [ptpCounted_ptm]; exact hprof
  have hMas : ((s.ptpCounted p).ptm p).ptp = .master := by rw [ptpCounted_ptm]; exact hmas
  refine ⟨_, exec_ptpMessageReceive hup hp hon, ?_⟩
  rw [ptpTake_delayReq (m := s.atPlane p msg) hk hDoms hProf hMas, State.delayAnswer, ptpSend_ptm, ptpCounted_ptm]
  exact ⟨rfl, rfl⟩

/-! PTP_INTERVAL_SEND (R229). -/

theorem exec_ptpIntervalSend {d : Nat} (kind : PtpKind) (hd : d < 2) (hname : s.ptpNames p d = true) :
    exec (.ptpIntervalSend p kind d) s = .next (match kind with
      | .sync => s.sendSync p d
      | .followUp => s.sendFollowUp p d
      | .delayReq => s.sendDelayReq p d
      | .pdelayReq => s.sendPdelayReq p d
      | .pdelayRespFollowUp => s.sendPdelayFollowUp p d
      | .delayResp | .pdelayResp | .announce | .management | .other => s) := by
  refine (onUnit_of_lt hp _).trans (congrArg _ ((onUnitS_of_lt hd _ _).trans ((event_of_up hup _).trans (if_pos ?_))))
  rw [hon, hname]
  rfl

end

theorem sendSync_due {d : Nat} (hmas : (s.ptm p).ptp = .master) (htime : s.hasTime d = true) (htake : (s.ptm p).takes = true)
    (hdue : intervalDue (s.ptm p).syncAt d s.now (logTicks (s.ptm p).logSync) = true) : s.sendSync p d =
      ((s.takeSeq p .sync d).onPtm p fun y => { y with syncAt := noteSent y.syncAt d s.now }).ptpSend p (.sync d ((s.ptm p).nextSeq .sync d))
        { kind := .sync, num := s.fld (Reg.tsuDom d) 8 8, seq := (s.ptm p).nextSeq .sync d, two := !(s.ptm p).oneStep,
          log := (s.ptm p).logSync, body := beBytes 10 0 } := if_pos ⟨hmas, htime, htake, hdue⟩

theorem sendFollowUp_next {d q st : Nat} {rest : List (Nat × Nat × Nat)} (hfu : (s.ptm p).fuSync = (d, q, st) :: rest) : s.sendFollowUp p d =
      (s.onPtm p fun y => { y with fuSync := rest }).ptpSend p .none
        { kind := .followUp, num := s.fld (Reg.tsuDom d) 8 8, seq := q, corr := ptpFrac ((s.dm d).at st), log := (s.ptm p).logSync,
          body := ptpStamp ((s.dm d).at st) ++ (if (s.ptm p).profile = 3 then followUpTlv else []) } := by
  have hFind : (s.ptm p).fuSync.find? (fun w => decide (w.1 = d)) = some (d, q, st) := by
    rw [hfu]
    exact List.find?_cons_of_pos (decide_eq_true rfl)
  have hRest : (s.onPtm p fun y => { y with fuSync := y.fuSync.erase (d, q, st) }) = s.onPtm p fun y => { y with fuSync := rest } :=
    onPtm_congr (by rw [hfu, List.erase_cons_head])
  unfold State.sendFollowUp
  dsimp only
  rw [hFind]
  dsimp only
  rw [hRest]

theorem sendDelayReq_ptm {d : Nat} (hprof : (s.ptm p).profile = 1) (hfol : (s.ptm p).ptp.follows = true) (hupst : s.ptpUp p d = true)
    (hdue : ∀ r, (s.ptm p).reqTxAt = some r → r + logTicks (s.ptm p).logDelay ≤ s.now) :
    ((s.sendDelayReq p d).ptm p).txCount = (s.ptm p).txCount + 1 ∧ ((s.sendDelayReq p d).ptm p).reqTxAt = some s.now := by
  have hDue := due_of (q := fun r => decide (r + logTicks (s.ptm p).logDelay ≤ s.now)) fun r hr => decide_eq_true (hdue r hr)
  have hSend : s.sendDelayReq p d = _ := if_pos ⟨hprof, hfol, hupst, hDue⟩
  rw [hSend, ptpSend_ptm, State.ptm_onPtm_self, State.takeSeq, State.ptm_onPtm_self]
  exact ⟨rfl, rfl⟩

theorem sendPdelayReq_ptm (d : Nat) (hprof : (s.ptm p).profile = 2 ∨ (s.ptm p).profile = 3)
    (hdue : ∀ r, (s.ptm p).reqTxAt = some r → r + logTicks (s.ptm p).logDelay ≤ s.now) :
    ((s.sendPdelayReq p d).ptm p).txCount = (s.ptm p).txCount + 1 ∧ ((s.sendPdelayReq p d).ptm p).reqTxAt = some s.now ∧
      ((s.sendPdelayReq p d).ptm p).unans = (s.ptm p).unans + 1 := by
  have hDue := due_of (q := fun r => decide (r + logTicks (s.ptm p).logDelay ≤ s.now)) fun r hr => decide_eq_true (hdue r hr)
  have hSend : s.sendPdelayReq p d = _ := if_pos ⟨hprof, hDue⟩
  rw [hSend, ptpSend_ptm, State.ptm_onPtm_self, State.takeSeq, State.ptm_onPtm_self]
  exact ⟨rfl, rfl, rfl⟩

/-! PTP_ANNOUNCE_SEND, ANNOUNCE_RECEIPT_TIMEOUT (R229, R237). -/

theorem exec_ptpAnnounceSend {d : Nat} (hp : p < 28) (hd : d < 2) (hfw : s.fwOn = true) (hon : s.ptpOn p = true) (htgt : s.ptpTarget p = .master)
    (hmas : (s.ptm p).ptp = .master) (hname : s.ptpNames p d = true) (htime : s.hasTime d = true) (htake : (s.ptm p).takes = true)
    (hdue : intervalDue (s.ptm p).annAt d s.now (logTicks (s.ptm p).logAnnounce) = true) :
    exec (.ptpAnnounceSend p d) s = .next (((s.takeSeq p .announce d).onPtm p fun y =>
      { y with annAt := noteSent y.annAt d s.now }).ptpSend p .none (s.announceOf p d)) := by
  have hStays : s.ptpDecide p = s := if_pos (htgt.trans hmas.symm)
  refine (onUnit_of_lt hp _).trans (congrArg _ ((onUnitS_of_lt hd _ _).trans ?_))
  rw [hfw, hon, hStays]
  dsimp only
  rw [if_neg (by decide)]
  exact if_pos ⟨hmas, hname, htime, htake, hdue⟩

theorem exec_announceReceiptTimeout {m : PtpMsg} {r : Nat} (hp : p < 28) (hfw : s.fwOn = true) (hann : (s.ptm p).announce = some (m, r))
    (hlate : r + (s.ptm p).announceTmo * logTicks (s.ptm p).logAnnounce ≤ s.now) : exec (.announceReceiptTimeout p) s =
      .next ((((s.onPtm p fun y => { y with announce := none }).raiseAt 142 0 p).dropUpstream p).ptpDecide p) := by
  refine (onUnit_of_lt hp _).trans (congrArg _ ?_)
  dsimp only
  rw [hfw, hann]
  exact if_pos hlate

end Sys2Proof.Machine

open Sys2Proof Sys2Proof.Machine

/-- Settles O29: each event by its own equation, and what the state it leaves reads back. -/
theorem ptpCompletes : Obligations.PtpCompletes := by
  refine fun s p hup hp => ⟨?_, ?_, ?_, ?_⟩
  · exact fun msg hon => ⟨exec_ptp_management hup hp hon, exec_ptp_announce hup hp hon, exec_ptp_sync hup hp hon,
      fun d ds => exec_ptp_delayReq hup hp hon⟩
  · refine fun d hd hon hname => ⟨?_, ?_, ?_, ?_⟩
    · exact fun hmas htime htake hdue =>
        (exec_ptpIntervalSend hup hp hon .sync hd hname).trans (congrArg _ (sendSync_due hmas htime htake hdue))
    · exact fun q st rest hfu => (exec_ptpIntervalSend hup hp hon .followUp hd hname).trans (congrArg _ (sendFollowUp_next hfu))
    · exact fun hprof hfol hupst hdue =>
        ⟨_, exec_ptpIntervalSend hup hp hon .delayReq hd hname, sendDelayReq_ptm hprof hfol hupst hdue⟩
    · exact fun hprof hdue => ⟨_, exec_ptpIntervalSend hup hp hon .pdelayReq hd hname, sendPdelayReq_ptm d hprof hdue⟩
  · exact fun d hd hfw hon htgt hmas hname htime htake hdue => exec_ptpAnnounceSend hp hd hfw hon htgt hmas hname htime htake hdue
  · exact fun m r hfw hann hlate => exec_announceReceiptTimeout hp hfw hann hlate

end

section
/-! R210, R212, R216 to R218, R224: rebases, measurements, the switch of domains and the slew. -/

namespace Sys2Proof.Machine

variable {s : State} {d : Nat}

/-! A rebase (R210). -/

theorem rebase_spec (x : DomSt) (r : Nat) {rate : Int} (hlo : -2147483648 ≤ rate) (hhi : rate ≤ 2147483647) :
    (x.rebase r rate).at r = x.at r ∧ (x.rebase r rate).rate = rate ∧ (x.rebase r rate).rawBase = r := by
  refine ⟨?_, ?_, rfl⟩
  · unfold DomSt.rebase
    rw [DomSt.at]
    simp
  · unfold DomSt.rebase
    dsimp only
    omega

/-! A domain's state and terms after a change of state (R216, R217). -/

theorem tsuDom_not_countReg (hd : d < 2) : ¬ CountReg (Reg.tsuDom d) := by
  rintro (he | hp)
  · exact not_evtReg_of_le (by unfold Reg.tsuDom; omega) he
  · rcases hp with ⟨m, -, h | h⟩ | h | h | h | h <;>
      simp only [Reg.tsuDom, Reg.pmcSel, Reg.pmuOvf, Reg.pmuSmpStat, Reg.pmuSmpRawLo, Reg.pmuSmpRawHi, Reg.pmuSmpPc] at h <;> omega

theorem tsuDom_not_evtReg (hd : d < 2) : ¬ EvtReg (Reg.tsuDom d) := fun h => tsuDom_not_countReg hd (.inl h)

theorem domState_of_rd {s t : State} (h : t.rd (Reg.tsuDom d) = s.rd (Reg.tsuDom d)) : t.domState d = s.domState d := by
  rw [State.domState, State.fld, h, State.domState, State.fld]

theorem setHold_domState (hd : d < 2) (on : Bool) : (s.setHold d on).domState d = s.domState d := by
  have hRaised : ((s.setFld (Reg.tsuDom d) 2 1 (b2n on)).raise (133 + d)).domState d = s.domState d := by
    rw [State.domState, (raise_noted _ (by omega)).fld (tsuDom_not_evtReg hd), fld_setFld_of_disjoint _ _ _ (by decide) (by decide), State.domState]
  have hGen : Reg.tsuDom d ≠ Reg.tsuGen d := by simp [Reg.tsuDom, Reg.tsuGen]
  unfold State.setHold
  split
  · rfl
  · refine ite_keeps (State.domState · d) ?_ hRaised
    refine (domState_of_rd ?_).trans hRaised
    rw [State.rd_setFld, if_neg hGen, State.rd_onDm]

theorem armCause_dm (e : Nat) : s.armCause.dm e = s.dm e := by
  unfold State.armCause
  split <;> rfl

theorem setHold_off_dm (hd : d < 2) (e : Nat) : (s.setHold d false).dm e = s.dm e := by
  unfold State.setHold
  split
  · rfl
  · exact (raise_noted _ (by omega)).dm e

theorem setDomState_domState (hd : d < 2) {n : Nat} (hn : n < 4) : (s.setDomState d n).domState d = n := by
  have hRaised : (((s.setFld (Reg.tsuDom d) 0 2 n).stick (Reg.tsuDom d) 27).raise (128 + d)).domState d = n := by
    rw [State.domState, (raise_noted _ (by omega)).fld (tsuDom_not_evtReg hd), fld_stick_of_outside _ _ (by decide),
      fld_setFld_self _ _ _ (by decide)]
    exact Nat.mod_eq_of_lt hn
  unfold State.setDomState
  split
  · assumption
  · dsimp only
    rw [domState_of_rd (State.rd_onDm _ _ _ _)]
    have hHold : ∀ c : Prop, [Decidable c] → (if c then (((s.setFld (Reg.tsuDom d) 0 2 n).stick (Reg.tsuDom d) 27).raise (128 + d)).setHold d false
        else ((s.setFld (Reg.tsuDom d) 0 2 n).stick (Reg.tsuDom d) 27).raise (128 + d)).domState d = n := fun c _ => by
      split
      · rw [setHold_domState hd, hRaised]
      · exact hRaised
    split
    · rw [domState_of_rd rd_armCause]
      exact hHold _
    · exact hHold _

/-- A change of state leaves the terms that give a domain's time. -/
theorem setDomState_at (hd : d < 2) (n : Nat) (r : Int) : ((s.setDomState d n).dm d).at r = (s.dm d).at r := by
  have hRaised : (((s.setFld (Reg.tsuDom d) 0 2 n).stick (Reg.tsuDom d) 27).raise (128 + d)).dm d = s.dm d := (raise_noted _ (by omega)).dm d
  unfold State.setDomState
  split
  · rfl
  · dsimp only
    rw [State.dm_onDm_self]
    have hHold : ∀ c : Prop, [Decidable c] → (if c then (((s.setFld (Reg.tsuDom d) 0 2 n).stick (Reg.tsuDom d) 27).raise (128 + d)).setHold d false
        else ((s.setFld (Reg.tsuDom d) 0 2 n).stick (Reg.tsuDom d) 27).raise (128 + d)).dm d = s.dm d := fun c _ => by
      split
      · rw [setHold_off_dm hd, hRaised]
      · exact hRaised
    split
    · rw [armCause_dm, hHold]
      rfl
    · rw [hHold]
      rfl

/-! One measurement (R212, R216 to R218). -/

theorem wrOffset_domState (w : Word) : (s.wr (Reg.tsuOffset d) w).domState d = s.domState d :=
  domState_of_rd (by rw [State.rd_wr, if_neg (by simp [Reg.tsuDom, Reg.tsuOffset])])

/-- The single step on entry to FIRST_LOCK: the domain's time is the upstream's. -/
theorem firstLock_reads (hd : d < 2) (up : Int) (r : Nat) (rate : Int) :
    (s.firstLock d up r rate).domState d = 1 ∧ ((s.firstLock d up r rate).dm d).at r = up := by
  unfold State.firstLock
  dsimp only
  refine ⟨setDomState_domState hd (by decide), ?_⟩
  rw [setDomState_at hd, State.dm_onDm_self, DomSt.at]
  simp

section
variable {theta up : Int} {r tn td : Nat} (hst : s.domState d = 0)
include hst

theorem measure_of_unlocked : s.measure d theta up r tn td =
    if agreeing ((theta :: (s.dm d).agree).take 4) && (s.wr (Reg.tsuOffset d) (sat32 (toPs theta))).ovenReady then
      ((s.wr (Reg.tsuOffset d) (sat32 (toPs theta))).onDm d fun y =>
        { y with agree := (theta :: (s.dm d).agree).take 4, marks := ((up, r) :: (s.dm d).marks).take 4 }).firstLock d up r
          (slopeOf (((up, r) :: (s.dm d).marks).take 4))
    else (s.wr (Reg.tsuOffset d) (sat32 (toPs theta))).onDm d fun y =>
      { y with agree := (theta :: (s.dm d).agree).take 4, marks := ((up, r) :: (s.dm d).marks).take 4 } := by
  have hSt : (s.wr (Reg.tsuOffset d) (sat32 (toPs theta))).domState d = 0 := by rw [wrOffset_domState, hst]
  unfold State.measure
  dsimp only
  rw [hSt]
  rfl

/-- Four offsets that agree, with the oven ready, bring FIRST_LOCK with its step. -/
theorem measure_locks (hd : d < 2) (hoven : s.bitAt Reg.clkOven 0 = true) (hagree : agreeing ((theta :: (s.dm d).agree).take 4) = true) :
    (s.measure d theta up r tn td).domState d = 1 ∧ ((s.measure d theta up r tn td).dm d).at r = up := by
  have hOven : (s.wr (Reg.tsuOffset d) (sat32 (toPs theta))).ovenReady = true := by
    rw [State.ovenReady, State.bitAt, State.rd_wr, if_neg (by unfold Reg.tsuOffset Reg.clkOven; omega)]
    exact hoven
  rw [measure_of_unlocked hst, hagree, hOven]
  exact firstLock_reads hd up r _

theorem measure_stays_unlocked (hagree : agreeing ((theta :: (s.dm d).agree).take 4) = false) :
    (s.measure d theta up r tn td).domState d = 0 := by
  rw [measure_of_unlocked hst, hagree]
  exact (wrOffset_domState _).trans hst

end

/-- The state that the servo leaves before it judges the lock (R212): the terms rebased, `n` measurements in the window. -/
def State.servoed (s : State) (d n : Nat) (freq rate : Int) : State :=
  ((s.onDm d fun y => { y with freq := freq }).rebase d rate).onDm d fun y => { y with inLock := n }

theorem servoed_domState (hd : d < 2) (n : Nat) (freq rate : Int) : (s.servoed d n freq rate).domState d = s.domState d := by
  have hGen : Reg.tsuDom d ≠ Reg.tsuGen d := by simp [Reg.tsuDom, Reg.tsuGen]
  refine domState_of_rd ?_
  unfold State.servoed State.rebase
  rw [State.rd_onDm, perf_rd _ (by omega) (tsuDom_not_countReg hd), State.rd_setFld, if_neg hGen, State.rd_onDm, State.rd_onDm]

/-- Measurements in the window one after the other, the present one counted (R216). -/
def State.lockRun (s : State) (d : Nat) (theta : Int) : Nat :=
  if theta.natAbs ≤ s.fld (Reg.tsuLockcfg d) 0 10 * 2 ^ 32 then (s.dm d).inLock + 1 else 0

/-- In FIRST_LOCK a measurement steers the domain and locks it where sixteen lie in the window. -/
theorem measure_of_firstLock (hd : d < 2) {theta up : Int} {r tn td : Nat} (hst : s.domState d = 1) :
    ∃ (v : State) (freq rate : Int), v.domState d = 1 ∧ s.measure d theta up r tn td =
      if 16 ≤ s.lockRun d theta then (v.servoed d (s.lockRun d theta) freq rate).setDomState d 2
      else v.servoed d (s.lockRun d theta) freq rate := by
  have hSt : (s.wr (Reg.tsuOffset d) (sat32 (toPs theta))).domState d = 1 := by rw [wrOffset_domState, hst]
  have hCfg : ((s.wr (Reg.tsuOffset d) (sat32 (toPs theta))).setHold d false).fld (Reg.tsuLockcfg d) 0 10 = s.fld (Reg.tsuLockcfg d) 0 10 := by
    rw [State.fld, rd_setHold hd false (by simp [Reg.tsuLockcfg, Reg.tsuDom]) (by simp [Reg.tsuLockcfg, Reg.tsuGen])
      (not_evtReg_of_le (by unfold Reg.tsuLockcfg; omega)), State.rd_wr, if_neg (by simp [Reg.tsuLockcfg, Reg.tsuOffset]), State.fld]
  have hWindow : (if decide (theta.natAbs ≤ ((s.wr (Reg.tsuOffset d) (sat32 (toPs theta))).setHold d false).fld (Reg.tsuLockcfg d) 0 10 * 2 ^ 32) = true
      then ((s.wr (Reg.tsuOffset d) (sat32 (toPs theta))).dm d).inLock + 1 else 0) = s.lockRun d theta := by
    rw [hCfg, State.lockRun]
    simp only [decide_eq_true_eq]
    rfl
  have hHeld : ((s.wr (Reg.tsuOffset d) (sat32 (toPs theta))).setHold d false).domState d = 1 := (setHold_domState hd false).trans hSt
  unfold State.measure
  dsimp only
  rw [hSt, hWindow]
  simp only [OfNat.one_ne_ofNat, false_and, if_false, true_and]
  exact ⟨_, _, _, hHeld, rfl⟩

theorem measure_keeps_firstLock (hd : d < 2) {theta up : Int} {r tn td : Nat} (hst : s.domState d = 1) (hfew : (s.dm d).inLock < 15) :
    (s.measure d theta up r tn td).domState d = 1 := by
  obtain ⟨v, freq, rate, hv, heq⟩ := measure_of_firstLock (theta := theta) (up := up) (r := r) (tn := tn) (td := td) hd hst
  have hFew : ¬ 16 ≤ s.lockRun d theta := by
    unfold State.lockRun
    split <;> omega
  rw [heq, if_neg hFew, servoed_domState hd, hv]

theorem measure_enters_locked (hd : d < 2) {theta up : Int} {r tn td : Nat} (hst : s.domState d = 1) (hmany : 15 ≤ (s.dm d).inLock)
    (hnear : theta.natAbs ≤ s.fld (Reg.tsuLockcfg d) 0 10 * 2 ^ 32) : (s.measure d theta up r tn td).domState d = 2 := by
  obtain ⟨v, freq, rate, -, heq⟩ := measure_of_firstLock (theta := theta) (up := up) (r := r) (tn := tn) (td := td) hd hst
  have hMany : 16 ≤ s.lockRun d theta := by
    rw [State.lockRun, if_pos hnear]
    omega
  rw [heq, if_pos hMany, setDomState_domState hd (by decide)]

/-! The switch (R224): the bridge takes up the difference of the domains, but for the digits it does not hold. -/

/-- The time state of a switch to domain `d`. -/
theorem switch_active (t : Tim) (now : Nat) (hd : d < 2) (b step : Int) (slews : Bool) : (t.switch now d b step slews).active = d := by
  unfold Tim.switch Tim.active
  dsimp only
  by_cases h1 : d = 1
  · simp [h1]
  · simp [h1]
    omega

theorem b16_neg_mul (q : Int) (t : Tim) (h : t.bridge = -q * 9765625) : t.b16 = -q := by
  rw [Tim.b16, h, Int.mul_tdiv_cancel _ (by decide)]

theorem switchTo_made {t : State} {force : Bool} (hact : s.domState s.tim.active ≠ 0) (hto : s.switchTo d force = some t) :
    t.tim = s.tim.switch s.now d (-(((s.dm d).at (s.now * 256 : Nat) - s.outAt (s.now * 256 : Nat)) / 2 ^ 16) * 9765625) s.slewStep true := by
  unfold State.switchTo at hto
  rw [if_neg hact] at hto
  split at hto
  · cases hto
  · dsimp only at hto
    split at hto
    · cases hto
    · cases hto
      exact (stickState_raise _ (by decide) (by decide)).1

theorem switchTo_output {t : State} {force : Bool} (hd : d < 2) (hact : s.domState s.tim.active ≠ 0) (hto : s.switchTo d force = some t) :
    t.outAt (s.now * 256 : Nat) - s.outAt (s.now * 256 : Nat) =
      ((s.dm d).at (s.now * 256 : Nat) - s.outAt (s.now * 256 : Nat)) % 2 ^ 16 := by
  have hTim := switchTo_made hact hto
  have hDm : t.dm d = s.dm d := by
    rw [State.dm, hTim]
    rfl
  have hOut : t.outAt (s.now * 256 : Nat) = (s.dm d).at (s.now * 256 : Nat)
      + -(((s.dm d).at (s.now * 256 : Nat) - s.outAt (s.now * 256 : Nat)) / 2 ^ 16) * 2 ^ 16 := by
    rw [State.outAt, hTim, switch_active _ _ hd, hDm, b16_neg_mul _ (s.tim.switch _ _ _ _ _) rfl]
  rw [hOut]
  omega

/-! The slew (R224). -/

theorem slewStep_pos (s : State) : 0 < s.slewStep := by
  unfold State.slewStep clamp
  omega

theorem slewTick_reads (hslew : s.tim.slewing = true) : s.slewTick.tim.bridge = bridgeFall s.tim.bridge s.slewStep 1 ∧
    (bridgeFall s.tim.bridge s.slewStep 1 = 0 → s.slewTick.tim.slewing = false) := by
  unfold State.slewTick
  rw [if_pos hslew]
  dsimp only
  split
  · have hTim : ∀ u : State, u.slewDone.tim = { u.tim with slewing := false } := fun u => (stickState_raise _ (by decide) (by decide)).1
    rw [hTim]
    exact ⟨rfl, fun _ => rfl⟩
  · next hne => exact ⟨rfl, fun hz => absurd hz hne⟩

/-- A fall by `k` comes nearer to 0 by `k`, or reaches it, on the same side. -/
theorem bridgeFall_one (b : Int) {k : Int} (hk : 0 < k) : (0 ≤ b → 0 ≤ bridgeFall b k 1) ∧ (b ≤ 0 → bridgeFall b k 1 ≤ 0) ∧
    ((bridgeFall b k 1).natAbs : Int) = max 0 ((b.natAbs : Int) - k) := by
  unfold bridgeFall
  split <;> omega

end Sys2Proof.Machine

open Sys2Proof Sys2Proof.Machine

/-- Settles O30: a rebase by its terms, a measurement by the state it finds the domain in. -/
theorem rebaseAndMeasurementAct : Obligations.RebaseAndMeasurementAct := by
  refine ⟨fun x r rate hlo hhi => rebase_spec x r hlo hhi, fun s d theta up r hd => ⟨?_, ?_, ?_, ?_⟩⟩
  · exact fun hst hoven hagree => measure_locks hst hd hoven hagree
  · exact fun hst hagree => measure_stays_unlocked hst hagree
  · exact fun hst hfew => measure_keeps_firstLock hd hst hfew
  · exact fun hst hmany hnear => measure_enters_locked hd hst hmany hnear

/-- Settles O31: the bridge at a switch takes the difference but for its remainder by 2^16; a tick of the slew by the bridge's fall. -/
theorem switchKeepsOutput : Obligations.SwitchKeepsOutput := by
  refine ⟨fun s t d force hd hact hto => ?_, fun s hslew => ?_⟩
  · have hTim := switchTo_made hact hto
    rw [switchTo_output hd hact hto]
    exact ⟨by rw [hTim, switch_active _ _ hd], by rw [hTim]; rfl, Int.emod_nonneg _ (by decide), Int.emod_lt_of_pos _ (by decide)⟩
  · obtain ⟨hBridge, hDone⟩ := slewTick_reads hslew
    obtain ⟨hPos, hNeg, hAbs⟩ := bridgeFall_one s.tim.bridge (slewStep_pos s)
    rw [hBridge]
    exact ⟨hPos, hNeg, hAbs, hDone⟩

end

section
/-! R289, the core synthesiser's unlock: the statement of O34 says that both domains are UNLOCKED after it, and it speaks of every
state. Its epoch reset cancels an armed switch, and in `strayCompletion` the deferred completion of that switch sets the state of
the active domain back to FIRST_LOCK, as it does after the epoch reset of R219. -/

namespace Sys2Proof.Machine

open Host

/-- The state of domain A that an outcome leaves. -/
def outcomeDomA (o : Outcome State Fault Refusal) : Nat :=
  match o with
  | .next t => t.domState 0
  | _ => 0

theorem coreSynthUnlock_strayCompletion_domState : outcomeDomA (exec .coreSynthUnlock strayCompletion) = 1 := by decide +kernel

end Sys2Proof.Machine

open Sys2Proof Sys2Proof.Machine

/-- Refutes O34: with a switch armed whose deferred completion belongs to a context that does not exist (`strayCompletion`), domain A
is at FIRST_LOCK after the core synthesiser's unlock and not UNLOCKED. `State.cmd` runs no command of such a context, so none defers a
completion for it; but the statement speaks of every state and does not ask that of it. -/
theorem not_clockEventsComplete : ¬ Obligations.ClockEventsComplete := by
  unfold Obligations.ClockEventsComplete
  rintro ⟨hAll, -⟩
  obtain ⟨-, -, -, -, -, -, -, -, -, -, -, -, -, -, -, -, -, -, hUnlock, -, -⟩ := hAll strayCompletion rfl
  obtain ⟨t, hExec, -, hZero, -⟩ := hUnlock
  have hOne : outcomeDomA (.next t) = 1 := by rw [← hExec, coreSynthUnlock_strayCompletion_domState]
  exact absurd (hOne.symm.trans hZero) (by decide)

end

section
/-! R269 to R294: the clock commands. -/

namespace Sys2Proof.Machine

open Host

/-! CLK_REFi_CFG stands while a reference goes, is disqualified, and while the DPLL changes what it tracks. -/

/-- An address that is no CLK_REFi_CFG's. -/
abbrev NotRefCfg (a : Nat) : Prop := a < 0x480040 ∨ a % 16 ≠ 0 ∨ 0x4800A0 ≤ a

theorem refCfg_ne {a k : Nat} (ha : NotRefCfg a) (hk : k < 6) : Reg.clkRefCfg k ≠ a := by
  unfold Reg.clkRefCfg
  rcases ha with h | h | h <;> omega

theorem notRefCfg_stat (i : Nat) : NotRefCfg (Reg.clkRefStat i) := .inr (.inl (by unfold Reg.clkRefStat; omega))
theorem notRefCfg_foff1 (i : Nat) : NotRefCfg (Reg.clkRefFoff1 i) := .inr (.inl (by unfold Reg.clkRefFoff1; omega))
theorem notRefCfg_foff64 (i : Nat) : NotRefCfg (Reg.clkRefFoff64 i) := .inr (.inl (by unfold Reg.clkRefFoff64; omega))

theorem rd_onRef (s : State) (i : Nat) (f : RefSt → RefSt) (a : Nat) : (s.onRef i f).rd a = s.rd a := rfl

section
variable (s : State) {k : Nat} (hk : k < 6)
include hk

theorem refCfg_wr {a : Nat} (v : Word) (ha : NotRefCfg a) : (s.wr a v).rd (Reg.clkRefCfg k) = s.rd (Reg.clkRefCfg k) := by
  rw [State.rd_wr, if_neg (refCfg_ne ha hk)]

theorem refCfg_setFld {a : Nat} (lo len v : Nat) (ha : NotRefCfg a) : (s.setFld a lo len v).rd (Reg.clkRefCfg k) = s.rd (Reg.clkRefCfg k) :=
  refCfg_wr s hk _ ha

theorem refCfg_stick {a : Nat} (i : Nat) (ha : NotRefCfg a) : (s.stick a i).rd (Reg.clkRefCfg k) = s.rd (Reg.clkRefCfg k) := by
  rw [State.rd_stick, if_neg (refCfg_ne ha hk)]

theorem refCfg_not_evtReg : ¬ EvtReg (Reg.clkRefCfg k) := not_evtReg_of_le (by unfold Reg.clkRefCfg; omega)

theorem refCfg_raise {n : Nat} (hn : n < 256) : (s.raise n).rd (Reg.clkRefCfg k) = s.rd (Reg.clkRefCfg k) :=
  (raise_noted s hn).rd _ (refCfg_not_evtReg hk)

theorem refCfg_count {a n : Nat} (ha : NotRefCfg a) (hn : n < 256) : (s.count a n).rd (Reg.clkRefCfg k) = s.rd (Reg.clkRefCfg k) :=
  (count_noted s a hn).rd _ fun h => h.elim (refCfg_ne ha hk) (refCfg_not_evtReg hk)

theorem refCfg_setDac (v : Int) : (s.setDac v).rd (Reg.clkRefCfg k) = s.rd (Reg.clkRefCfg k) := by
  unfold State.setDac State.raiseIf
  dsimp only
  refine ite_keeps (State.rd · _) (ite_keeps (State.rd · _) ?_ ?_) ?_
  · rw [refCfg_raise _ hk (by decide), refCfg_stick _ hk _ (by decide), refCfg_setFld _ hk _ _ _ (by decide)]
  · rw [refCfg_stick _ hk _ (by decide), refCfg_setFld _ hk _ _ _ (by decide)]
  · rw [refCfg_setFld _ hk _ _ _ (by decide)]

theorem refCfg_setDpll (n : Nat) : (s.setDpll n).rd (Reg.clkRefCfg k) = s.rd (Reg.clkRefCfg k) := by
  unfold State.setDpll
  split
  · rfl
  · rw [State.rd_onClk, refCfg_raise _ hk (by decide), refCfg_setFld _ hk _ _ _ (by decide)]

theorem refCfg_refreshHold : s.refreshHold.rd (Reg.clkRefCfg k) = s.rd (Reg.clkRefCfg k) := by
  unfold State.refreshHold
  split
  · exact refCfg_setFld s hk _ _ _ (by decide)
  · rfl

theorem refCfg_untrack : s.untrack.rd (Reg.clkRefCfg k) = s.rd (Reg.clkRefCfg k) := by
  unfold State.untrack
  rw [State.rd_onClk, refCfg_wr _ hk _ (by decide), refCfg_setFld _ hk _ _ _ (by decide), refCfg_setFld _ hk _ _ _ (by decide),
    refCfg_refreshHold s hk]

theorem refCfg_holdDac : s.holdDac.rd (Reg.clkRefCfg k) = s.rd (Reg.clkRefCfg k) := by
  unfold State.holdDac
  split
  · exact refCfg_setDac s hk _
  · rfl

theorem refCfg_enterHoldover : s.enterHoldover.rd (Reg.clkRefCfg k) = s.rd (Reg.clkRefCfg k) := by
  unfold State.enterHoldover
  split
  · exact refCfg_untrack s hk
  · rw [refCfg_setDpll _ hk, refCfg_count _ hk (by decide) (by decide), refCfg_holdDac _ hk, refCfg_untrack s hk]

theorem refCfg_enterFreerun : s.enterFreerun.rd (Reg.clkRefCfg k) = s.rd (Reg.clkRefCfg k) := by
  unfold State.enterFreerun
  rw [refCfg_setDpll _ hk, refCfg_setFld _ hk _ _ _ (by decide), refCfg_untrack s hk]

theorem refCfg_startTracking (i : Nat) (b : Int) (pass : Option Int) : (s.startTracking i b pass).rd (Reg.clkRefCfg k) = s.rd (Reg.clkRefCfg k) := by
  unfold State.startTracking
  dsimp only
  rw [refCfg_raise _ hk (by decide), refCfg_count _ hk (by decide) (by decide), refCfg_stick _ hk _ (by decide), refCfg_setDpll _ hk,
    State.rd_onClk, refCfg_setFld _ hk _ _ _ (by decide), refCfg_untrack s hk]

theorem refCfg_startSwitch (i : Nat) : (s.startSwitch i).rd (Reg.clkRefCfg k) = s.rd (Reg.clkRefCfg k) := by
  have hHeld : s.refreshHold.holdDac.rd (Reg.clkRefCfg k) = s.rd (Reg.clkRefCfg k) := by rw [refCfg_holdDac _ hk, refCfg_refreshHold s hk]
  unfold State.startSwitch
  dsimp only
  refine ite_keeps (State.rd · _) ?_ (ite_keeps (State.rd · _) ?_ (ite_keeps (State.rd · _) ?_ ?_))
  · rw [refCfg_startTracking _ hk, hHeld]
  · rw [refCfg_startTracking _ hk, hHeld]
  · rw [refCfg_setDpll _ hk, State.rd_onClk, refCfg_setFld _ hk _ _ _ (by decide), refCfg_untrack _ hk, hHeld]
  · rw [State.rd_onClk, refCfg_setFld _ hk _ _ _ (by decide), refCfg_untrack _ hk, hHeld]

theorem refCfg_applySel (changed : Bool) : (s.applySel changed).rd (Reg.clkRefCfg k) = s.rd (Reg.clkRefCfg k) := by
  have hField : ∀ v, (s.setFld Reg.clkDpllStat 6 1 v).rd (Reg.clkRefCfg k) = s.rd (Reg.clkRefCfg k) := fun v => refCfg_setFld s hk _ _ _ (by decide)
  unfold State.applySel
  split
  · exact hField 0
  · dsimp only
    refine ite_keeps (State.rd · _) (ite_keeps (State.rd · _) (hField 1) ?_) (ite_keeps (State.rd · _) ?_ (hField 1))
    · rw [refCfg_startSwitch _ hk, hField]
    · rw [refCfg_raise _ hk (by decide), refCfg_stick _ hk _ (by decide), refCfg_enterHoldover _ hk, hField]
  · rw [refCfg_enterHoldover _ hk, hField]
  · rw [refCfg_enterFreerun _ hk, hField]

theorem refCfg_disqualify (i cause : Nat) : (s.disqualify i cause).rd (Reg.clkRefCfg k) = s.rd (Reg.clkRefCfg k) := by
  unfold State.disqualify
  dsimp only
  generalize hq : (((s.stick (Reg.clkRefStat i) cause).setFld (Reg.clkRefStat i) 1 2 0).setFld (Reg.clkRefStat i) 16 16 0).onRef i
    (fun x => { x with pass := 0, dis := x.dis || s.refBit i 1 }) = q
  have hQ : q.rd (Reg.clkRefCfg k) = s.rd (Reg.clkRefCfg k) := by
    rw [← hq, rd_onRef, refCfg_setFld _ hk _ _ _ (notRefCfg_stat i), refCfg_setFld _ hk _ _ _ (notRefCfg_stat i),
      refCfg_stick _ hk _ (notRefCfg_stat i)]
  have hRaised : ∀ c : Prop, [Decidable c] → (if c then q.raise 149 else q).rd (Reg.clkRefCfg k) = s.rd (Reg.clkRefCfg k) := fun c _ =>
    ite_keeps (State.rd · _) ((refCfg_raise q hk (by decide)).trans hQ) hQ
  refine ite_keeps (State.rd · _) ?_ (hRaised _)
  split
  · exact (refCfg_applySel _ hk false).trans (hRaised _)
  · rw [refCfg_holdDac _ hk, refCfg_untrack _ hk]
    exact hRaised _

theorem refCfg_refAbsent (i : Nat) : (s.refAbsent i).rd (Reg.clkRefCfg k) = s.rd (Reg.clkRefCfg k) := by
  unfold State.refAbsent
  split
  · rfl
  · dsimp only
    have hGone : ∀ t : State, t.rd (Reg.clkRefCfg k) = s.rd (Reg.clkRefCfg k) → (t.disqualify i 8).rd (Reg.clkRefCfg k) = s.rd (Reg.clkRefCfg k) :=
      fun t ht => (refCfg_disqualify t hk i 8).trans ht
    have hCleared : (((((s.setFld (Reg.clkRefStat i) 0 1 0).wr (Reg.clkRefFoff1 i) 0x80000000).wr (Reg.clkRefFoff64 i) 0x80000000).setFld
        (Reg.clkRefStat i) 3 2 0).onRef i fun x => { x with foff := [] }).rd (Reg.clkRefCfg k) = s.rd (Reg.clkRefCfg k) := by
      rw [rd_onRef, refCfg_setFld _ hk _ _ _ (notRefCfg_stat i), refCfg_wr _ hk _ (notRefCfg_foff64 i),
        refCfg_wr _ hk _ (notRefCfg_foff1 i), refCfg_setFld _ hk _ _ _ (notRefCfg_stat i)]
    exact ite_keeps (State.rd · _) (hGone _ hCleared) ((refCfg_raise _ hk (by decide)).trans (hGone _ hCleared))

end

variable {s : State} {h : CmdHdr}

/-! CLK_REF_SET (R273, R274, R280). -/

/-- A slot bound to a port reads that port, and keeps its rank. -/
theorem bindSlot_reads {i port : Nat} (hi : i < 6) (hport : port < 32) :
    (s.bindSlot i port).fld (Reg.clkRefCfg i) 0 4 = s.fld (Reg.clkRefCfg i) 0 4 ∧ (s.bindSlot i port).fld (Reg.clkRefCfg i) 8 5 = port := by
  unfold State.bindSlot
  split
  · next heq => exact ⟨rfl, heq⟩
  · refine ⟨?_, ?_⟩
    · rw [fld_setFld_of_disjoint _ _ _ (by decide) (by decide), State.fld, refCfg_refAbsent s hi, State.fld]
    · rw [fld_setFld_self _ _ _ (by decide)]
      exact Nat.mod_eq_of_lt hport

theorem clkRefSet_slot_reads {i rank port : Nat} (hi : i < 6) (hrank : rank < 16) (hport : port < 32) {u : State}
    (hu : u = (s.setFld (Reg.clkRefCfg i) 0 4 rank).bindSlot i port) : u.fld (Reg.clkRefCfg i) 0 4 = rank ∧ u.fld (Reg.clkRefCfg i) 8 5 = port := by
  obtain ⟨hRank, hPort⟩ := bindSlot_reads (s := s.setFld (Reg.clkRefCfg i) 0 4 rank) hi hport
  rw [hu]
  refine ⟨?_, hPort⟩
  rw [hRank, fld_setFld_self _ _ _ (by decide)]
  exact Nat.mod_eq_of_lt hrank

theorem exec_clkRefSet_extref {rank freq : Nat} (port : Option Nat) (hrank : rank < 16) (hfreq : freq < 3)
    (ha : Admitted s h 0x0501 { reins := [12] }) : exec (.clkRefSet h 0 rank freq port) s =
      .next ((((s.receive h 0x0501).setFld (Reg.clkRefCfg 0) 0 4 rank).setFld (Reg.clkRefCfg 0) 4 2 freq).answerOk h 0x0501 []) := by
  refine cmd_done ha ?_ rfl
  cases port <;> simp [firstBad, hrank, hfreq]

theorem exec_clkRefSet_five {rank : Nat} (freq : Nat) (port : Option Nat) (hrank : rank < 16) (ha : Admitted s h 0x0501 { reins := [12] }) :
    exec (.clkRefSet h 5 rank freq port) s = .next (((s.receive h 0x0501).setFld (Reg.clkRefCfg 5) 0 4 rank).answerOk h 0x0501 []) := by
  refine cmd_done ha ?_ rfl
  cases port <;> simp [firstBad, hrank]

section
variable {i rank : Nat} (freq : Nat) (h1 : 1 ≤ i) (h4 : i ≤ 4) (hrank : rank < 16)
include h1 h4 hrank

theorem exec_clkRefSet_unbound (ha : Admitted s h 0x0501 { reins := [12] }) : exec (.clkRefSet h i rank freq none) s =
    .next ((((s.receive h 0x0501).setFld (Reg.clkRefCfg i) 0 4 rank).bindSlot i 31).answerOk h 0x0501 []) := by
  have h6 : i < 6 := by omega
  have h0 : ¬ i = 0 := by omega
  refine cmd_done ha ?_ ?_
  · simp [firstBad, h6, h0, hrank]
  · simp [h1, h4, h0]

theorem exec_clkRefSet_bound {p : Nat} (hp : p < 24) (hex : (s.receive h 0x0501).exists p = true)
    (ha : Admitted s h 0x0501 { owned := [(0, p)], reins := [12] }) : exec (.clkRefSet h i rank freq (some p)) s =
      .next ((((s.receive h 0x0501).setFld (Reg.clkRefCfg i) 0 4 rank).bindSlot i p).answerOk h 0x0501 []) := by
  have h6 : i < 6 := by omega
  have h0 : ¬ i = 0 := by omega
  refine cmd_done ha ?_ ?_
  · simp [firstBad, h1, h4, h6, h0, hrank, hp, hex]
  · simp [h1, h4, h0]

end

/-! The other commands (R279, R288, R294). -/

theorem exec_clkSelect {mode i : Nat} (hmode : mode < 4) (hi : i < 8) (hpins : (s.receive h 0x0502).fld Reg.clkRsel 0 3 = 0)
    (ha : Admitted s h 0x0502 { reins := [12] }) : exec (.clkSelect h mode i) s = .next (((s.receive h 0x0502).writeClkSel
      (putFld (putFld ((s.receive h 0x0502).rd Reg.clkSel) 0 2 mode) 4 3 i)).answerOk h 0x0502 []) := by
  refine cmd_done ha (by rw [firstBad_cons, decide_eq_true hmode, if_pos rfl, firstBad_one (decide_eq_true hi)]) ?_
  rw [if_neg (not_not_intro hpins)]

theorem exec_clkStatusGet (ha : Admitted s h 0x0503 { role := .any }) {v : State} (hv : v = s.receive h 0x0503) :
    exec (.clkStatusGet h) s = .next (v.reply h.ctx 0x0503 h.tag St.ok
      ([(v.rd Reg.clkOven).toNat, (v.rd Reg.clkRsel).toNat, (v.rd Reg.clkDpllStat).toNat, (v.rd Reg.clkDac).toNat, (v.rd Reg.clkDacHold).toNat,
        (v.rd Reg.clkDacCentre).toNat, (BitVec.ofInt 64 v.clk.buildout).toNat, (v.rd Reg.clkPhaseErr).toNat]
        ++ (List.range 6).flatMap fun i => [(v.rd (Reg.clkRefStat i)).toNat, (v.rd (Reg.clkRefFoff1 i)).toNat, (v.rd (Reg.clkRefFoff64 i)).toNat])
      false) := by
  subst hv
  exact cmd_answers ha rfl rfl (by simp)

theorem exec_clkSwitchSet {pm w d : Nat} (hpm : pm < 2) (hw : w ≤ 3600) (hd1 : 1 ≤ d) (hd : d ≤ 10000) (ha : Admitted s h 0x0504 { reins := [12] }) :
    exec (.clkSwitchSet h pm w d) s = .next (((((s.receive h 0x0504).setFld Reg.clkSwitch 0 1 pm).setFld Reg.clkSwitch 16 12 w).setFld
      Reg.clkDisagree 0 16 d).answerOk h 0x0504 []) := by
  refine cmd_done ha ?_ rfl
  simp only [firstBad, hpm, hw, hd1, hd, decide_true, Bool.and_self, if_true]

theorem exec_clkDpllExpertSet {bw : Nat} (fa : Bool) (hbw : bw ≤ 10) (ha : Admitted s h 0x0581 { reins := [12] }) :
    exec (.clkDpllExpertSet h bw fa) s = .next ((((s.receive h 0x0581).setFld Reg.clkDpllCfg 0 4 bw).setFld Reg.clkDpllCfg 4 1 (b2n fa)).answerOk
      h 0x0581 []) := cmd_done ha (by rw [firstBad_one (decide_eq_true hbw)]) rfl

theorem exec_clkSynExpertSet {n a : Nat} {force : Bool} (hn : n < 6) (haction : a < 2) (hthere : (s.receive h 0x0582).synThere n = true)
    (ha : Admitted s h 0x0582 { reins := [n + 1, 12] })
    (hfree : force = true ∨ ∀ i, i < 4 → ((s.receive h 0x0582).pt (4 * n + i)).up = false) {u : State}
    (hu : u = (if a = 1 then (s.receive h 0x0582).wr (Reg.clkSynBand n) 0 else s.receive h 0x0582)) :
    exec (.clkSynExpertSet h n a force) s = .next ((u.synRestart n (u.fld (Reg.clkSynCfg n) 0 2)).answerOk h 0x0582 []) := by
  have hBusy : (!force && (List.range 4).any fun i => ((s.receive h 0x0582).pt (4 * n + i)).up) = false := by
    rcases hfree with rfl | hdown
    · rfl
    · rw [Bool.and_eq_false_iff]
      exact .inr (List.any_eq_false.mpr fun i hi => by rw [hdown i (List.mem_range.mp hi)]; decide)
  subst hu
  refine cmd_done ha (by rw [firstBad_one (by simp [hn, hthere]), firstBad_one (decide_eq_true haction)]) ?_
  rw [hBusy]
  rfl

end Sys2Proof.Machine

open Sys2Proof Sys2Proof.Machine

/-- Settles O33: each command by its own equation; a slot bound anew keeps its rank while its clock goes. -/
theorem clockCommandsComplete : Obligations.ClockCommandsComplete := by
  refine fun s h => ⟨?_, ?_, ?_, ?_, ?_, ?_, ?_, ?_, ?_⟩
  · exact fun rank freq port hrank hfreq ha => exec_clkRefSet_extref port hrank hfreq ha
  · exact fun rank freq port hrank ha => exec_clkRefSet_five freq port hrank ha
  · exact fun i rank freq h1 h4 hrank ha =>
      ⟨_, exec_clkRefSet_unbound freq h1 h4 hrank ha, clkRefSet_slot_reads (by omega) hrank (by decide) rfl⟩
  · exact fun i p rank freq h1 h4 hp hex hrank ha =>
      ⟨_, exec_clkRefSet_bound freq h1 h4 hrank hp hex ha, clkRefSet_slot_reads (by omega) hrank (by omega) rfl⟩
  · exact fun mode i hmode hi hpins ha => exec_clkSelect hmode hi hpins ha
  · exact fun ha v hv => exec_clkStatusGet ha hv
  · exact fun pm w d hpm hw hd1 hd ha => exec_clkSwitchSet hpm hw hd1 hd ha
  · exact fun bw fa hbw ha => exec_clkDpllExpertSet fa hbw ha
  · exact fun n a force hn haction hthere ha hfree u hu => exec_clkSynExpertSet hn haction hthere ha hfree hu

end

section
/-! R296 to R317: pins and interval units by command. -/

namespace Sys2Proof.Machine

open Host

/-! What a pin's release leaves unchanged. -/

theorem pinOf_lt {s : State} {func index n : Nat} (h : s.pinOf func index = some n) : n < 16 :=
  List.mem_range.mp (List.mem_of_find?_eq_some h)

/-- Only TIO_BRIDLE registers change when pins are freed. -/
theorem rd_freePins (s : State) (funcs : List Nat) (index : Nat) {a : Nat} (h : 0x500040 ≤ a) :
    (s.freePins funcs index).rd a = s.rd a := by
  unfold State.freePins
  refine foldl_keeps (State.rd · a) _ funcs s fun t f => ?_
  split
  next n hn =>
    have hne : a ≠ Reg.tioBridle n := by
      have hlt := pinOf_lt hn
      unfold Reg.tioBridle
      omega
    rw [State.freePin, State.rd_wr, if_neg hne]
  next => rfl

theorem unit_freePins (s : State) (funcs : List Nat) (index u : Nat) : (s.freePins funcs index).unit u = s.unit u := by
  unfold State.freePins
  refine foldl_keeps (State.unit · u) _ funcs s fun t f => ?_
  split
  · exact State.unit_wr t _ _ u
  · rfl

/-! A freed unit has no owner, no result, and is not armed. -/

theorem iuStat_ge (u : Nat) : 0x500040 ≤ Reg.iuStat u := by unfold Reg.iuStat; omega

/-- A unit's return to the free set (R314). -/
theorem freeResource_unit (s : State) (u : Nat) : s.freeResource 6 u
    = (((s.iuDisarm u).onUnitSt u fun x => { x with queue := [], stop := none }).freePins [1, 2, 3] u).setFld (Reg.iuStat u) 24 4 0 := by
  unfold State.freeResource
  rw [if_neg (by decide), if_neg (by decide), if_pos rfl]

theorem owner_unit (s : State) (u : Nat) :
    s.owner 6 u = if s.bitAt (Reg.iuStat u) 27 then some (s.fld (Reg.iuStat u) 24 3) else none := rfl

theorem freeUnit_owner (s : State) (u : Nat) : (s.freeResource 6 u).owner 6 u = none := by
  rw [owner_unit, freeResource_unit, bitAt_setFld_self (lo := 24) (len := 4) _ _ _ 27 (by decide), if_pos (c := 24 ≤ 27 ∧ 27 < 24 + 4) (by decide),
    Nat.zero_testBit, if_neg (by decide)]

theorem freeUnit_queue (s : State) (u : Nat) : ((s.freeResource 6 u).unit u).queue = [] := by
  rw [freeResource_unit, State.unit_setFld, unit_freePins, State.unit_onUnitSt_self]

theorem freeUnit_iuArmed (s : State) (u : Nat) : (s.freeResource 6 u).iuArmed u = false := by
  have hrest (t : State) (f g : IuSt → IuSt) : ((t.onUnitSt u f).onUnitSt u g).rd (Reg.iuStat u) = t.rd (Reg.iuStat u) := rfl
  rw [State.iuArmed, freeResource_unit, bitAt_setFld_self _ _ _ _ (by decide), if_neg (by decide), State.bitAt,
    rd_freePins _ _ _ (iuStat_ge u), State.iuDisarm, hrest]
  refine (bitAt_setFld_self s (Reg.iuStat u) 0 0 (by decide)).trans ?_
  rw [if_pos (by decide), Nat.zero_testBit]

/-! Each command. -/

section
variable {s : State} {h : CmdHdr} {u : Nat}

theorem exec_tioClaim {pin func index pol term} (hpin : pin < 16) (hindex : index < if func = 4 then 16 else 4) (h1 : 1 ≤ func)
    (h4 : func ≤ 4) (hlvds : func ≤ 2 → pin < 8) (ha : Admitted s h 0x0601 { owned := [(funcKind func, index)], reins := [15] })
    (hfree : (s.receive h 0x0601).bitAt (Reg.tioBridle pin) 19 = false) (hfunc : (s.receive h 0x0601).pinOf func index = none) :
    exec (.tioClaim h pin func index pol term) s = .next ((((s.receive h 0x0601).wr (Reg.tioBridle pin)
      (w32 (func + index * 16 + b2n pol * 256 + b2n term * 512))).setOwner 4 pin h.ctx).answerOk h 0x0601 []) := by
  have hkind : (decide (2 < func) || decide (pin < 8)) = true := by
    rw [Bool.or_eq_true, decide_eq_true_eq, decide_eq_true_eq]
    exact (Nat.lt_or_ge 2 func).imp_right hlvds
  refine cmd_done ha ?_ (if_neg ?_)
  · simp only [firstBad, hpin, hindex, h1, h4, hkind, decide_true, Bool.and_self, if_true]
  · rw [hfree, hfunc]
    decide

theorem exec_tioRelease {pin} (hpin : pin < 16) (ha : Admitted s h 0x0602 { owned := [(4, pin)], reins := [15] }) :
    exec (.tioRelease h pin) s = .next (((s.receive h 0x0602).wr (Reg.tioBridle pin) 0).answerOk h 0x0602 []) :=
  cmd_done ha (by rw [firstBad_one (decide_eq_true hpin)]) rfl

theorem exec_tioStatusGet (ha : Admitted s h 0x0603 { role := .any }) :
    exec (.tioStatusGet h) s = .next ((s.receive h 0x0603).drawn.reply h.ctx 0x0603 h.tag St.ok
      (((List.range 16).map fun n => ((s.receive h 0x0603).rd (Reg.tioBridle n)).toNat) ++ [(s.receive h 0x0603).tioLevelWord.toNat]) false) :=
  cmd_answers ha rfl rfl (List.append_ne_nil_of_right_ne_nil _ (List.cons_ne_nil _ _))

theorem exec_iuAlloc (hfree : (s.receive h 0x0610).lowestFree 6 4 = some u) (ha : Admitted s h 0x0610 { reins := [15] }) :
    exec (.iuAlloc h) s = .next (((s.receive h 0x0610).setOwner 6 u h.ctx).reply h.ctx 0x0610 h.tag St.ok [u] false) :=
  cmd_answers ha rfl (by rw [hfree]) (List.cons_ne_nil _ _)

variable (hu : u < 4)
include hu

theorem exec_iuFree (ha : Admitted s h 0x0611 { owned := [(6, u)], reins := [15] }) :
    exec (.iuFree h u) s = .next (((s.receive h 0x0611).freeResource 6 u).answerOk h 0x0611 []) :=
  cmd_done ha (by rw [firstBad_one (decide_eq_true hu)]) rfl

theorem exec_iuSet (cfg win : Word) (harm : (s.receive h 0x0612).iuArmed u = false)
    (ha : Admitted s h 0x0612 { owned := [(6, u)], reins := [15] }) :
    exec (.iuSet h u cfg win) s
      = .next ((((s.receive h 0x0612).wr (Reg.iuCfg u) cfg).wr (Reg.iuWindow u) win).answerOk h 0x0612 []) :=
  cmd_done ha (by rw [firstBad_one (decide_eq_true hu)]) (if_neg (by rw [harm]; decide))

theorem exec_iuArm (hcal : (s.receive h 0x0613).iuCal u = false) (ha : Admitted s h 0x0613 { owned := [(6, u)] }) :
    exec (.iuArm h u) s = .next (((s.receive h 0x0613).iuArm u).answerOk h 0x0613 []) :=
  cmd_done ha (by rw [firstBad_one (decide_eq_true hu)]) (if_neg (by rw [hcal]; decide))

theorem exec_iuRead {n : Nat} (h1 : 1 ≤ n) (h16 : n ≤ 16) (ha : Admitted s h 0x0614 { role := .any, owned := [(6, u)] }) :
    exec (.iuRead h u n) s = .next (((s.receive h 0x0614).onUnitSt u fun x => { x with queue := x.queue.drop n }).answerOk h 0x0614
      ((((s.receive h 0x0614).unit u).queue.take n).flatMap fun r => r.words.map fun w => w.toNat)) :=
  cmd_done ha (by simp only [firstBad, hu, h1, h16, decide_true, Bool.and_self, if_true]) rfl

/-- The unit calibrates from the command on, and the command waits for its completion. -/
theorem exec_iuCalibrate (harm : (s.receive h 0x0615).iuArmed u = false) (hcal : (s.receive h 0x0615).iuCal u = false)
    (ha : Admitted s h 0x0615 { owned := [(6, u)], reins := [15] }) :
    exec (.iuCalibrate h u) s
      = .next (((((s.receive h 0x0615).setFld (Reg.iuStat u) 2 1 1).onMgt fun m => { m with calQ := m.calQ ++ [u] }).defers
          { ctx := h.ctx, op := 0x0615, tag := h.tag, idx := u }).reply h.ctx 0x0615 h.tag St.accepted [] false) :=
  cmd_accepted ha (by rw [firstBad_one (decide_eq_true hu)]) (if_neg (by rw [harm, hcal]; decide))

end

theorem calibrating_reads (s : State) (u : Nat) (f : Mgt → Mgt) (d : Deferred) {t : State}
    (ht : t = ((s.setFld (Reg.iuStat u) 2 1 1).onMgt f).defers d) : t.iuCal u = true ∧ d ∈ t.deferred := by
  subst ht
  refine ⟨?_, List.mem_append_right _ (List.mem_singleton_self d)⟩
  rw [State.iuCal, bitAt_defers]
  exact bitAt_set s (Reg.iuStat u) (by decide)

end Sys2Proof.Machine

open Sys2Proof Sys2Proof.Machine

/-- Settles O35: each command by its own equation; a freed unit reads free, and a unit under calibration has its command waiting. -/
theorem intervalCommandsComplete : Obligations.IntervalCommandsComplete := by
  refine fun s h u hu => ⟨?_, ?_, ?_, ?_, ?_, ?_, ?_, ?_, ?_, ?_⟩
  · intro pin func pol term hpin h1 h3 hlvds ha hfree hfunc
    have hne : func ≠ 4 := by omega
    exact exec_tioClaim hpin (by rw [if_neg hne]; exact hu) h1 (by omega) hlvds (by rw [funcKind, if_neg hne]; exact ha) hfree hfunc
  · exact fun g pin pol term hpin hg ha hfree hfunc =>
      exec_tioClaim hpin hg (by decide) (by decide) (fun h42 => absurd h42 (by decide)) ha hfree hfunc
  · exact fun pin hpin ha => exec_tioRelease hpin ha
  · exact exec_tioStatusGet
  · exact exec_iuAlloc
  · exact fun ha => ⟨_, exec_iuFree hu ha, freeUnit_owner _ u, freeUnit_queue _ u, freeUnit_iuArmed _ u⟩
  · exact fun cfg win harm ha => exec_iuSet hu cfg win harm ha
  · exact exec_iuArm hu
  · exact fun n h1 h16 ha => exec_iuRead hu h1 h16 ha
  · exact fun harm hcal ha => ⟨_, exec_iuCalibrate hu harm hcal ha, calibrating_reads _ u _ _ rfl⟩

end

section
/-! R305, the end of a calibration: the statement of O36 says that the unit calibrates no more after it, and it speaks of every
state. The end completes IU_CALIBRATE, and a deferred completion may be of a context that does not exist: it raises the source
224 + c of its context c, and for a large c the event status register of that source lies at the address of IU_STAT of unit 0. -/

namespace Sys2Proof.Machine

open Host

/-- A context number far past the eight there are, taken so that its source 224 + c has its status bit for HC0 in IU_STAT0, bit 2. -/
def strayUnitCtx : Nat := 8 * (Reg.iuStat 0 - Reg.evtStat 0 0) - 224 + 2

/-- The status bit of that source in HC0 is bit 2 of IU_STAT0, by which unit 0 calibrates. -/
theorem evtStat_strayUnitCtx : Reg.evtStat 0 ((224 + strayUnitCtx) / 32) = Reg.iuStat 0 ∧ (224 + strayUnitCtx) % 32 = 2 := by decide

/-- The block up and its firmware ready, unit 0 under calibration, the completion owed to a context that does not exist, and that
context's source routed to HC0. -/
def strayCalibration : State :=
  { ({ State.reset with life := .up } : State).wr (Reg.evtRoute (224 + strayUnitCtx)) 1 with
    mgt := { State.reset.mgt with fw := .ready, calQ := [0] }
    deferred := [{ ctx := strayUnitCtx, op := 0x0615, tag := 0, idx := 0 }] }

/-- Whether unit 0 calibrates in the state that an outcome leaves. -/
def outcomeCal (o : Outcome State Fault Refusal) : Bool :=
  match o with
  | .next t => t.iuCal 0
  | _ => false

theorem iuCalibrationEnd_strayCalibration_iuCal : outcomeCal (exec (.iuCalibrationEnd 0 0 0 0) strayCalibration) = true := by
  decide +kernel

end Sys2Proof.Machine

open Sys2Proof Sys2Proof.Machine

/-- Refutes O36: with a calibration whose deferred completion belongs to a context that does not exist (`strayCalibration`), the unit
still calibrates after its calibration's end. `State.cmd` runs no command of such a context, so none defers a completion for it; but
the statement speaks of every state and does not ask that of it. -/
theorem not_intervalEventsComplete : ¬ Obligations.IntervalEventsComplete := by
  unfold Obligations.IntervalEventsComplete
  rintro ⟨hUnit, -⟩
  obtain ⟨hEnd, -⟩ := hUnit strayCalibration 0 rfl (by decide)
  obtain ⟨v, hExec, hCal, -⟩ := hEnd 0 0 0 rfl rfl
  have hStill : outcomeCal (.next v) = true := by rw [← hExec, iuCalibrationEnd_strayCalibration_iuCal]
  exact absurd (hStill.symm.trans hCal) (by decide)

end

section
/-! R310, the last firing of a generator: the statement of O37 says that the generator is disarmed after it, and it speaks of every
state. The last firing of the bound generator cancels an armed commit, and a deferred completion may be of a context that does not
exist: it raises the source 224 + c of its context c, and for a large c the event status register of that source lies at the address
of TG_STAT of generator 0. -/

namespace Sys2Proof.Machine

open Host

/-- A context number far past the eight there are, taken so that its source 224 + c has its status bit for HC0 in TG_STAT0, bit 0. -/
def strayGenCtx : Nat := 8 * (Reg.tgStat 0 - Reg.evtStat 0 0) - 224

/-- The status bit of that source in HC0 is bit 0 of TG_STAT0, by which generator 0 is armed. -/
theorem evtStat_strayGenCtx : Reg.evtStat 0 ((224 + strayGenCtx) / 32) = Reg.tgStat 0 ∧ (224 + strayGenCtx) % 32 = 0 := by decide

/-- Generator 0 bound to the engine, a commit armed whose completion is owed to a context that does not exist, and that context's
source routed to HC0. -/
def strayCommit : State :=
  { (State.reset.wr (Reg.evtRoute (224 + strayGenCtx)) 1).wr Reg.cycCtrl 0x100 with
    cyc := { State.reset.cyc with armed := some { k := 0, hash := 0 } }
    deferred := [{ ctx := strayGenCtx, op := 0x0710, tag := 0, idx := 0 }] }

theorem tgPeriod_strayCommit : strayCommit.tgPeriod 0 = 0 := by decide +kernel

theorem tgFire_strayCommit_tgArmed : (strayCommit.tgFire 0).tgArmed 0 = true := by decide +kernel

end Sys2Proof.Machine

open Sys2Proof Sys2Proof.Machine

/-- Refutes O37: with a commit armed whose deferred completion belongs to a context that does not exist (`strayCommit`), the bound
generator is armed after the single firing it makes. `State.cmd` runs no command of such a context, so none defers a completion for
it; but the statement speaks of every state and does not ask that of it. -/
theorem not_generatorsComplete : ¬ Obligations.GeneratorsComplete := by
  unfold Obligations.GeneratorsComplete
  rintro ⟨-, -, hFires⟩
  obtain ⟨-, hDisarmed, -⟩ := hFires strayCommit 0 (by decide) tgPeriod_strayCommit
  rw [tgFire_strayCommit_tgArmed] at hDisarmed
  exact absurd hDisarmed (by decide)

end

section
/-! R171 to R205: what the staging commands of the cycle engine write, and what binding a generator leaves. -/

namespace Sys2Proof.Machine

open Host

/-! Of the engine's own operations: what each leaves unchanged. -/

theorem rd_onCyc (s : State) (f : Cyc → Cyc) (a : Nat) : (s.onCyc f).rd a = s.rd a := rfl

theorem cycBlock_not_evtReg {a : Nat} (h : 0x500000 ≤ a) : ¬ EvtReg a := not_evtReg_of_le (by omega)

section
variable (s : State)

theorem setEngine_rd (n : Nat) {a : Nat} (h : 0x500000 ≤ a) (hne : a ≠ Reg.cycStat) : (s.setEngine n).rd a = s.rd a := by
  have hraise : ((s.setFld Reg.cycStat 0 2 n).raise 196).rd a = s.rd a := by
    rw [(raise_noted _ (by decide)).rd a (cycBlock_not_evtReg h), State.rd_setFld, if_neg hne]
  unfold State.setEngine
  refine ite_keeps (State.rd · a) rfl ?_
  exact ite_keeps (State.rd · a) hraise hraise

theorem setEngine_phase (n : Nat) : (s.setEngine n).cyc.phase = s.cyc.phase := by
  have hraise : ((s.setFld Reg.cycStat 0 2 n).raise 196).cyc.phase = s.cyc.phase := congrArg Cyc.phase (raise_noted _ (by decide)).cyc
  unfold State.setEngine
  refine ite_keeps (·.cyc.phase) rfl ?_
  exact ite_keeps (·.cyc.phase) hraise hraise

theorem setEngine_handsOff (n : Nat) : (s.setEngine n).cyc.handsOff = s.cyc.handsOff := by
  have hraise : ((s.setFld Reg.cycStat 0 2 n).raise 196).cyc.handsOff = s.cyc.handsOff := congrArg Cyc.handsOff (raise_noted _ (by decide)).cyc
  unfold State.setEngine
  refine ite_keeps (·.cyc.handsOff) rfl ?_
  exact ite_keeps (·.cyc.handsOff) hraise hraise

theorem armCause_phase : s.armCause.cyc.phase = s.cyc.phase := by
  unfold State.armCause
  exact ite_keeps (·.cyc.phase) rfl rfl

theorem armCause_handsOff : s.armCause.cyc.handsOff = s.cyc.handsOff := by
  unfold State.armCause
  exact ite_keeps (·.cyc.handsOff) rfl rfl

/-! Halters that fall due change ports alone. -/

/-- What every write to a port keeps is kept when halters fall due. -/
theorem haltersDue_keeps {α : Type} (π : State → α) (h : ∀ t p f, π (State.onPt t p f) = π t) (ask : Bool) :
    π (s.haltersDue ask) = π s := by
  unfold State.haltersDue
  exact foldl_keeps π _ _ s fun t p => ite_keeps π (h _ _ _) rfl

theorem newSchedule_rd (hash per : Word) (a : Nat) :
    (s.newSchedule hash per).rd a = if a = Reg.cycPeriod then per else if a = Reg.cycNetHash then hash else s.rd a := by
  unfold State.newSchedule
  split
  next hsame =>
    obtain ⟨hhash, hper⟩ := hsame
    split
    next ha => rw [ha, hper]
    next =>
      split
      next ha => rw [ha, hhash]
      next => rfl
  next =>
    dsimp only
    rw [haltersDue_keeps _ (State.rd · a) (fun _ _ _ => rfl), State.rd_wr, State.rd_wr, foldl_keeps (State.rd · a)]
    · rfl
    · exact fun _ _ => rfl

theorem newSchedule_keeps {α : Type} (π : State → α) (hpt : ∀ t p f, π (State.onPt t p f) = π t) (hwr : ∀ t a v, π (State.wr t a v) = π t)
    (hown : ∀ t i x y, π ({ t with hashAt := i, prevHash := x, prevPeriod := y } : State) = π t) (hash per : Word) :
    π (s.newSchedule hash per) = π s := by
  unfold State.newSchedule
  refine ite_keeps π rfl ?_
  dsimp only
  rw [haltersDue_keeps _ π hpt, hwr, hwr, foldl_keeps π, hown]
  exact fun _ _ => hpt _ _ _

theorem newSchedule_cyc (hash per : Word) : (s.newSchedule hash per).cyc = s.cyc :=
  newSchedule_keeps s State.cyc (fun _ _ _ => rfl) (fun _ _ _ => rfl) (fun _ _ _ _ => rfl) hash per

theorem newSchedule_tbl (hash per : Word) : (s.newSchedule hash per).tbl = s.tbl :=
  newSchedule_keeps s State.tbl (fun _ _ _ => rfl) (fun _ _ _ => rfl) (fun _ _ _ _ => rfl) hash per

/-! The bound generator and the engine's enable. -/

theorem boundGen_of_rd {s t : State} (h : t.rd Reg.cycCtrl = s.rd Reg.cycCtrl) : t.boundGen = s.boundGen := by
  unfold State.boundGen State.bitAt State.fld
  rw [h]

theorem bindGen_boundGen {g : Nat} (hg : g < 16) : (s.bindGen g).boundGen = some g := by
  have hbit (t : State) : (((t.setFld Reg.cycCtrl 4 4 g).setFld Reg.cycCtrl 8 1 1).setFld (Reg.tgStat g) 5 1 1).boundGen = some g := by
    have hne : Reg.cycCtrl ≠ Reg.tgStat g := by
      unfold Reg.tgStat Reg.cycCtrl
      omega
    have hfld : ((t.setFld Reg.cycCtrl 4 4 g).setFld Reg.cycCtrl 8 1 1).fld Reg.cycCtrl 4 4 = g := by
      rw [fld_setFld_of_disjoint _ _ _ (by decide) (by decide), fld_setFld_self _ _ _ (by decide)]
      exact Nat.mod_eq_of_lt hg
    rw [boundGen_of_rd (s := (t.setFld Reg.cycCtrl 4 4 g).setFld Reg.cycCtrl 8 1 1) (by rw [State.rd_setFld, if_neg hne]), State.boundGen,
      bitAt_set _ _ (by decide), if_pos rfl, hfld]
  unfold State.bindGen
  exact (boundGen_of_rd (rd_onCyc _ _ _)).trans (hbit _)

theorem bindGen_handsOff (g : Nat) : (s.bindGen g).cyc.handsOff = false := by
  unfold State.bindGen
  exact congrArg Cyc.handsOff (State.onCyc_cyc _ _)

theorem setEn_true_rd {a : Nat} (h : 0x500000 ≤ a) (hctrl : a ≠ Reg.cycCtrl) (hstat : a ≠ Reg.cycStat) : (s.setEn true).rd a = s.rd a := by
  have hset : (s.setFld Reg.cycCtrl 0 1 (b2n true)).rd a = s.rd a := by rw [State.rd_setFld, if_neg hctrl]
  unfold State.setEn
  dsimp only
  rw [if_neg (by decide)]
  exact ite_keeps (State.rd · a) ((setEngine_rd _ _ h hstat).trans hset) hset

theorem setEn_true_ctrl : (s.setEn true).rd Reg.cycCtrl = (s.setFld Reg.cycCtrl 0 1 1).rd Reg.cycCtrl := by
  unfold State.setEn
  dsimp only
  rw [if_neg (by decide)]
  split
  · rw [setEngine_rd _ _ (by decide) (by decide)]
    rfl
  · rfl

theorem setEn_true_bit : (s.setEn true).bitAt Reg.cycCtrl 0 = true := by
  rw [State.bitAt, setEn_true_ctrl]
  exact bitAt_set s Reg.cycCtrl (by decide)

theorem setEn_true_boundGen : (s.setEn true).boundGen = s.boundGen := by
  rw [boundGen_of_rd (setEn_true_ctrl s), State.boundGen, bitAt_setFld_self _ _ _ _ (by decide), if_neg (c := 0 ≤ 8 ∧ 8 < 0 + 1) (by decide),
    fld_setFld_of_disjoint _ _ _ (by decide) (by decide), State.boundGen]

theorem setEn_true_cyc {α : Type} (π : Cyc → α) (h : ∀ t n, π (State.setEngine t n).cyc = π t.cyc) : π (s.setEn true).cyc = π s.cyc := by
  unfold State.setEn
  dsimp only
  rw [if_neg (by decide)]
  exact ite_keeps (fun t => π t.cyc) (h _ _) rfl

end

/-! What CYC_START_SET leaves. -/

/-- The generator bound, with the timing that CYC_START_SET gives, if any. -/
def State.bindTimed (s : State) (g : Nat) : Option (Nat × Int) → State
  | none => s.bindGen g
  | some (p, phi) => (((s.bindGen g).newSchedule ((s.bindGen g).rd Reg.cycNetHash) (w32 p)).wr Reg.cycPeriodPend (w32 p)).onCyc fun x =>
      { x with phase := phi }

/-- The state that CYC_START_SET reaches before it looks at the lock. -/
def State.startSet (s : State) (g : Nat) (timing : Option (Nat × Int)) : State := (s.bindTimed g timing).setEn true

/-- With the lock the arming of the generator falls due as well. -/
def State.startSetEnd (s : State) (g : Nat) (timing : Option (Nat × Int)) : State :=
  if (s.startSet g timing).locked then (s.startSet g timing).armCause else s.startSet g timing

section
variable (s : State) (g : Nat) (timing : Option (Nat × Int))

theorem startSetEnd_keeps {α : Type} (π : State → α) (h : ∀ t, π (State.armCause t) = π t) :
    π (s.startSetEnd g timing) = π (s.startSet g timing) := by
  unfold State.startSetEnd
  exact ite_keeps π (h _) rfl

theorem startSetEnd_rd (a : Nat) : (s.startSetEnd g timing).rd a = (s.startSet g timing).rd a :=
  startSetEnd_keeps s g timing (State.rd · a) fun _ => rd_armCause

theorem startSetEnd_boundGen (hg : g < 16) : (s.startSetEnd g timing).boundGen = some g := by
  rw [boundGen_of_rd (startSetEnd_rd s g timing _), State.startSet, setEn_true_boundGen]
  cases timing with
  | none => exact bindGen_boundGen s hg
  | some pphi =>
    refine (boundGen_of_rd ?_).trans (bindGen_boundGen s hg)
    rw [State.bindTimed, rd_onCyc, State.rd_wr, if_neg (by decide), newSchedule_rd, if_neg (by decide), if_neg (by decide)]

theorem startSetEnd_bit : (s.startSetEnd g timing).bitAt Reg.cycCtrl 0 = true := by
  rw [State.bitAt, startSetEnd_rd]
  exact setEn_true_bit _

theorem startSetEnd_handsOff : (s.startSetEnd g none).cyc.handsOff = false := by
  rw [startSetEnd_keeps s g none (·.cyc.handsOff) armCause_handsOff]
  exact (setEn_true_cyc _ Cyc.handsOff setEngine_handsOff).trans (bindGen_handsOff s g)

theorem startSetEnd_phase (p : Nat) (phi : Int) : (s.startSetEnd g (some (p, phi))).cyc.phase = phi := by
  rw [startSetEnd_keeps s g _ (·.cyc.phase) armCause_phase]
  refine (setEn_true_cyc _ Cyc.phase setEngine_phase).trans ?_
  exact congrArg Cyc.phase (State.onCyc_cyc _ _)

theorem startSetEnd_period (p : Nat) (phi : Int) : (s.startSetEnd g (some (p, phi))).rd Reg.cycPeriod = w32 p := by
  rw [startSetEnd_rd, State.startSet, setEn_true_rd _ (by decide) (by decide) (by decide), State.bindTimed, rd_onCyc, State.rd_wr, if_neg (by decide),
    newSchedule_rd, if_pos rfl]

theorem startSetEnd_periodPend (p : Nat) (phi : Int) : (s.startSetEnd g (some (p, phi))).rd Reg.cycPeriodPend = w32 p := by
  rw [startSetEnd_rd, State.startSet, setEn_true_rd _ (by decide) (by decide) (by decide), State.bindTimed, rd_onCyc, State.rd_wr_self]

end

/-! What the banks read back after staging. -/

theorem template_set_self (x : Sched) (n : Nat) {tpl : List Byte} (hlen : tpl.length = 64) (osl : Tab OSlotCfg) :
    ({ x with osl := osl, tpl := Tab.set (fun _ => []) x.tpl n (if tpl.all fun b => b == 0 then [] else tpl) } : Sched).template n = tpl := by
  unfold Sched.template
  dsimp only
  rw [Tab.get_set_self]
  split
  next hzero =>
    have hall : ∀ b ∈ tpl, b = 0 := fun b hb => eq_of_beq (List.all_eq_true.mp hzero b hb)
    rw [List.eq_replicate_of_mem hall, hlen]
    rfl
  next =>
    rw [hlen, List.take_of_length_le (Nat.le_of_eq hlen)]
    exact List.append_nil tpl

theorem staging_of_idle {s : State} (h : s.cyc.armed = none) (t : State) : s.staging t = .done [] t :=
  if_neg (by rw [h]; decide)

section
variable {s : State} (h : s.cyc.armed = none)
include h

theorem restoreCycle_of_idle : s.restoreCycle = (s.onCyc fun x => { x with pend := x.act }).wr Reg.cycPeriodPend (s.rd Reg.cycPeriod) :=
  if_neg (by rw [h]; decide)

theorem restoreStreams_of_idle : s.restoreStreams = s.onTbl fun x => { x with strP := x.strA } :=
  if_neg (by rw [h]; decide)

theorem restoreCycle_reads : s.restoreCycle.cyc.pend = s.cyc.act ∧ s.restoreCycle.cyc.armed = none ∧ s.restoreCycle.tbl = s.tbl ∧
    s.restoreCycle.rd Reg.cycPeriodPend = s.rd Reg.cycPeriod := by
  rw [restoreCycle_of_idle h]
  exact ⟨rfl, h, rfl, State.rd_wr_self ..⟩

theorem restoreBoth_reads : s.restoreCycle.restoreStreams.cyc.pend = s.cyc.act ∧ s.restoreCycle.restoreStreams.tbl.strP = s.tbl.strA ∧
    s.restoreCycle.restoreStreams.rd Reg.cycPeriodPend = s.rd Reg.cycPeriod := by
  obtain ⟨hpend, harm, htbl, hper⟩ := restoreCycle_reads h
  rw [restoreStreams_of_idle harm]
  exact ⟨hpend, congrArg Tables.strA htbl, hper⟩

end

/-! Each command. -/

section
variable {s : State} {h : CmdHdr}

theorem exec_cycTableSet {p : Nat} {es : List (Nat × GateEntry)} (hp : p = 31 ∨ p < 24 ∧ (s.receive h 0x0702).exists p = true)
    (h1 : 1 ≤ es.length) (h500 : es.length ≤ 500) (hes : ∀ e ∈ es, e.1 < 1024 ∧ e.2.offset < 2 ^ 27 ∧ e.2.duration < 2 ^ 24)
    (hidle : (s.receive h 0x0702).cyc.armed = none) (ha : Admitted s h 0x0702 { owned := if p = 31 then [] else [(0, p)], reins := [14] }) :
    exec (.cycTableSet h p es) s = .next (((s.receive h 0x0702).onPend fun x =>
      { x with gate := es.foldl (fun g e => Tab.set (fun _ => {}) g (1024 * p + e.1) e.2) x.gate }).answerOk h 0x0702 []) := by
  have hport : (decide (p = 31) || (decide (p < 24) && (s.receive h 0x0702).exists p)) = true := by
    rw [Bool.or_eq_true, Bool.and_eq_true, decide_eq_true_eq, decide_eq_true_eq]
    exact hp
  have hall : (es.all fun e => decide (e.1 < 1024) && decide (e.2.offset < 2 ^ 27) && decide (e.2.duration < 2 ^ 24)) = true := by
    refine List.all_eq_true.mpr fun e he => ?_
    obtain ⟨hi, ho, hd⟩ := hes e he
    simp only [hi, ho, hd, decide_true, Bool.and_self]
  exact cmd_done ha (by simp only [firstBad, hport, h1, h500, hall, decide_true, Bool.and_self, if_true]) (staging_of_idle hidle _)

theorem exec_cycOslotSet {n : Nat} {cfg : OSlotCfg} {tpl : List Byte} (hn : n < 4096) (hcfg : oslotOk cfg = true) (hlen : tpl.length = 64)
    (hidle : (s.receive h 0x0703).cyc.armed = none) (ha : Admitted s h 0x0703 { owned := [(2, n)], reins := [14] }) :
    exec (.cycOslotSet h n cfg tpl) s = .next (((s.receive h 0x0703).onPend fun x =>
      { x with osl := Tab.set (fun _ => {}) x.osl n cfg,
               tpl := Tab.set (fun _ => []) x.tpl n (if tpl.all fun b => b == 0 then [] else tpl) }).answerOk h 0x0703 []) :=
  cmd_done ha (by simp only [firstBad, hn, hcfg, hlen, decide_true, if_true]) (staging_of_idle hidle _)

theorem exec_cycIslotSet {n : Nat} {cfg : ISlotCfg} (hn : n < 4096) (hcfg : islotOk cfg = true)
    (hidle : (s.receive h 0x0704).cyc.armed = none) (ha : Admitted s h 0x0704 { owned := [(3, n)], reins := [14] }) :
    exec (.cycIslotSet h n cfg) s = .next (((s.receive h 0x0704).onPend fun x =>
      { x with isl := Tab.set (fun _ => {}) x.isl n cfg }).answerOk h 0x0704 []) :=
  cmd_done ha (by simp only [firstBad, hn, hcfg, decide_true, if_true]) (staging_of_idle hidle _)

theorem exec_cycPeriodStage {per : Nat} (hlo : 19532 ≤ per) (hhi : per ≤ 80000000) (hidle : (s.receive h 0x0707).cyc.armed = none)
    (ha : Admitted s h 0x0707 { reins := [14] }) :
    exec (.cycPeriodStage h per) s = .next (((s.receive h 0x0707).wr Reg.cycPeriodPend (w32 per)).answerOk h 0x0707 []) :=
  cmd_done ha (by simp only [firstBad, hlo, hhi, decide_true, Bool.and_self, if_true]) (staging_of_idle hidle _)

theorem exec_cycDiscard_both (hidle : (s.receive h 0x0712).cyc.armed = none) (ha : Admitted s h 0x0712 { reins := [10, 14] }) :
    exec (.cycDiscard h true) s = .next ((s.receive h 0x0712).restoreCycle.restoreStreams.answerOk h 0x0712 []) :=
  cmd_done ha rfl (staging_of_idle hidle _)

theorem exec_cycDiscard_cycle (hidle : (s.receive h 0x0712).cyc.armed = none) (ha : Admitted s h 0x0712 { reins := [14] }) :
    exec (.cycDiscard h false) s = .next ((s.receive h 0x0712).restoreCycle.answerOk h 0x0712 []) :=
  cmd_done ha rfl (staging_of_idle hidle _)

theorem exec_cycStageGet (ha : Admitted s h 0x0705 { role := .any }) {v : State} (hv : v = s.receive h 0x0705) :
    exec (.cycStageGet h) s = .next (v.reply h.ctx 0x0705 h.tag St.ok
      [v.pendShareCrc.toNat, (v.rd Reg.cycPeriodPend).toNat, b2n v.pendDirty,
       (v.cyc.pend.gate.filter fun g => decide (g.2.duration ≠ 0)).length, (v.cyc.pend.osl.filter fun o => o.2.valid).length,
       (v.cyc.pend.isl.filter fun i => i.2.valid).length, (v.tbl.strP.filter fun e => e.2.valid).length] false) := by
  subst hv
  exact cmd_answers ha rfl rfl (List.cons_ne_nil _ _)

theorem exec_cycStatusGet (ha : Admitted s h 0x0706 { role := .any }) :
    exec (.cycStatusGet h) s = .next ((s.receive h 0x0706).reply h.ctx 0x0706 h.tag St.ok
      ([(s.receive h 0x0706).cycStatWord.toNat, (BitVec.ofInt 64 (s.receive h 0x0706).cyc.now).toNat,
        (((s.receive h 0x0706).cyc.armed.map (·.k)).getD 0), ((s.receive h 0x0706).rd Reg.cycNetHash).toNat]
        ++ (List.range 10).map fun i => ((s.receive h 0x0706).rd (Reg.cycLaunched + 4 * i)).toNat) false) :=
  cmd_answers ha rfl rfl (List.cons_ne_nil _ _)

theorem exec_cycStartSet_timing {g p : Nat} {phi : Int} (hg : g < 16) (hlo : 19532 ≤ p) (hhi : p ≤ 80000000)
    (hidle : (s.receive h 0x0701).cyc.armed = none) (hrun : (s.receive h 0x0701).running = false)
    (ha : Admitted s h 0x0701 { owned := [(5, g)], reins := [14] }) :
    exec (.cycStartSet h g (some (p, phi))) s = .next (((s.receive h 0x0701).startSetEnd g (some (p, phi))).answerOk h 0x0701 []) := by
  refine cmd_done ha (by simp only [firstBad, hg, hlo, hhi, decide_true, Bool.and_self, if_true]) ?_
  rw [if_neg (by rw [hidle]; decide), if_neg (by rw [hrun, Bool.and_false]; decide)]
  rfl

theorem exec_cycStartSet_plain {g : Nat} (hg : g < 16) (hidle : (s.receive h 0x0701).cyc.armed = none)
    (ha : Admitted s h 0x0701 { owned := [(5, g)], reins := [14] }) :
    exec (.cycStartSet h g none) s = .next (((s.receive h 0x0701).startSetEnd g none).answerOk h 0x0701 []) := by
  refine cmd_done ha (by simp only [firstBad, hg, decide_true, if_true]) ?_
  rw [if_neg (by rw [hidle]; decide), if_neg (by rw [Option.isSome_none, Bool.false_and]; decide)]
  rfl

end

end Sys2Proof.Machine

open Sys2Proof Sys2Proof.Machine

/-- Settles O38: each staging command by its own equation, which writes the pending banks alone, and what is read back from them. -/
theorem stagingCommandsComplete : Obligations.StagingCommandsComplete := by
  refine fun s h => ⟨?_, ?_, ?_, ?_, ?_, ?_, ?_, ?_, ?_, ?_⟩
  · exact fun p es hp h1 h500 hes hidle ha => exec_cycTableSet hp h1 h500 hes hidle ha
  · exact fun n cfg tpl hn hcfg hlen hidle ha =>
      ⟨_, exec_cycOslotSet hn hcfg hlen hidle ha, Tab.get_set_self .., template_set_self _ n hlen _, rfl⟩
  · exact fun n cfg hn hcfg hidle ha => ⟨_, exec_cycIslotSet hn hcfg hidle ha, Tab.get_set_self .., rfl⟩
  · exact fun ha v hv => exec_cycStageGet ha hv
  · exact exec_cycStatusGet
  · exact fun per hlo hhi hidle ha => exec_cycPeriodStage hlo hhi hidle ha
  · exact fun hidle ha => ⟨_, exec_cycDiscard_both hidle ha, restoreBoth_reads hidle⟩
  · intro hidle ha
    obtain ⟨hpend, -, htbl, hper⟩ := restoreCycle_reads hidle
    exact ⟨_, exec_cycDiscard_cycle hidle ha, hpend, htbl, hper⟩
  · exact fun g p phi hg hlo hhi hidle hrun ha => ⟨_, exec_cycStartSet_timing hg hlo hhi hidle hrun ha, startSetEnd_boundGen _ g _ hg,
      startSetEnd_bit _ g _, startSetEnd_phase _ g p phi, startSetEnd_period _ g p phi, startSetEnd_periodPend _ g p phi⟩
  · exact fun g hg hidle ha => ⟨_, exec_cycStartSet_plain hg hidle ha, startSetEnd_boundGen _ g _ hg, startSetEnd_bit _ g _,
      startSetEnd_handsOff _ g⟩

end

section
/-! R180 to R183: the process image by command and by PCIe stores. -/

namespace Sys2Proof.Machine

open Host

/-! Stores of the host window (R179 to R183). -/

section
variable (s : State) (c : Nat) {n : Nat} (v : Word)

/-- A store to the SEQ word of an outbound slot: its owner writes the word and seals the slot. -/
theorem piStore_seq (hn : n < 4096) : s.piStore c (ostBase + 16 * n) v =
    if s.owner 2 n = some c then
      (s.piWrite (s.oslot n).wbank (ostBase + 16 * n) (leBytes 4 v.toNat)).onOslot n fun o => { o with sealed := true, sealAt := s.raw }
    else s := by
  have hslot : (ostBase + 16 * n - ostBase) / 16 = n := by omega
  have hword : (ostBase + 16 * n - ostBase) % 16 = 0 := by omega
  have hlow : ¬ ostBase + 16 * n < ostBase := by omega
  have hhigh : ostBase + 16 * n < istBase := by
    unfold ostBase istBase
    omega
  unfold State.piStore
  rw [if_neg hlow, if_pos hhigh, hslot, hword]
  simp only [true_and]

/-- A store to the payload area of an outbound slot: its owner writes the word, and the slot is no longer sealed. -/
theorem piStore_payload {off : Nat} (hlo : payBase ≤ off) (hhi : off < piWindow) (hslot : s.slotAt (off - payBase) = some (false, n)) :
    s.piStore c off v =
    if s.owner 2 n = some c then (s.piWrite (s.oslot n).wbank off (leBytes 4 v.toNat)).onOslot n fun o => { o with sealed := false }
    else s := by
  unfold State.piStore
  rw [if_neg (Nat.not_lt.mpr (Nat.le_trans (by decide) hlo)), if_neg (Nat.not_lt.mpr (Nat.le_trans (by decide) hlo)),
    if_neg (not_or.mpr ⟨Nat.not_lt.mpr hlo, Nat.not_le.mpr hhi⟩), hslot]

end

section
variable {s : State} {c n : Nat} {v : Word} (hup : s.life = .up) (hc : c < 4)
include hup hc

theorem exec_piSeqWrite (hn : n < 4096) : exec (.piSeqWrite c n v) s = .next (s.piStore c (ostBase + 16 * n) v) :=
  (onBus_of_up (by omega) hup _).trans (congrArg _ ((if_neg (by omega)).trans (onUnitS_of_lt hn _ _)))

theorem exec_piPayloadWrite {off : Nat} (hoff : off % 4 = 0) : exec (.piPayloadWrite c off [v]) s = .next (s.piStore c off v) :=
  (onBus_of_up (by omega) hup _).trans (congrArg _ (if_neg (by omega)))

end

/-! The commands. -/

section
variable {s : State} {h : CmdHdr} {n off : Nat} (hn : n < 4096)
include hn

theorem exec_cycPiWrite {data : List Byte} (seq : Word) (hlen : data.length ≤ 4032)
    (hroom : off + data.length ≤ roomOf ((s.receive h 0x0708).cyc.act.o n).valid ((s.receive h 0x0708).cyc.act.o n).size)
    (ha : Admitted s h 0x0708 { owned := [(2, n)] }) :
    exec (.cycPiWrite h n off data seq) s = .next (((((s.receive h 0x0708).piWrite ((s.receive h 0x0708).oslot n).wbank
      (payBase + ((s.receive h 0x0708).cyc.act.o n).poff + off) data).piWrite ((s.receive h 0x0708).oslot n).wbank (ostBase + 16 * n)
      (leBytes 4 seq.toNat)).onOslot n fun x => { x with sealed := true, sealAt := (s.receive h 0x0708).raw }).answerOk h 0x0708 []) :=
  cmd_done ha (by simp only [firstBad, hn, hlen, hroom, decide_true, Bool.and_self, if_true]) rfl

theorem exec_cycPiRead_in {len : Nat} (hlen : len ≤ 4032)
    (hroom : off + len ≤ roomOf ((s.receive h 0x0709).cyc.act.i n).valid ((s.receive h 0x0709).cyc.act.i n).size)
    (ha : Admitted s h 0x0709 { role := .any, owned := [(3, n)] }) :
    exec (.cycPiRead h true n off len) s = .next ((s.receive h 0x0709).answerOk h 0x0709
      (((s.receive h 0x0709).piBytes (1 - (s.receive h 0x0709).cyc.fill) (payBase + ((s.receive h 0x0709).cyc.act.i n).poff + off) len).map
        fun b => b.toNat)) :=
  cmd_done ha (by simp only [firstBad, hn, hlen, hroom, decide_true, Bool.and_self, if_true]) rfl

theorem exec_cycPiRead_out {len : Nat} (hlen : len ≤ 4032)
    (hroom : off + len ≤ roomOf ((s.receive h 0x0709).cyc.act.o n).valid ((s.receive h 0x0709).cyc.act.o n).size)
    (ha : Admitted s h 0x0709 { role := .any, owned := [(2, n)] }) :
    exec (.cycPiRead h false n off len) s = .next ((s.receive h 0x0709).answerOk h 0x0709
      (((s.receive h 0x0709).piBytes ((s.receive h 0x0709).oslot n).wbank (payBase + ((s.receive h 0x0709).cyc.act.o n).poff + off) len).map
        fun b => b.toNat)) :=
  cmd_done ha (by simp only [firstBad, hn, hlen, hroom, decide_true, Bool.and_self, if_true, Bool.false_eq_true, if_false]) rfl

end

end Sys2Proof.Machine

open Sys2Proof Sys2Proof.Machine

/-- Settles O39: the commands by their own equations; a store by `piStore_seq` and `piStore_payload`, which ask for the owner. -/
theorem processImageWrites : Obligations.ProcessImageWrites := by
  refine ⟨fun s h n off hn => ⟨?_, ?_, ?_⟩, fun s c n v hup hc hn => ⟨?_, ?_, ?_⟩⟩
  · exact fun data seq hlen hroom ha => exec_cycPiWrite hn seq hlen hroom ha
  · exact fun len hlen hroom ha => exec_cycPiRead_in hn hlen hroom ha
  · exact fun len hlen hroom ha => exec_cycPiRead_out hn hlen hroom ha
  · exact fun hown => by rw [exec_piSeqWrite hup hc hn, piStore_seq s c v hn, if_pos hown]
  · exact fun hown => by rw [exec_piSeqWrite hup hc hn, piStore_seq s c v hn, if_neg hown]
  · refine fun off hoff hlo hhi hslot => ⟨fun hown => ?_, fun hown => ?_⟩
    · rw [exec_piPayloadWrite hup hc hoff, piStore_payload s c v hlo hhi hslot, if_pos hown]
    · rw [exec_piPayloadWrite hup hc hoff, piStore_payload s c v hlo hhi hslot, if_neg hown]

end

section
/-! R195, R196, R198: commits. -/

namespace Sys2Proof.Machine

open Host

/-! A commit command after its checks, by how it ends. -/

section
variable {s : State} {k : Nat} {hash : Word}

/-- The share CRC that the commands compare: none, or one that is given. -/
theorem commit_mismatch {w : Word} (hw : w ≠ s.pendShareCrc) (imm : Bool) : s.commit k (some w) hash imm = .refuse St.mismatch [] :=
  if_pos (bne_iff_ne.mpr hw)

section
variable {share : Option Word} (hshare : share = none ∨ share = some s.pendShareCrc) (hchecks : s.checkPending = none)
  (hidle : s.cyc.armed = none) (hgen : s.boundGen.isSome = true)
include hshare hchecks hidle hgen

theorem commit_armed (hper : s.rd Reg.cycPeriod ≠ 0) (hlock : s.locked = true)
    (hlo : 1250000 ≤ s.cycleAt (cycleNum k) - s.netTicks) (hhi : s.cycleAt (cycleNum k) - s.netTicks ≤ 500000000000) :
    s.commit k share hash false = .accepted k [] (s.onCyc fun x => { x with armed := some { k := k, hash := hash } }) := by
  have hnone : s.boundGen.isNone = false := by rw [← Option.not_isSome, hgen]; rfl
  unfold State.commit
  rw [if_neg (by rcases hshare with rfl | rfl <;> simp only [bne_self_eq_false, Bool.false_eq_true, not_false_eq_true]), hchecks]
  simp only [hidle, hnone, hper, hlock, Option.isSome_none, Bool.false_and, Bool.not_false, Bool.not_true, Bool.true_and, Bool.or_false,
    decide_false, Bool.false_eq_true, if_false]
  exact if_neg (by omega)

theorem commit_immediate (hrun : s.running = false) : s.commit k share hash true =
    .done [] (if (s.applyCommit hash none).locked then (s.applyCommit hash none).armCause else s.applyCommit hash none) := by
  have hnone : s.boundGen.isNone = false := by rw [← Option.not_isSome, hgen]; rfl
  unfold State.commit
  rw [if_neg (by rcases hshare with rfl | rfl <;> simp only [bne_self_eq_false, Bool.false_eq_true, not_false_eq_true]), hchecks]
  simp only [hidle, hnone, hrun, Option.isSome_none, Bool.true_and, Bool.not_true, Bool.false_and, Bool.or_false,
    Bool.false_eq_true, if_false, if_true]

end
end

/-! The commands and the judgement. -/

section
variable {s : State} {h : CmdHdr} {k : Nat} {hash : Word} (hhash : hash ≠ 0)
include hhash

theorem exec_cycleCommit_armed (hchecks : (s.receive h 0x0710).checkPending = none) (hidle : (s.receive h 0x0710).cyc.armed = none)
    (hgen : (s.receive h 0x0710).boundGen.isSome = true) (hper : (s.receive h 0x0710).rd Reg.cycPeriod ≠ 0)
    (hlock : (s.receive h 0x0710).locked = true)
    (hlo : 1250000 ≤ (s.receive h 0x0710).cycleAt (cycleNum k) - (s.receive h 0x0710).netTicks)
    (hhi : (s.receive h 0x0710).cycleAt (cycleNum k) - (s.receive h 0x0710).netTicks ≤ 500000000000)
    (ha : Admitted s h 0x0710 { reins := [10, 14] }) :
    exec (.cycleCommit h k (s.receive h 0x0710).pendShareCrc hash false) s
      = .next ((((s.receive h 0x0710).onCyc fun x => { x with armed := some { k := k, hash := hash } }).defers
          { ctx := h.ctx, op := 0x0710, tag := h.tag, idx := k }).reply h.ctx 0x0710 h.tag St.accepted [] false) :=
  cmd_accepted ha (by rw [firstBad_one (decide_eq_true hhash)]) (commit_armed (.inr rfl) hchecks hidle hgen hper hlock hlo hhi)

theorem exec_cycleCommitForce_armed (hchecks : (s.receive h 0x0790).checkPending = none) (hidle : (s.receive h 0x0790).cyc.armed = none)
    (hgen : (s.receive h 0x0790).boundGen.isSome = true) (hper : (s.receive h 0x0790).rd Reg.cycPeriod ≠ 0)
    (hlock : (s.receive h 0x0790).locked = true)
    (hlo : 1250000 ≤ (s.receive h 0x0790).cycleAt (cycleNum k) - (s.receive h 0x0790).netTicks)
    (hhi : (s.receive h 0x0790).cycleAt (cycleNum k) - (s.receive h 0x0790).netTicks ≤ 500000000000)
    (ha : Admitted s h 0x0790 { reins := [10, 14] }) :
    exec (.cycleCommitForce h k hash false) s
      = .next ((((s.receive h 0x0790).onCyc fun x => { x with armed := some { k := k, hash := hash } }).defers
          { ctx := h.ctx, op := 0x0790, tag := h.tag, idx := k }).reply h.ctx 0x0790 h.tag St.accepted [] false) :=
  cmd_accepted ha (by rw [firstBad_one (decide_eq_true hhash)]) (commit_armed (.inl rfl) hchecks hidle hgen hper hlock hlo hhi)

theorem exec_cycleCommit_immediate (hchecks : (s.receive h 0x0710).checkPending = none) (hidle : (s.receive h 0x0710).cyc.armed = none)
    (hrun : (s.receive h 0x0710).running = false) (hgen : (s.receive h 0x0710).boundGen.isSome = true)
    (ha : Admitted s h 0x0710 { reins := [10, 14] }) {t : State} (ht : t = (s.receive h 0x0710).applyCommit hash none) :
    exec (.cycleCommit h k (s.receive h 0x0710).pendShareCrc hash true) s
      = .next ((if t.locked then t.armCause else t).answerOk h 0x0710 []) := by
  subst ht
  exact cmd_done ha (by rw [firstBad_one (decide_eq_true hhash)]) (commit_immediate (.inr rfl) hchecks hidle hgen hrun)

theorem exec_cycleCommitForce_immediate (hchecks : (s.receive h 0x0790).checkPending = none) (hidle : (s.receive h 0x0790).cyc.armed = none)
    (hrun : (s.receive h 0x0790).running = false) (hgen : (s.receive h 0x0790).boundGen.isSome = true)
    (ha : Admitted s h 0x0790 { reins := [10, 14] }) {t : State} (ht : t = (s.receive h 0x0790).applyCommit hash none) :
    exec (.cycleCommitForce h k hash true) s = .next ((if t.locked then t.armCause else t).answerOk h 0x0790 []) := by
  subst ht
  exact cmd_done ha (by rw [firstBad_one (decide_eq_true hhash)]) (commit_immediate (.inl rfl) hchecks hidle hgen hrun)

theorem exec_cycleCommit_mismatch {share : Word} {imm : Bool} (hshare : share ≠ (s.receive h 0x0710).pendShareCrc)
    (ha : Admitted s h 0x0710 { reins := [10, 14] }) :
    exec (.cycleCommit h k share hash imm) s = .next ((s.receive h 0x0710).reply h.ctx 0x0710 h.tag St.mismatch [] false) :=
  cmd_refused ha (by rw [firstBad_one (decide_eq_true hhash)]) (commit_mismatch hshare imm)

end

section
variable {s : State}

theorem exec_cycleCancel {h : CmdHdr} {c : Commit} (harmed : (s.receive h 0x0711).cyc.armed = some c)
    (hbefore : (s.receive h 0x0711).netTicks < (s.receive h 0x0711).cycleAt (cycleNum c.k)) (ha : Admitted s h 0x0711 { reins := [10, 14] }) :
    exec (.cycleCancel h) s = .next (((s.receive h 0x0711).cancelCommit 1).answerOk h 0x0711 []) := by
  refine cmd_done ha rfl ?_
  rw [harmed]
  exact if_neg (Int.not_le.mpr hbefore)

variable {k : Nat} (hup : s.life = .up) (hjudge : s.cyc.judge = some k)
include hup hjudge

theorem exec_commitMismatchCheck_agreed (hagree : s.agreedPorts false = true) : exec .commitMismatchCheck s
    = .next (((s.onCyc fun x => { x with judge := none }).complete 0x0710 k St.ok []).complete 0x0790 k St.ok []) := by
  refine (next_event hup _).trans (congrArg _ ?_)
  rw [hjudge]
  dsimp only
  rw [hagree]
  rfl

theorem exec_commitMismatchCheck_differs (hagree : s.agreedPorts false = false) : exec .commitMismatchCheck s
    = .next ((((s.onCyc fun x => { x with judge := none }).stick Reg.cycStat 9).complete 0x0710 k St.mismatch []).complete 0x0790 k
        St.mismatch []) := by
  refine (next_event hup _).trans (congrArg _ ?_)
  rw [hjudge]
  dsimp only
  rw [hagree]
  rfl

end

/-- A command that is accepted waits among the deferred completions. -/
theorem mem_defers (s : State) (d : Deferred) : d ∈ (s.defers d).deferred := List.mem_append_right _ (List.mem_singleton_self d)

end Sys2Proof.Machine

open Sys2Proof Sys2Proof.Machine

/-- Settles O40: what `State.commit` answers, by the share and by the moment, and the judgement of its end. -/
theorem commitsComplete : Obligations.CommitsComplete := by
  refine fun s h => ⟨?_, ?_, ?_, ?_, ?_, ?_, ?_, ?_⟩
  · exact fun k hash hhash hchecks hidle hgen hper hlock hlo hhi ha =>
      ⟨_, exec_cycleCommit_armed hhash hchecks hidle hgen hper hlock hlo hhi ha, rfl, mem_defers _ _⟩
  · exact fun k hash hhash hchecks hidle hgen hper hlock hlo hhi ha =>
      ⟨_, exec_cycleCommitForce_armed hhash hchecks hidle hgen hper hlock hlo hhi ha, rfl, mem_defers _ _⟩
  · exact fun k hash hhash hchecks hidle hrun hgen ha t ht => exec_cycleCommit_immediate hhash hchecks hidle hrun hgen ha ht
  · exact fun share hash imm k hhash hshare ha => exec_cycleCommit_mismatch hhash hshare ha
  · exact fun k hash hhash hchecks hidle hrun hgen ha t ht => exec_cycleCommitForce_immediate hhash hchecks hidle hrun hgen ha ht
  · exact fun c harmed hbefore ha => exec_cycleCancel harmed hbefore ha
  · exact fun k hup hjudge hagree => exec_commitMismatchCheck_agreed hup hjudge hagree
  · exact fun k hup hjudge hagree => exec_commitMismatchCheck_differs hup hjudge hagree

end

section
/-! R182, R191, R197: what a commit and a cycle boundary bring into force. -/

namespace Sys2Proof.Machine

/-! The commit (R197). -/

theorem boundGen_lt {s : State} {g : Nat} (h : s.boundGen = some g) : g < 16 := by
  unfold State.boundGen at h
  split at h
  · rw [← Option.some.inj h]
    exact Nat.mod_lt _ (by decide)
  · nomatch h

section
variable (s : State)

theorem wr64_rd {lo hi a : Nat} (v : Nat) (hlo : a ≠ lo) (hhi : a ≠ hi) : (s.wr64 lo hi v).rd a = s.rd a := by
  rw [State.wr64, State.rd_wr, if_neg hhi, State.rd_wr, if_neg hlo]

theorem loadPeriod_keeps {α : Type} (π : State → α) (hwr : ∀ t a v, π (State.wr t a v) = π t) (hgen : ∀ t g f, π (State.onGen t g f) = π t)
    (g per : Nat) (next : Int) : π (s.loadPeriod g per next) = π s := by
  have h64 (t : State) (lo hi v : Nat) : π (t.wr64 lo hi v) = π t := by rw [State.wr64, hwr, hwr]
  have hshow (t : State) : π (t.tgShow g) = π t := by
    unfold State.tgShow
    exact ite_keeps π (h64 ..) rfl
  unfold State.loadPeriod
  exact ite_keeps π ((hshow _).trans ((hgen ..).trans (h64 ..))) (h64 ..)

/-- A new period is written to the registers of its generator alone. -/
theorem loadPeriod_rd {g : Nat} (hg : g < 16) (per : Nat) (next : Int) {a : Nat} (h : 0x502000 ≤ a) :
    (s.loadPeriod g per next).rd a = s.rd a := by
  have hperiod : (s.wr64 (Reg.tgPeriodLo g) (Reg.tgPeriodHi g) per).rd a = s.rd a := by
    refine wr64_rd s per ?_ ?_
    · unfold Reg.tgPeriodLo; omega
    · unfold Reg.tgPeriodHi; omega
  have hshow (t : State) : (t.tgShow g).rd a = t.rd a := by
    unfold State.tgShow
    refine ite_keeps (State.rd · a) (wr64_rd t _ ?_ ?_) rfl
    · unfold Reg.tgTgtLo; omega
    · unfold Reg.tgTgtHi; omega
  unfold State.loadPeriod
  exact ite_keeps (State.rd · a) ((hshow _).trans hperiod) hperiod

/-- What a commit makes of the schedule, before it re-bases the phase and loads the generator. -/
def State.promote (s : State) (hash : Word) : State :=
  ((s.newSchedule hash (s.rd Reg.cycPeriodPend)).onCyc fun x => { x with act := x.pend }).onTbl fun x =>
    { x with strA := x.strP, badStr := [] }

theorem promote_act (hash : Word) : (s.promote hash).cyc.act = s.cyc.pend := congrArg Cyc.pend (newSchedule_cyc s hash _)

theorem promote_strA (hash : Word) : (s.promote hash).tbl.strA = s.tbl.strP := congrArg Tables.strP (newSchedule_tbl s hash _)

theorem promote_rd (hash : Word) (a : Nat) :
    (s.promote hash).rd a = (s.newSchedule hash (s.rd Reg.cycPeriodPend)).rd a := (rfl)

theorem promote_hash (hash : Word) : (s.promote hash).rd Reg.cycNetHash = hash := by
  rw [promote_rd, newSchedule_rd, if_neg (by decide), if_pos rfl]

theorem promote_period (hash : Word) : (s.promote hash).rd Reg.cycPeriod = s.rd Reg.cycPeriodPend := by
  rw [promote_rd, newSchedule_rd, if_pos rfl]

/-- What neither the phase nor a generator's registers hold is as the promotion leaves it. -/
theorem applyCommit_keeps {α : Type} (π : State → α) (hphase : ∀ t x, π (State.onCyc t fun y => { y with phase := x }) = π t)
    (hload : ∀ t g per next, g < 16 → π (State.loadPeriod t g per next) = π t) (hash : Word) (k : Option Int) :
    π (s.applyCommit hash k) = π (s.promote hash) := by
  unfold State.applyCommit
  dsimp only
  cases k with
  | none => rfl
  | some k =>
    refine ite_keeps π rfl ?_
    split
    next g hg => exact (hload _ _ _ _ (boundGen_lt hg)).trans (hphase _ _)
    next => exact hphase _ _

end

/-! The boundary (R191). -/

/-- A table whose values have all changed by a function that keeps the default reads the changed value. -/
theorem get_map {α : Type} {d : Nat → α} {f : α → α} (hf : ∀ i, f (d i) = d i) (t : Tab α) (i : Nat) :
    Tab.get d (t.map fun e => (e.1, f e.2)) i = f (Tab.get d t i) := by
  induction t with
  | nil => exact (hf i).symm
  | cons e t ih =>
    obtain ⟨j, v⟩ := e
    rw [List.map_cons, Tab.get, Tab.get, ih]
    exact (apply_ite f _ _ _).symm

/-- What the default and every listed value of a key have, the value read there has. -/
theorem get_of_forall {α : Type} {d : Nat → α} {P : α → Prop} {i : Nat} (hd : P (d i)) {t : Tab α} (h : ∀ v, (i, v) ∈ t → P v) :
    P (Tab.get d t i) := by
  induction t with
  | nil => exact hd
  | cons e t ih =>
    obtain ⟨j, v⟩ := e
    rw [Tab.get]
    split
    next heq => exact h v (by rw [heq]; exact List.mem_cons_self)
    next => exact ih fun w hw => h w (List.mem_cons_of_mem _ hw)

/-- The cycle engine is not the switch core's, nor the counters'. -/
theorem offPaths_cyc : OffPaths State.cyc where
  wr _ _ _ := rfl
  onCx _ _ _ := rfl
  onSw _ _ := rfl
  raise s n := (Noted.raiseAt (A := fun _ => True) s 0 (unitOf n) (fun _ _ => trivial) fun _ _ => trivial).cyc
  perf s n hn := by rw [(perf_beside (A := fun _ => True) s n hn (fun _ _ => trivial) fun _ _ => trivial).eq]

section
variable (s : State) (k : Int)

theorem boundary_cyc : (s.boundary k).cyc = { s.cyc with now := k, start := s.now } := by
  unfold State.boundary
  rw [offPaths_cyc.raise, offPaths_cyc.perf _ _ (by decide), State.onCyc_cyc]

theorem boundary_start : (s.boundary k).cyc.start = s.now := by rw [boundary_cyc]

theorem swapBanks_now : (s.swapBanks k).now = s.now := (rfl)

theorem swapBanks_oslot (n : Nat) : (s.swapBanks k).oslot n = (s.oslot n).swap s.raw :=
  get_map (f := fun o : OutSt => o.swap s.raw) (fun _ => rfl) s.cyc.out n

/-- An entry of the bank that is filled from now on is neither fresh nor late. -/
theorem swapBanks_islot {n : Nat} (hn : n < 4096) :
    ((s.swapBanks k).islot (1 - s.cyc.fill) n).fresh = false ∧ ((s.swapBanks k).islot (1 - s.cyc.fill) n).late = false := by
  refine get_of_forall (P := fun x : InSt => x.fresh = false ∧ x.late = false) ⟨rfl, rfl⟩ fun v hv => ?_
  obtain ⟨e, -, he⟩ := List.mem_map.mp (List.mem_of_mem_filter hv)
  split at he
  next =>
    rw [← (Prod.mk.inj he).2]
    exact ⟨rfl, rfl⟩
  next hbank =>
    refine absurd ?_ hbank
    rw [congrArg Prod.fst he]
    omega

/-- At a cycle's start each native port learns whether class 7 may go (R54). -/
def State.judgeC7 (s : State) : State :=
  (List.range 24).foldl (fun (u : State) p => if u.native p then u.onPt p fun x => { x with c7Ok := u.c7Agreed p } else u) s

theorem judgeC7_keeps {α : Type} (π : State → α) (h : ∀ t p f, π (State.onPt t p f) = π t) : π s.judgeC7 = π s := by
  unfold State.judgeC7
  exact foldl_keeps π _ _ s fun t p => ite_keeps π (h _ _ _) rfl

variable {s k} in
/-- With no commit armed a RUNNING engine swaps its banks and enters the cycle. -/
theorem cycleStart_of_running (hrun : s.running = true) (hidle : s.cyc.armed = none) :
    s.cycleStart k = (s.judgeC7.swapBanks k).boundary k := by
  have hcommit : s.commitAt k = s := by
    unfold State.commitAt
    rw [hidle]
  have hstat : s.judgeC7.fld Reg.cycStat 0 2 = 2 := by
    rw [judgeC7_keeps s (State.fld · Reg.cycStat 0 2) fun _ _ _ => rfl]
    exact of_decide_eq_true hrun
  have hrunC7 : s.judgeC7.running = true := decide_eq_true hstat
  unfold State.cycleStart
  dsimp only
  rw [hcommit, ← State.judgeC7, hstat]
  rw [if_neg (c := (decide (2 = 1) && s.judgeC7.locked && decide (s.judgeC7.rd Reg.cycPeriod ≠ 0) && s.judgeC7.agreedPorts true) = true)
    (by simp only [Nat.reduceEqDiff, decide_false, Bool.false_and, Bool.false_eq_true, not_false_eq_true]), if_pos hrunC7]

theorem cycleStart_reads {n : Nat} (hn : n < 4096) (hrun : s.running = true) (hidle : s.cyc.armed = none) :
    (s.cycleStart k).cyc.now = k ∧ (s.cycleStart k).cyc.rdCycle = k - 1 ∧ (s.cycleStart k).cyc.start = s.now ∧
      (s.cycleStart k).cyc.fill = 1 - s.cyc.fill ∧ (s.cycleStart k).oslot n = (s.oslot n).swap s.raw ∧
      ((s.cycleStart k).islot (1 - s.cyc.fill) n).fresh = false ∧ ((s.cycleStart k).islot (1 - s.cyc.fill) n).late = false := by
  have hcyc : s.judgeC7.cyc = s.cyc := judgeC7_keeps s State.cyc fun _ _ _ => rfl
  have hraw : s.judgeC7.raw = s.raw := judgeC7_keeps s State.raw fun _ _ _ => rfl
  have hout : (s.cycleStart k).cyc.out = (s.judgeC7.swapBanks k).cyc.out := by rw [cycleStart_of_running hrun hidle, boundary_cyc]
  have hin : (s.cycleStart k).cyc.inb = (s.judgeC7.swapBanks k).cyc.inb := by rw [cycleStart_of_running hrun hidle, boundary_cyc]
  obtain ⟨hfresh, hlate⟩ := swapBanks_islot s.judgeC7 k hn
  refine ⟨?_, ?_, ?_, ?_, ?_, ?_, ?_⟩
  · rw [cycleStart_of_running hrun hidle, boundary_cyc]
  · rw [cycleStart_of_running hrun hidle, boundary_cyc]
    rfl
  · rw [cycleStart_of_running hrun hidle, boundary_start, swapBanks_now, State.now, hraw, State.now]
  · rw [cycleStart_of_running hrun hidle, boundary_cyc]
    exact congrArg (fun x : Cyc => 1 - x.fill) hcyc
  · rw [State.oslot, hout, ← State.oslot, swapBanks_oslot, hraw, State.oslot, hcyc, State.oslot]
  · rw [State.islot, hin, ← hcyc, ← State.islot, hfresh]
  · rw [State.islot, hin, ← hcyc, ← State.islot, hlate]

end

end Sys2Proof.Machine

open Sys2Proof Sys2Proof.Machine

/-- Settles O42: neither the phase's re-base nor the generator's load touches what the commit promotes; a boundary is its swap. -/
theorem engineSwapsBanks : Obligations.EngineSwapsBanks := by
  refine ⟨fun s hash k => ⟨?_, ?_, ?_, ?_⟩, fun s k n _ hn hrun hidle => cycleStart_reads s k hn hrun hidle⟩
  · rw [applyCommit_keeps s (·.cyc.act) (fun _ _ => rfl)
      (fun t g per next _ => loadPeriod_keeps t (·.cyc.act) (fun _ _ _ => rfl) (fun _ _ _ => rfl) g per next), promote_act]
  · rw [applyCommit_keeps s (·.tbl.strA) (fun _ _ => rfl)
      (fun t g per next _ => loadPeriod_keeps t (·.tbl.strA) (fun _ _ _ => rfl) (fun _ _ _ => rfl) g per next), promote_strA]
  · rw [applyCommit_keeps s (State.rd · Reg.cycNetHash) (fun _ _ => rfl)
      (fun t g per next hg => loadPeriod_rd t hg per next (by decide)), promote_hash]
  · rw [applyCommit_keeps s (State.rd · Reg.cycPeriod) (fun _ _ => rfl)
      (fun t g per next hg => loadPeriod_rd t hg per next (by decide)), promote_period]

end

section
/-! R124, R175, R182 to R191, R200: what the cycle engine does of itself. -/

namespace Sys2Proof.Machine

open Host

/-! A reading that a line's changes leave as well. -/

/-- A reading of the state that neither the switch core, the counters, a sticky bit nor a port's own state holds. -/
structure OffLines {α : Type} (π : State → α) : Prop extends OffPaths π where
  onPt : ∀ (s : State) (p : Nat) (f : PortSt → PortSt), π (s.onPt p f) = π s
  stick : ∀ (s : State) (a i : Nat), π (s.stick a i) = π s

/-- A fold whose steps keep a reading, each for its own member of the list. -/
theorem foldl_keeps_of_mem {α β : Type} (π : State → α) (f : State → β → State) (l : List β) (s : State)
    (h : ∀ t, ∀ b ∈ l, π (f t b) = π t) : π (l.foldl f s) = π s := by
  induction l generalizing s with
  | nil => rfl
  | cons b l ih =>
    exact (ih (f s b) fun t c hc => h t c (List.mem_cons_of_mem _ hc)).trans (h s b List.mem_cons_self)

namespace OffLines

variable {α : Type} {π : State → α} (hπ : OffLines π)
include hπ

theorem wakeTx (s : State) (p : Nat) : π (s.wakeTx p) = π s := by
  unfold State.wakeTx
  exact ite_keeps π ((hπ.onPt _ _ _).trans (hπ.wr s _ _)) rfl

theorem emit (s : State) (p : Nat) (limit : Option Nat) (bs : List Beat) : π (s.emit p limit bs) = π s := by
  unfold State.emit
  exact ite_keeps π ((hπ.onPt _ _ _).trans (hπ.wakeTx s p)) rfl

theorem resumeTx (s : State) (p : Nat) : π (s.resumeTx p) = π s := by
  unfold State.resumeTx
  exact ite_keeps π ((hπ.onPt _ _ _).trans (hπ.emit s p _ _)) rfl

theorem sent (s : State) (e : Nat) (b : List Byte) (ending ts : Nat) (out : Option Nat) (cls hint : Nat) :
    π (s.sent e b ending ts out cls hint) = π s := by
  unfold State.sent
  dsimp only
  rw [hπ.onSw, hπ.emit]
  exact ite_keeps π rfl (hπ.resumeTx s e)

theorem preempt (s : State) {e : Nat} (he : e < 24) (n : Nat) : π (s.preempt e n) = π s := by
  have hopened : π ((((s.resumeTx e).emit e none [preemptBeat]).countP (Reg.portPreemptTx e) e).perf (0x1C0 + e)) = π s := by
    rw [hπ.perf _ _ (by omega), State.countP, hπ.count, hπ.emit, hπ.resumeTx]
  unfold State.preempt
  split
  · refine ite_keeps π ?_ rfl
    dsimp only
    rw [hπ.onPt]
    exact ite_keeps π rfl hopened
  · exact hπ.resumeTx s e

theorem sendC7 (s : State) {e : Nat} (he : e < 24) (b : List Byte) (ts hint : Nat) : π (s.sendC7 e b ts hint) = π s := by
  unfold State.sendC7
  rw [hπ.onPt, State.lineBusy, hπ.onPt, hπ.sent, State.countTx, hπ.perf _ _ (by omega), State.countP, hπ.count, State.countP, hπ.count,
    hπ.preempt s he]

end OffLines

/-- What is made of a reading is kept where the reading is. -/
theorem OffPaths.map {α β : Type} {π : State → α} (hπ : OffPaths π) (f : α → β) : OffPaths fun s => f (π s) where
  wr s a v := congrArg f (hπ.wr s a v)
  onCx s c g := congrArg f (hπ.onCx s c g)
  onSw s g := congrArg f (hπ.onSw s g)
  raise s n := congrArg f (hπ.raise s n)
  perf s n hn := congrArg f (hπ.perf s n hn)

/-! An outbound slot: what is captured for its next launch, and what the last one left. -/

theorem oslot_onOslot_self (s : State) (n : Nat) (f : OutSt → OutSt) : (s.onOslot n f).oslot n = f (s.oslot n) := Tab.get_set_self ..

/-- What a launch leaves of a slot beside its late and blocked bits and its time. -/
def OutSt.launched (o : OutSt) : Option Capture × Nat × Bool × Bool := (o.cap, o.lastSeq, o.stale, o.skipped)

def State.launched (n : Nat) (s : State) : Option Capture × Nat × Bool × Bool := (s.oslot n).launched

theorem offLines_launched (n : Nat) : OffLines (State.launched n) where
  toOffPaths := offPaths_cyc.map fun x => (Tab.get (fun _ => {}) x.out n : OutSt).launched
  onPt _ _ _ := rfl
  stick _ _ _ := rfl

theorem launched_onOslot (s : State) (n : Nat) {f : OutSt → OutSt} (h : ∀ x, (f x).launched = x.launched) :
    (s.onOslot n f).launched n = s.launched n := by
  rw [State.launched, oslot_onOslot_self, h, State.launched]

section
variable (s : State) (n : Nat)

/-- A copy that was not sent is counted, and the slot shows it. -/
def State.blocked (s : State) (n : Nat) : State := (s.count Reg.cycBlocked 200).onOslot n fun x => { x with blocked := true }

theorem blocked_launched : (s.blocked n).launched n = s.launched n := by
  unfold State.blocked
  refine (launched_onOslot _ n ?_).trans ((offLines_launched n).count _ _ _)
  exact fun _ => rfl

theorem blockCopy_launched (p : Nat) : (s.blockCopy n p).launched n = s.launched n := by
  have hPort : (if p < 28 then (s.blocked n).countP (Reg.txC7Blocked p) p else s.blocked n).launched n = s.launched n :=
    ite_keeps (State.launched n) (((offLines_launched n).count _ _ _).trans (blocked_launched s n)) (blocked_launched s n)
  unfold State.blockCopy
  dsimp only
  rw [← State.blocked]
  exact ite_keeps (State.launched n) (((offLines_launched n).stick _ _ _).trans hPort) hPort

theorem launchOn_launched {p : Nat} (hp : p < 24) (c : OSlotCfg) (e : StreamEntry) (b : List Byte) (target at_ : Int) :
    (s.launchOn n p c e b target at_).launched n = s.launched n := by
  have hπ := offLines_launched n
  unfold State.launchOn
  refine ite_keeps (State.launched n) (blockCopy_launched s n p) (ite_keeps (State.launched n) (hπ.count s _ _) ?_)
  refine ite_keeps (State.launched n) ?_ (hπ.sendC7 s hp _ _ _)
  rw [hπ.raise, hπ.stick, hπ.count]
  refine (launched_onOslot _ n ?_).trans (hπ.sendC7 s hp _ _ _)
  exact fun _ => rfl

theorem launchQueued_launched (e : StreamEntry) (sid : Nat) (ports : List Nat) (multi : Bool) (b : List Byte) (ts : Raw) :
    (s.launchQueued n e sid ports multi b ts).launched n = s.launched n := by
  have hπ := offLines_launched n
  unfold State.launchQueued
  dsimp only
  rw [foldl_keeps (State.launched n), hπ.enqueue _ _ _ _ (show (31 : Nat) < 32 by decide)]
  exact fun u p => ite_keeps (State.launched n) rfl (ite_keeps (State.launched n) (blocked_launched u n) (blockCopy_launched u n p))

/-- A launch takes the capture, and the slot shows what was captured. -/
theorem launchFrom_launched (x : Capture) (lines : List LineEdge) :
    (s.launchFrom n x lines).launched n = (none, x.seq, x.stale, false) := by
  have hπ := offLines_launched n
  unfold State.launchFrom
  dsimp only
  rw [launchQueued_launched, foldl_keeps_of_mem (State.launched n)]
  · rw [State.countRxType, State.countP, hπ.count, State.countRx, hπ.perf _ _ (by decide), State.countP, hπ.count,
      hπ.perf _ _ (by decide), hπ.count, State.launched, oslot_onOslot_self]
    rfl
  · exact fun t p hp => launchOn_launched t n (of_decide_eq_true (List.mem_filter.mp hp).2) _ _ _ _ _

end

/-! The capture (R182). -/

section
variable (s : State) (y : Sched) (n : Nat) (target : Int)

/-- The slot as the capture first leaves it: swapped where it is sealed. -/
def State.swapped (s : State) (n : Nat) : State := (s.onOslot n fun x => x.swap s.raw).perf 0x141

theorem swapped_oslot : (s.swapped n).oslot n = (s.oslot n).swap s.raw := by
  have hcyc : (s.swapped n).cyc = (s.onOslot n fun x => x.swap s.raw).cyc := offPaths_cyc.perf _ _ (by decide)
  rw [State.oslot, hcyc]
  exact oslot_onOslot_self s n _

theorem oslot_count (a src : Nat) : (s.count a src).oslot n = s.oslot n := by
  rw [State.oslot, offPaths_cyc.count, State.oslot]

theorem swap_lastSeq (o : OutSt) (now : Raw) : (o.swap now).lastSeq = o.lastSeq := by
  unfold OutSt.swap
  split <;> rfl

section
variable {s y n}

theorem captureSlot_never (hever : ((s.oslot n).swap s.raw).ever = false) : s.captureSlot y n target = s.swapped n := by
  refine if_pos ?_
  rw [← State.swapped, swapped_oslot, hever]
  rfl

section
variable (hever : ((s.oslot n).swap s.raw).ever = true)
include hever

theorem captureSlot_newer (hnew : ((s.oslot n).swap s.raw).newer = true) : ∃ c, ((s.captureSlot y n target).oslot n).cap = some c ∧
    c.stale = false ∧ c.target = target ∧ ((s.captureSlot y n target).oslot n).newer = false := by
  unfold State.captureSlot
  dsimp only
  rw [← State.swapped, swapped_oslot, hever, hnew, if_neg (by decide), if_pos rfl, oslot_onOslot_self]
  exact ⟨_, rfl, rfl, rfl, rfl⟩

variable (hold : ((s.oslot n).swap s.raw).newer = false)
include hold

theorem captureSlot_repeats (hrep : (y.o n).rep = true) : ∃ c, ((s.captureSlot y n target).oslot n).cap = some c ∧
    c.stale = true ∧ c.target = target ∧ c.seq = (s.oslot n).lastSeq := by
  unfold State.captureSlot
  dsimp only
  rw [← State.swapped, swapped_oslot, hever, hold, hrep, if_neg (by decide), if_neg (by decide), if_pos rfl, oslot_count, oslot_onOslot_self]
  exact ⟨_, rfl, rfl, rfl, swap_lastSeq _ _⟩

theorem captureSlot_skips (hrep : (y.o n).rep = false) :
    ((s.captureSlot y n target).oslot n).cap = none ∧ ((s.captureSlot y n target).oslot n).skipped = true := by
  unfold State.captureSlot
  dsimp only
  rw [← State.swapped, swapped_oslot, hever, hold, hrep, if_neg (by decide), if_neg (by decide), if_neg (by decide), oslot_count,
    oslot_onOslot_self]
  exact ⟨rfl, rfl⟩

end
end
end

/-! Each event. -/

section
variable {s : State} (hup : s.life = .up)
include hup

theorem exec_gateEntryStart {p i : Nat} (hp : p < 24 ∨ p = 31) (hi : i < 1024) (hrun : s.running = true)
    (hdur : (s.gateEnt p i).duration ≠ 0) : exec (.gateEntryStart p i) s = .next (s.setGate p (some (i, (s.gateEnt p i).mask))) := by
  refine (onUnit_event (by omega) hup _).trans (congrArg _ (if_pos ?_))
  have hport : (decide (p < 24) || decide (p = 31)) = true := by
    rw [Bool.or_eq_true, decide_eq_true_eq, decide_eq_true_eq]
    exact hp
  simp only [hrun, hport, hi, hdur, ne_eq, not_false_eq_true, decide_true, Bool.and_self]

theorem exec_gateEntryEnd_other {p i : Nat} {m : Byte} (hp : p < 32) (hgate : s.sw.gate p = some (i, m))
    (hother : ∀ x j, (s.setGate p none).sw.conn p = some (x, j) → j ≠ i) : exec (.gateEntryEnd p) s = .next (s.setGate p none) := by
  refine (onUnit_event hp hup _).trans (congrArg _ ?_)
  rw [hgate]
  dsimp only
  split
  next x j hconn => exact if_neg (hother x j hconn)
  next => rfl

theorem exec_gateEntryEnd_own {p i x : Nat} {m : Byte} (hp : p < 32) (hgate : s.sw.gate p = some (i, m))
    (hconn : (s.setGate p none).sw.conn p = some (x, i)) :
    exec (.gateEntryEnd p) s = .next ((s.setGate p none).setConn p none) := by
  refine (onUnit_event hp hup _).trans (congrArg _ ?_)
  rw [hgate]
  dsimp only
  rw [hconn]
  exact if_pos rfl

theorem exec_reservedConnectionSetup {p i : Nat} {e : Nat × StreamEntry} (hp : p < 24) (hrun : s.running = true)
    (hdur : (s.gateEnt p i).duration ≠ 0) (hmask : (s.gateEnt p i).mask.getLsbD 7 = true)
    (hfind : (s.tbl.strA.find? fun e => e.2.valid && decide (e.2.window = i) && bit (s.substitute e.2.egress) p) = some e) :
    exec (.reservedConnectionSetup p i) s = .next (s.setConn p (some (e.2.inPort, i))) := by
  refine (onUnit_event (by omega) hup _).trans (congrArg _ ((if_neg ?_).trans ?_))
  · simp only [hrun, hmask, hdur, Nat.not_le.mpr hp, decide_false, Bool.not_true, Bool.or_self, Bool.false_eq_true, not_false_eq_true]
  · rw [hfind]

theorem exec_cycGenAutoArm {g per : Nat} {k : Int} (hgen : s.boundGen = some g) (hdue : s.cyc.armDue = true)
    (hhands : s.cyc.handsOff = false) (hen : s.bitAt Reg.cycCtrl 0 = true) (hwait : s.fld Reg.cycStat 0 2 = 1)
    (hper : per = (s.rd Reg.cycPeriod).toNat) (hpos : per ≠ 0) (hlock : s.locked = true)
    (hk : k = (s.netTicks + 1250000 - s.cyc.phase + (per - 1 : Nat)) / (per : Int)) :
    exec .cycGenAutoArm s = .next ((((s.onCyc fun x => { x with armDue := false }).tgLoad g true 1 (s.cycleAt k).toNat 0 per 0
      (s.fld (Reg.tgWidth g) 0 24)).tgStart g).1) := by
  subst hper hk
  refine (next_event hup _).trans (congrArg _ ?_)
  rw [hgen]
  refine if_neg ?_
  simp only [hdue, hhands, hen, hwait, hpos, hlock, ne_eq, not_true_eq_false, decide_false, Bool.not_true, Bool.or_self,
    Bool.false_eq_true, not_false_eq_true]

theorem exec_cycleStart {g : Nat} (hgen : s.boundGen = some g) (hstarts : s.startsCycles g = true) (harmed : s.tgArmed g = true)
    (hdue : dueIn (s.tgRaw g / 256) s.now ≤ 0) : exec .cycleStart s = .next ((s.tgFire g).cycleStart (s.firedCycle g)) := by
  have hfire : s.fire g = (s.tgFire g).cycleStart (s.firedCycle g) := by
    refine (if_neg ?_).trans (if_pos hstarts)
    rw [harmed, decide_eq_false (Int.not_lt.mpr hdue)]
    decide
  refine (next_event hup _).trans (congrArg _ ?_)
  rw [hgen]
  exact (if_pos hstarts).trans hfire

theorem exec_launchCapture {n : Nat} {y : Sched} {target : Int} (hn : n < 4096) (hrun : s.running = true)
    (hcap : s.capture n = some (y, target)) (hvalid : (y.o n).valid = true) :
    exec (.launchCapture n) s = .next (s.captureSlot y n target) := by
  refine (onUnit_event hn hup _).trans (congrArg _ ?_)
  rw [hcap]
  exact if_pos (by rw [hrun, hvalid]; rfl)

theorem exec_launch {n : Nat} {lines : List LineEdge} {x : Capture} (hn : n < 4096) (hrun : s.running = true)
    (hcap : (s.oslot n).cap = some x) : exec (.launch n lines) s = .next (s.launchFrom n x lines) := by
  refine (onUnit_event hn hup _).trans (congrArg _ ?_)
  rw [hcap]
  exact if_pos hrun

theorem exec_inboundFile {x : Copy} {rest : List Copy} {f : Frm} (hq : s.sw.cycIn = x :: rest) (hf : s.sw.frame x.id = some f) :
    exec .inboundFile s = .next (((s.onSw fun y => { y with cycIn := rest }).fileFrame f).dropCopy 255 x) := by
  refine (next_event hup _).trans (congrArg _ ?_)
  rw [hq]
  dsimp only
  have hkept : (s.onSw fun y => { y with cycIn := rest }).sw.frame x.id = some f := hf
  rw [hkept]

end

end Sys2Proof.Machine

open Sys2Proof Sys2Proof.Machine

/-- Settles O41: each event by its own equation; the four ends of a capture, and what a launch leaves of its slot. -/
theorem engineEventsComplete : Obligations.EngineEventsComplete := by
  refine fun s hup => ⟨?_, ?_, ?_, ?_, ?_, ?_, ?_, ?_, ?_⟩
  · exact fun p i hp hi hrun hdur => exec_gateEntryStart hup hp hi hrun hdur
  · exact fun p i m hp hgate hother => exec_gateEntryEnd_other hup hp hgate hother
  · exact fun p i m x hp hgate hconn => exec_gateEntryEnd_own hup hp hgate hconn
  · exact fun p i e hp hrun hdur hmask hfind => exec_reservedConnectionSetup hup hp hrun hdur hmask hfind
  · exact fun g per k hgen hdue hhands hen hwait hper hpos hlock hk =>
      exec_cycGenAutoArm hup hgen hdue hhands hen hwait hper hpos hlock hk
  · exact fun g hgen hstarts harmed hdue => exec_cycleStart hup hgen hstarts harmed hdue
  · exact fun n y target hn hrun hcap hvalid => ⟨_, exec_launchCapture hup hn hrun hcap hvalid, captureSlot_never target,
      captureSlot_newer target, captureSlot_repeats target, captureSlot_skips target⟩
  · intro n lines x hn hrun hcap
    refine ⟨_, exec_launch hup hn hrun hcap, ?_⟩
    have hLaunched := launchFrom_launched s n x lines
    rw [State.launched, OutSt.launched, Prod.mk.injEq, Prod.mk.injEq, Prod.mk.injEq] at hLaunched
    exact hLaunched
  · exact fun x rest f hq hf => exec_inboundFile hup hq hf

end

section
/-! R398, the end of an update's verification: the statement of O45 says that the session is at STAGED after it, and it speaks of every
state. The end completes UPDATE_COMMIT, and a deferred completion may be of a context that does not exist: it raises the source 224 + c
of its context c, and for a large c the event status register of that source lies at the address of MGT_UPD_STAT. -/

namespace Sys2Proof.Machine

open Host

/-- A context number far past the eight there are, taken so that its source 224 + c has its status bit for HC0 in MGT_UPD_STAT, bit 0. -/
def strayUpdateCtx : Nat := 8 * (Reg.mgtUpdStat - Reg.evtStat 0 0) - 224

/-- The status bit of that source in HC0 is bit 0 of MGT_UPD_STAT, the low bit of the session's state. -/
theorem evtStat_strayUpdateCtx : Reg.evtStat 0 ((224 + strayUpdateCtx) / 32) = Reg.mgtUpdStat ∧ (224 + strayUpdateCtx) % 32 = 0 := by decide

/-- An image of 20 bytes whose header agrees with its length, for every revision of the module. -/
def shortImage : List Byte := [0xA0, 0xF1, 0x32, 0x5B, 0, 0, 0, 0, 20, 0, 0, 0, 0, 0, 0, 0, 0, 0, 0, 0]

/-- The block up and its firmware ready, a session under verification whose completion is owed to a context that does not exist, and
that context's source routed to HC0. -/
def strayUpdate : State :=
  { (({ State.reset with life := .up } : State).wr (Reg.evtRoute (224 + strayUpdateCtx)) 1).wr Reg.mgtUpdStat 3 with
    mgt := { State.reset.mgt with fw := .ready, update := some { ctx := 0, length := 20, bank := 1, data := shortImage, restart := false } }
    deferred := [{ ctx := strayUpdateCtx, op := 0x0803, tag := 0, idx := 0 }] }

/-- The state of the update session that an outcome leaves. -/
def outcomeUpd (o : Outcome State Fault Refusal) : Nat :=
  match o with
  | .next t => t.updState
  | _ => 0

theorem updateVerifyDone_strayUpdate_updState : outcomeUpd (exec (.updateVerifyDone true) strayUpdate) = 5 := by decide +kernel

end Sys2Proof.Machine

open Sys2Proof Sys2Proof.Machine

/-- Refutes O45: with a session whose deferred completion belongs to a context that does not exist (`strayUpdate`), the session's state
reads 5 after a verification that holds, and not 4. `State.cmd` runs no command of such a context, so none defers a completion for it;
but the statement speaks of every state and does not ask that of it. -/
theorem not_firmwareEventsComplete : ¬ Obligations.FirmwareEventsComplete := by
  unfold Obligations.FirmwareEventsComplete
  intro hAll
  obtain ⟨-, hVerify, -⟩ := hAll strayUpdate
  obtain ⟨-, hStaged, -⟩ := hVerify _ rfl rfl (by decide +kernel)
  obtain ⟨t, hExec, hState, -⟩ := hStaged (by decide) (by decide) (by decide) (by decide +kernel)
  have hFive : outcomeUpd (.next t) = 5 := by
    rw [← updateVerifyDone_strayUpdate_updState, hExec]
    rfl
  exact absurd (hFive.symm.trans hState) (by decide)

end

section
/-! R385 to R409: the management commands. -/

namespace Sys2Proof.Machine

open Host

/-! What a deferred completion leaves. -/

/-- A reading that registers, contexts and sources leave, a reply leaves. -/
theorem OffQueues.reply {α : Type} {π : State → α} (hπ : OffQueues π) (s : State) (c op tag st : Nat) (ps : List Nat) (d : Bool) :
    π (s.reply c op tag st ps d) = π s := by
  have hTail (t : State) : π (t.syncTail c) = π t := by
    unfold State.syncTail
    exact ite_keeps π (hπ.wr t _ _) rfl
  unfold State.reply
  refine ite_keeps π (ite_keeps π ?_ ?_) ?_
  · rw [hπ.raise, hTail, hπ.onCx]
  · rw [hTail, hπ.onCx]
  · rw [hπ.raise, hπ.onCx]

theorem OffQueues.complete {α : Type} {π : State → α} (hπ : OffQueues π) (hd : ∀ (t : State) l, π { t with deferred := l } = π t)
    (s : State) (op idx st : Nat) (ps : List Nat) : π (s.complete op idx st ps) = π s := by
  unfold State.complete
  split
  · rfl
  · rw [hπ.reply, hd]

/-- What of the management state the log does not hold. -/
theorem offQueues_unlogged : OffQueues fun s => s.mgt.unlogged where
  wr _ _ _ := rfl
  onCx _ _ _ := rfl
  onSw _ _ := rfl
  raise s n := (raise_noted_any s n).mgt

theorem complete_unlogged (s : State) (op idx st : Nat) (ps : List Nat) : (s.complete op idx st ps).mgt.unlogged = s.mgt.unlogged :=
  offQueues_unlogged.complete (fun _ _ => rfl) s op idx st ps

/-! An update session (R397). -/

theorem Noted.update {A : Nat → Prop} {s t : State} (h : Noted A s t) : t.mgt.update = s.mgt.update :=
  (congrArg Mgt.update h.mgt : t.mgt.unlogged.update = s.mgt.unlogged.update)

theorem complete_update (s : State) (op idx st : Nat) (ps : List Nat) : (s.complete op idx st ps).mgt.update = s.mgt.update :=
  (congrArg Mgt.update (complete_unlogged s op idx st ps) : (s.complete op idx st ps).mgt.unlogged.update = s.mgt.unlogged.update)

section
variable (s : State)

/-- What the session's change of state changes: MGT_UPD_STAT, the log and event registers. -/
theorem setUpd_noted (n got : Nat) : Noted (fun a => a = Reg.mgtUpdStat ∨ EvtReg a) s (s.setUpd n got) := by
  have hset := (Noted.setFld (A := fun a => a = Reg.mgtUpdStat ∨ EvtReg a) s 0 3 n (.inl rfl)).trans
    (Noted.setFld (s.setFld Reg.mgtUpdStat 0 3 n) 8 24 (got / 256) (.inl rfl))
  have hraise := (raiseFw_noted ((s.setFld Reg.mgtUpdStat 0 3 n).setFld Reg.mgtUpdStat 8 24 (got / 256)) (n := 252) (by decide)).mono
    (B := fun a => a = Reg.mgtUpdStat ∨ EvtReg a) fun _ => .inr
  exact (hset.trans hraise).trans ((logRec_noted _ _ _ _).mono fun _ => .inr)

theorem updStat_not_evtReg : ¬ EvtReg Reg.mgtUpdStat := not_evtReg_of_le (by decide)

theorem setUpd_updState {n : Nat} (hn : n < 8) (got : Nat) : (s.setUpd n got).updState = n := by
  unfold State.setUpd State.updState
  rw [(logRec_noted _ _ _ _).fld updStat_not_evtReg, (raiseFw_noted _ (by decide)).fld updStat_not_evtReg,
    fld_setFld_of_disjoint _ _ _ (by decide) (by decide), fld_setFld_self _ _ _ (by decide)]
  exact Nat.mod_eq_of_lt hn

theorem setUpd_update (n got : Nat) : (s.setUpd n got).mgt.update = s.mgt.update :=
  (setUpd_noted s n got).update

theorem defers_mgt (d : Deferred) : (s.defers d).mgt = s.mgt := (rfl)

theorem defers_updState (d : Deferred) : (s.defers d).updState = s.updState := (rfl)

/-- An aborted session is gone. -/
theorem abortUpdate_update : s.abortUpdate.mgt.update = none := by
  unfold State.abortUpdate
  split
  next hnone => exact hnone
  next u =>
    rw [(logRec_noted _ _ _ _).update, (raiseFw_noted _ (by decide)).update, State.setFld_mgt, State.setFld_mgt, complete_update,
      complete_update]
    rfl

end

/-! Each command. -/

section
variable {s : State} {h : CmdHdr}

theorem exec_sysGet (ha : Admitted s h 0x0001 { role := .any }) :
    exec (.sysGet h) s = .next ((s.receive h 0x0001).reply h.ctx 0x0001 h.tag St.ok
      [((s.receive h 0x0001).rd Reg.sysId).toNat, ((s.receive h 0x0001).rd Reg.sysRev).toNat, (s.receive h 0x0001).feat.toNat,
       (s.receive h 0x0001).serial, ((s.receive h 0x0001).rd Reg.mgtBootCause).toNat, (s.receive h 0x0001).fwVer.toNat] false) :=
  cmd_answers ha rfl rfl (List.cons_ne_nil _ _)

theorem exec_sensorGet (ha : Admitted s h 0x0002 { role := .any }) :
    exec (.sensorGet h) s = .next ((s.receive h 0x0002).reply h.ctx 0x0002 h.tag St.ok
      ((List.range 12).map (fun i => ((s.receive h 0x0002).rd (Reg.mgtTemp i)).toNat) ++ [((s.receive h 0x0002).rd Reg.mgtOven).toNat]
        ++ (List.range 9).map (fun i => ((s.receive h 0x0002).rd (Reg.mgtRail i)).toNat)
        ++ [((s.receive h 0x0002).rd Reg.mgtFeedA).toNat, ((s.receive h 0x0002).rd Reg.mgtFeedB).toNat,
            ((s.receive h 0x0002).rd Reg.mgtBus).toNat, (s.receive h 0x0002).feedStat.toNat]) false) :=
  cmd_answers ha rfl rfl (List.append_ne_nil_of_right_ne_nil _ (List.cons_ne_nil _ _))

theorem exec_feedForce {sel : Nat} (hsel : sel = 1 ∨ sel = 2) (hok : (s.receive h 0x0881).feedOk (sel == 2) = true)
    (ha : Admitted s h 0x0881 { role := .prin, reins := [0] }) :
    exec (.feedForce h sel) s = .next (((s.receive h 0x0881).handTo (sel == 2)).answerOk h 0x0881 []) :=
  cmd_done ha (by rw [firstBad_one (decide_eq_true hsel)]) (if_pos hok)

theorem exec_freeze (hen : (s.receive h 0x0910).bitAt Reg.sysFreezeEn 0 = true) (ha : Admitted s h 0x0910 { role := .prin, reins := [0] }) :
    exec (.freeze h) s = .next (((s.receive h 0x0910).onMgt fun m =>
      { m with freezeAt := some ((s.receive h 0x0910).now + 1250000) }).answerOk h 0x0910 []) :=
  cmd_done ha rfl (if_pos hen)

/-- The session that UPDATE_BEGIN opens: the other bank is erased for it. -/
def State.beginUpdate (s : State) (c n : Nat) : State :=
  (s.onMgt fun m => { m with update := some { ctx := c, length := n, bank := 1 - s.mgt.fwBank, data := [], restart := false },
                             fwBanks := Tab.set (fun _ => {}) m.fwBanks (1 - s.mgt.fwBank) {} }).setUpd 1 0

theorem beginUpdate_reads (s : State) (c n : Nat) (d : Deferred) {u : State} (hu : u = (s.beginUpdate c n).defers d) :
    u.mgt.update = some { ctx := c, length := n, bank := 1 - s.mgt.fwBank, data := [], restart := false } ∧ u.updState = 1 ∧
      d ∈ u.deferred := by
  subst hu
  refine ⟨?_, ?_, mem_defers _ d⟩
  · rw [defers_mgt, State.beginUpdate, setUpd_update]
    rfl
  · rw [defers_updState, State.beginUpdate, setUpd_updState _ (by decide)]

theorem exec_updateBegin {n : Nat} (hn : n ≤ 8388608) (hnone : (s.receive h 0x0801).mgt.update = none)
    (himage : (s.receive h 0x0801).bitAt Reg.mgtStat 1 = true ∨
      ((s.receive h 0x0801).mgt.fwb (s.receive h 0x0801).mgt.fwBank).confirmed = true)
    (hbusy : (s.receive h 0x0801).storeBusy = false) (ha : Admitted s h 0x0801 { role := .prin, reins := [16] }) :
    exec (.updateBegin h n) s = .next ((((s.receive h 0x0801).beginUpdate h.ctx n).defers
      { ctx := h.ctx, op := 0x0801, tag := h.tag, idx := 0 }).reply h.ctx 0x0801 h.tag St.accepted [] false) := by
  refine cmd_accepted ha (by rw [firstBad_one (decide_eq_true hn)]) ((if_neg ?_).trans (if_neg ?_))
  · rw [hnone]
    rcases himage with himage | himage <;> rw [himage] <;>
      simp only [Option.isSome_none, Bool.not_true, Bool.false_and, Bool.and_false, Bool.or_self, Bool.false_eq_true, not_false_eq_true]
  · rw [hbusy]
    decide

theorem exec_updateData {data : List Byte} {u : Update} (hu : (s.receive h 0x0802).mgt.update = some u)
    (hstate : (s.receive h 0x0802).updState = 2) (h1 : 1 ≤ data.length) (hmax : data.length ≤ 4064)
    (hfit : u.data.length + data.length ≤ u.length) (ha : Admitted s h 0x0802 { role := .prin, reins := [16] }) :
    exec (.updateData h u.data.length data) s = .next ((((s.receive h 0x0802).onMgt fun m =>
      { m with update := some { u with data := u.data ++ data } }).setFld Reg.mgtUpdStat 8 24 ((u.data.length + data.length) / 256)).answerOk
        h 0x0802 []) := by
  refine cmd_done ha ?_ ?_
  · rw [hu]
    simp only [firstBad, h1, hmax, hfit, and_self, or_true, decide_true, if_true]
  · rw [hu]
    exact (if_neg (not_not.mpr hstate)).trans (if_neg (not_not.mpr rfl))

/-- The session under verification. -/
def State.commitUpdate (s : State) (u : Update) (restart : Bool) : State :=
  (s.onMgt fun m => { m with update := some { u with restart := restart } }).setUpd 3 u.data.length

theorem commitUpdate_reads (s : State) (u : Update) (restart : Bool) (d : Deferred) {v : State}
    (hv : v = (s.commitUpdate u restart).defers d) : v.mgt.update = some { u with restart := restart } ∧ v.updState = 3 := by
  subst hv
  refine ⟨?_, ?_⟩
  · rw [defers_mgt, State.commitUpdate, setUpd_update]
    rfl
  · rw [defers_updState, State.commitUpdate, setUpd_updState _ (by decide)]

theorem exec_updateCommit {restart : Bool} {u : Update} (hu : (s.receive h 0x0803).mgt.update = some u)
    (hstate : (s.receive h 0x0803).updState = 2) (ha : Admitted s h 0x0803 { role := .prin, reins := [16] }) :
    exec (.updateCommit h restart) s = .next ((((s.receive h 0x0803).commitUpdate u restart).defers
      { ctx := h.ctx, op := 0x0803, tag := h.tag, idx := 0 }).reply h.ctx 0x0803 h.tag St.accepted [] false) := by
  refine cmd_accepted ha rfl ?_
  rw [hu]
  exact if_neg (not_not.mpr hstate)

theorem exec_updateAbort (hsome : (s.receive h 0x0804).mgt.update.isSome = true) (ha : Admitted s h 0x0804 { role := .prin, reins := [16] }) :
    exec (.updateAbort h) s = .next ((s.receive h 0x0804).abortUpdate.answerOk h 0x0804 []) :=
  cmd_done ha rfl (if_pos hsome)

theorem exec_updateStatusGet (ha : Admitted s h 0x0805 { role := .any }) :
    exec (.updateStatusGet h) s = .next ((s.receive h 0x0805).reply h.ctx 0x0805 h.tag St.ok
      (((s.receive h 0x0805).rd Reg.mgtUpdStat).toNat :: [0, 1].flatMap fun b =>
        [((s.receive h 0x0805).mgt.fwb b).major * 256 + ((s.receive h 0x0805).mgt.fwb b).minor, ((s.receive h 0x0805).mgt.fwb b).seq,
         b2n ((s.receive h 0x0805).mgt.fwb b).confirmed]) false) :=
  cmd_answers ha rfl rfl (List.cons_ne_nil _ _)

theorem exec_cfgSave (hbusy : (s.receive h 0x0810).storeBusy = false) (ha : Admitted s h 0x0810 { reins := [16] }) :
    exec (.cfgSave h) s = .next ((((s.receive h 0x0810).onMgt fun m => { m with job := some (.config (otherBank m.cfgWinner)) }).defers
      { ctx := h.ctx, op := 0x0810, tag := h.tag, idx := 0 }).reply h.ctx 0x0810 h.tag St.accepted [] false) :=
  cmd_accepted ha rfl (if_neg (by rw [hbusy]; decide))

theorem exec_cfgFactory (hbusy : (s.receive h 0x0812).storeBusy = false) (ha : Admitted s h 0x0812 { role := .prin, reins := [16] }) :
    exec (.cfgFactory h) s = .next (((s.receive h 0x0812).onMgt fun m =>
      { m with job := some (.factory (otherBank m.cfgWinner)) }).answerOk h 0x0812 []) :=
  cmd_done ha rfl (if_neg (by rw [hbusy]; decide))

theorem exec_storeStatusGet (ha : Admitted s h 0x0813 { role := .any }) :
    exec (.storeStatusGet h) s = .next ((s.receive h 0x0813).reply h.ctx 0x0813 h.tag St.ok
      [(s.receive h 0x0813).storeStat.toNat, ((s.receive h 0x0813).mgt.fwb 0).seq, ((s.receive h 0x0813).mgt.fwb 1).seq,
       ((s.receive h 0x0813).mgt.cfgb 0).seq, ((s.receive h 0x0813).mgt.cfgb 1).seq, Config.calSeq 0, Config.calSeq 1,
       ((s.receive h 0x0813).mgt.svb 0).seq, ((s.receive h 0x0813).mgt.svb 1).seq] false) :=
  cmd_answers ha rfl rfl (List.cons_ne_nil _ _)

/-- The record asked for is there, so the answer has words. -/
theorem exec_logRead {first max : Nat} {r : LogRec} (h1 : 1 ≤ max) (h63 : max ≤ 63) (hr : r ∈ (s.receive h 0x0820).mgt.log)
    (hseq : r.seq = first) (ha : Admitted s h 0x0820 { role := .any }) :
    exec (.logRead h first max) s = .next ((s.receive h 0x0820).reply h.ctx 0x0820 h.tag St.ok
      ((((s.receive h 0x0820).mgt.log.filter fun r => decide (first ≤ r.seq)).take max).flatMap LogRec.words) false) := by
  refine cmd_answers ha (by rw [firstBad_one (decide_eq_true ⟨h1, h63⟩)]) (if_pos (List.any_eq_true.mpr ⟨r, hr, decide_eq_true hseq⟩)) ?_
  have hmem : r ∈ (s.receive h 0x0820).mgt.log.filter fun r => decide (first ≤ r.seq) :=
    List.mem_filter.mpr ⟨hr, decide_eq_true (Nat.le_of_eq hseq.symm)⟩
  cases hlist : (s.receive h 0x0820).mgt.log.filter fun r => decide (first ≤ r.seq) with
  | nil => rw [hlist] at hmem; nomatch hmem
  | cons x xs =>
    obtain ⟨k, rfl⟩ : ∃ k, max = k + 1 := ⟨max - 1, by omega⟩
    exact List.cons_ne_nil _ _

theorem exec_logSet (mask : BitVec 256) (ha : Admitted s h 0x0821 { reins := [16] }) :
    exec (.logSet h mask) s = .next (((s.receive h 0x0821).onMgt fun m => { m with logMask := mask }).answerOk h 0x0821 []) :=
  cmd_done ha rfl rfl

end

end Sys2Proof.Machine

open Sys2Proof Sys2Proof.Machine

/-- Settles O44: each command by its own equation, with what a session reads after its change of state. -/
theorem managementCommandsComplete : Obligations.ManagementCommandsComplete := by
  refine fun s h => ⟨?_, ?_, ?_, ?_, ?_, ?_, ?_, ?_, ?_, ?_, ?_, ?_, ?_, ?_⟩
  · exact exec_sysGet
  · exact exec_sensorGet
  · exact fun sel hsel hok ha => exec_feedForce hsel hok ha
  · exact exec_freeze
  · exact fun n hn hnone himage hbusy ha => ⟨_, exec_updateBegin hn hnone himage hbusy ha, beginUpdate_reads _ _ n _ rfl⟩
  · exact fun data u hu hstate h1 hmax hfit ha => exec_updateData hu hstate h1 hmax hfit ha
  · exact fun restart u hu hstate ha => ⟨_, exec_updateCommit hu hstate ha, commitUpdate_reads _ u restart _ rfl⟩
  · exact fun hsome ha => ⟨exec_updateAbort hsome ha, abortUpdate_update _⟩
  · exact exec_updateStatusGet
  · exact fun hbusy ha => ⟨_, exec_cfgSave hbusy ha, rfl, mem_defers _ _⟩
  · exact exec_cfgFactory
  · exact exec_storeStatusGet
  · exact fun first max r h1 h63 hr hseq ha => exec_logRead h1 h63 hr hseq ha
  · exact fun mask ha => exec_logSet mask ha

end

section
/-! R240, R382 to R388, R403, R404, R420: power, feeds, resets and freezes. -/

namespace Sys2Proof.Machine

open Host

theorem powered_of_ne {s : State} (h : s.life ≠ .unpowered) : s.powered = true := decide_eq_true h

/-! Power comes and goes (R240, R383, R384). -/

/-- The block as power comes up: FEED_A's converter where that feed is in its window, else FEED_B's. -/
def State.poweredUp (s : State) (a b : Nat) (okA : Bool) : State :=
  ((((s.fresh [] 0 0 0).cause 0).wr (Reg.clkSynStat 6) (w32 (2 + 80 * 512))).wr (Reg.clkSynStat 7) (w32 (2 + 512 * 512))).onMgt fun m =>
    { m with feedA := a, feedB := b, activeB := !okA, busOk := true, handover := false, forced := false,
             cutA := decide (33000 < a), cutB := decide (33000 < b) }

section
variable (s : State) {a b : Nat}

theorem inWindow_false {v : Nat} (h : v < 19200 ∨ 30000 < v) : decide (19200 ≤ v ∧ v ≤ 30000) = false :=
  decide_eq_false fun ⟨hlo, hhi⟩ => by omega

theorem exec_powerUp_A (hoff : s.life = .unpowered) (hlo : 19200 ≤ a) (hhi : a ≤ 30000) :
    exec (.powerUp a b) s = .next (s.poweredUp a b true) := by
  have hA : decide (19200 ≤ a ∧ a ≤ 30000) = true := decide_eq_true ⟨hlo, hhi⟩
  refine congrArg _ ((if_pos ?_).trans ?_)
  · rw [hoff, hA]
    rfl
  · rw [hA]
    rfl

theorem exec_powerUp_B (hoff : s.life = .unpowered) (ha : a < 19200 ∨ 30000 < a) (hlo : 19200 ≤ b) (hhi : b ≤ 30000) :
    exec (.powerUp a b) s = .next (s.poweredUp a b false) := by
  have hB : decide (19200 ≤ b ∧ b ≤ 30000) = true := decide_eq_true ⟨hlo, hhi⟩
  refine congrArg _ ((if_pos ?_).trans ?_)
  · rw [hoff, hB, inWindow_false ha]
    rfl
  · rw [inWindow_false ha]
    rfl

theorem exec_powerUp_none (ha : a < 19200 ∨ 30000 < a) (hb : b < 19200 ∨ 30000 < b) : exec (.powerUp a b) s = .next s := by
  refine congrArg _ (if_neg ?_)
  rw [inWindow_false ha, inWindow_false hb, Bool.or_self, Bool.and_false]
  decide

theorem poweredUp_rd (a b : Nat) (okA : Bool) (x : Nat) : (s.poweredUp a b okA).rd x
    = ((((s.fresh [] 0 0 0).cause 0).wr (Reg.clkSynStat 6) (w32 (2 + 80 * 512))).wr (Reg.clkSynStat 7) (w32 (2 + 512 * 512))).rd x := (rfl)

theorem poweredUp_bootCause (a b : Nat) (okA : Bool) : (s.poweredUp a b okA).rd Reg.mgtBootCause = 0 := by
  rw [poweredUp_rd, State.rd_wr, if_neg (by decide), State.rd_wr, if_neg (by decide), State.cause, State.rd_wr_self]
  rfl

theorem poweredUp_coreSynth (a b : Nat) (okA : Bool) : (s.poweredUp a b okA).fld (Reg.clkSynStat 6) 0 2 = 2 := by
  rw [State.fld, poweredUp_rd, State.rd_wr, if_neg (by decide), State.rd_wr_self]
  decide

theorem poweredUp_dramSynth (a b : Nat) (okA : Bool) : (s.poweredUp a b okA).fld (Reg.clkSynStat 7) 0 2 = 2 := by
  rw [State.fld, poweredUp_rd, State.rd_wr_self]
  decide

theorem cutShort_log (m : Mgt) : m.cutShort.log = m.log := by
  unfold Mgt.cutShort
  split <;> (dsimp only; split <;> rfl)

theorem powerLost_log : s.powerLost.mgt.log = s.mgt.log := cutShort_log s.mgt

theorem exec_lossOfPower (h : s.life ≠ .unpowered) : exec .lossOfPower s = .next s.powerLost := congrArg _ (if_neg h)

end

/-! Resets and freezes (R386, R388, R403, R404). -/

section
variable (s : State)

theorem exec_rstNAssert_up {ns : Nat} (hns : 1000 ≤ ns) (hup : s.life = .up) : exec (.rstNAssert ns) s = .next (s.moduleReset 1) := by
  refine congrArg _ ((if_neg (Nat.not_lt.mpr hns)).trans ?_)
  rw [hup]

theorem exec_rstNAssert_frozen {ns : Nat} (hns : 1000 ≤ ns) (hfrozen : s.life = .frozen) : exec (.rstNAssert ns) s = .next s.freezeExit := by
  refine congrArg _ ((if_neg (Nat.not_lt.mpr hns)).trans ?_)
  rw [hfrozen]

theorem exec_resetHoldEnd (straps : BitVec 4) (hheld : s.life = .held) (hcore : s.bitAt (Reg.clkSynStat 6) 0 = true)
    (hdram : s.bitAt (Reg.clkSynStat 7) 0 = true) :
    exec (.resetHoldEnd straps) s = .next { s.onMgt (fun m => { m with pullups := ~~~straps }) with life := .up } :=
  congrArg _ (if_pos ⟨hheld, hcore, hdram⟩)

/-- FRZ_N asserted: it stands for its time, and triggers while the freeze is enabled. -/
def State.frzAsserted (s : State) (ns : Nat) : State :=
  let u := s.onMgt fun m => { m with frzUntil := s.now + (ns * 5 + 3) / 4 }
  if u.bitAt Reg.sysFreezeEn 0 then u.onMgt fun m => { m with freezeAt := some u.now } else u

theorem frzAsserted_freezeAt (ns : Nat) :
    (s.frzAsserted ns).mgt.freezeAt = if s.bitAt Reg.sysFreezeEn 0 then some s.now else s.mgt.freezeAt :=
  apply_ite (fun t : State => t.mgt.freezeAt) _ _ _

theorem exec_frzNAssert {ns : Nat} (hup : s.life = .up) (hns : 20 ≤ ns) : exec (.frzNAssert ns) s = .next (s.frzAsserted ns) :=
  (next_event hup _).trans (congrArg _ (if_neg (Nat.not_lt.mpr hns)))

theorem exec_freezeEnter {r : Nat} (hup : s.life = .up) (hat : s.mgt.freezeAt = some r) (hr : r ≤ s.now) :
    exec .freezeEnter s = .next { s with life := .frozen } := by
  refine (next_event hup _).trans (congrArg _ ?_)
  rw [hat]
  exact if_pos hr

end

/-! Feeds (R381, R384, R385, R420). -/

/-- A feed above the lockout: its converter is cut off (R420). -/
def Mgt.lockedOut (m : Mgt) (feed : Nat) : Mgt :=
  let m' := if feed = 0 then { m with cutA := true } else { m with cutB := true }
  if m.activeB = (feed == 1) then { m' with busOk := false } else m'

section
variable {s : State}

theorem exec_feedFailover (hon : s.life ≠ .unpowered) (hfail : s.mgt.failing = true) (hother : s.mgt.otherHere = true)
    (hone : s.mgt.handover = false) (regulates : Bool) :
    exec (.feedFailover regulates) s
      = .next (if regulates then s.onMgt fun m => { m with handover := true, forced := false, busOk := true } else s.powerLost) := by
  refine congrArg _ (if_pos ?_)
  rw [powered_of_ne hon, hfail, hother, hone]
  rfl

/-- The handover ends with the other converter active. -/
def State.handedOver (s : State) : State :=
  (((((s.onMgt fun m => { m with handover := false, forced := false, activeB := !s.mgt.activeB, busOk := true }).count Reg.mgtFailovers 13).stick
    Reg.mgtFeedStat 8).raise 6).raiseIf (decide (s.mgt.activeMv ≤ 17000)) (if s.mgt.activeB then 5 else 4))

/-- A forced handover whose converter does not regulate leaves the old one active. -/
def State.forceFailed (s : State) : State :=
  ((s.onMgt fun m => { m with handover := false, forced := false }).stick Reg.mgtFeedStat 9).raise 6

theorem feedStat_not_evtReg : ¬ EvtReg Reg.mgtFeedStat := not_evtReg_of_le (by decide)

theorem Noted.activeB {A : Nat → Prop} {t : State} (h : Noted A s t) : t.mgt.activeB = s.mgt.activeB :=
  (congrArg Mgt.activeB h.mgt : t.mgt.unlogged.activeB = s.mgt.unlogged.activeB)

theorem Noted.handover {A : Nat → Prop} {t : State} (h : Noted A s t) : t.mgt.handover = s.mgt.handover :=
  (congrArg Mgt.handover h.mgt : t.mgt.unlogged.handover = s.mgt.unlogged.handover)

theorem handedOver_noted (s : State) : Noted (fun a => a = Reg.mgtFailovers ∨ a = Reg.mgtFeedStat ∨ EvtReg a)
    (s.onMgt fun m => { m with handover := false, forced := false, activeB := !s.mgt.activeB, busOk := true }) s.handedOver := by
  have hlost : (if s.mgt.activeB then 5 else 4) < 256 := by split <;> decide
  unfold State.handedOver
  refine (((count_noted _ Reg.mgtFailovers (src := 13) (by decide)).mono ?_).trans (Noted.stick _ 8 (.inr (.inl rfl)))).trans ?_
  · exact fun a ha => ha.imp_right .inr
  · exact ((raise_noted _ (by decide)).trans (raiseIf_noted _ _ hlost)).mono fun _ ha => .inr (.inr ha)

theorem handedOver_bit (s : State) : s.handedOver.bitAt Reg.mgtFeedStat 8 = true := by
  have hlost : (if s.mgt.activeB then 5 else 4) < 256 := by split <;> decide
  unfold State.handedOver
  rw [(raiseIf_noted _ _ hlost).bitAt feedStat_not_evtReg, (raise_noted _ (by decide)).bitAt feedStat_not_evtReg]
  exact bitAt_stick_self _ _ (by decide)

theorem forceFailed_noted (s : State) : Noted (fun a => a = Reg.mgtFeedStat ∨ EvtReg a)
    (s.onMgt fun m => { m with handover := false, forced := false }) s.forceFailed :=
  (Noted.stick _ 9 (.inl rfl)).trans ((raise_noted _ (by decide)).mono fun _ => .inr)

theorem forceFailed_bit (s : State) : s.forceFailed.bitAt Reg.mgtFeedStat 9 = true := by
  unfold State.forceFailed
  rw [(raise_noted _ (by decide)).bitAt feedStat_not_evtReg]
  exact bitAt_stick_self _ _ (by decide)

section
variable (hon : s.life ≠ .unpowered)
include hon

section
variable (hover : s.mgt.handover = true)
include hover

theorem exec_feedHandoverComplete_regulates : exec (.feedHandoverComplete true) s = .next s.handedOver :=
  congrArg _ (if_pos (by rw [powered_of_ne hon, hover]; rfl))

theorem exec_feedHandoverComplete_fails : exec (.feedHandoverComplete false) s
    = .next (if s.mgt.forced then s.forceFailed else s.powerLost) :=
  congrArg _ (if_pos (by rw [powered_of_ne hon, hover]; rfl))

end

variable {feed : Nat} (hfeed : feed < 2)
include hfeed

theorem exec_feedPresenceChange (mv : Nat) : ∃ b c, exec (.feedPresenceChange feed mv) s
    = .next (((s.onMgt fun m => if feed = 0 then { m with feedA := mv } else { m with feedB := mv }).raiseIf b (4 + feed)).raiseIf c 7) :=
  ⟨_, _, (onUnit_of_lt hfeed _).trans (congrArg _ (if_pos (powered_of_ne hon)))⟩

omit hon in
/-- A lockout cuts its own feed off; the bus fails where that feed's converter is the active one. -/
theorem lockedOut_reads (m : Mgt) : (m.lockedOut feed).cutA = (if feed = 0 then true else m.cutA) ∧
    (m.lockedOut feed).cutB = (if feed = 0 then m.cutB else true) ∧
    (m.lockedOut feed).busOk = (if m.activeB = (feed == 1) then false else m.busOk) := by
  unfold Mgt.lockedOut
  rcases (show feed = 0 ∨ feed = 1 by omega) with rfl | rfl <;> cases m.activeB <;> exact ⟨rfl, rfl, rfl⟩

theorem exec_feedLockout : exec (.feedLockout feed) s = .next (s.onMgt fun m => m.lockedOut feed) :=
  (onUnit_of_lt hfeed _).trans (congrArg _ (if_pos (powered_of_ne hon)))

theorem exec_feedLockoutEnd : exec (.feedLockoutEnd feed) s = .next (s.onMgt fun m =>
    if feed = 0 then { m with cutA := false } else { m with cutB := false }) :=
  (onUnit_of_lt hfeed _).trans (congrArg _ (if_pos (powered_of_ne hon)))

end

theorem feeds_of_raised (t : State) (b c : Bool) {m n : Nat} (hm : m < 256) (hn : n < 256) :
    ((t.raiseIf b m).raiseIf c n).mgt.feedA = t.mgt.feedA ∧ ((t.raiseIf b m).raiseIf c n).mgt.feedB = t.mgt.feedB := by
  have h : ((t.raiseIf b m).raiseIf c n).mgt.unlogged = t.mgt.unlogged := ((raiseIf_noted t b hm).trans (raiseIf_noted _ c hn)).mgt
  have hA : ((t.raiseIf b m).raiseIf c n).mgt.unlogged.feedA = t.mgt.unlogged.feedA := congrArg Mgt.feedA h
  have hB : ((t.raiseIf b m).raiseIf c n).mgt.unlogged.feedB = t.mgt.unlogged.feedB := congrArg Mgt.feedB h
  exact ⟨hA, hB⟩

end

end Sys2Proof.Machine

open Sys2Proof Sys2Proof.Machine

/-- Settles O46: each event by its own equation, with what power, a handover and a lockout leave. -/
theorem powerEventsComplete : Obligations.PowerEventsComplete := by
  refine fun s => ⟨?_, ?_, ?_, ?_, ?_, ?_, ?_, ?_, ?_, ?_, ?_, ?_, ?_, ?_, ?_⟩
  · exact fun ns hns => ⟨exec_rstNAssert_up s hns, exec_rstNAssert_frozen s hns⟩
  · exact fun a b hoff hlo hhi => ⟨_, exec_powerUp_A s hoff hlo hhi, rfl, rfl, rfl, rfl, poweredUp_bootCause s a b true, rfl, rfl,
      poweredUp_coreSynth s a b true, poweredUp_dramSynth s a b true⟩
  · exact fun a b hoff ha hlo hhi => ⟨_, exec_powerUp_B s hoff ha hlo hhi, rfl, rfl, rfl, rfl⟩
  · exact fun a b ha hb => exec_powerUp_none s ha hb
  · exact exec_lossOfPower s
  · exact ⟨rfl, powerLost_log s, rfl, rfl⟩
  · exact fun straps hheld hcore hdram => exec_resetHoldEnd s straps hheld hcore hdram
  · exact fun ns hup hns => ⟨_, exec_frzNAssert s hup hns, frzAsserted_freezeAt s ns⟩
  · exact fun r hup hat hr => exec_freezeEnter s hup hat hr
  · exact fun i hup hi => onUnit_event hi hup _
  · exact fun hon hfail hother hone => ⟨exec_feedFailover hon hfail hother hone true, exec_feedFailover hon hfail hother hone false⟩
  · refine fun hon hover => ⟨⟨_, exec_feedHandoverComplete_regulates hon hover, ?_, ?_, handedOver_bit s⟩, fun hforced =>
      ⟨_, ?_, (forceFailed_noted s).activeB, (forceFailed_noted s).handover, forceFailed_bit s⟩, fun hforced => ?_⟩
    · exact (handedOver_noted s).activeB
    · exact (handedOver_noted s).handover
    · rw [exec_feedHandoverComplete_fails hon hover, if_pos hforced]
    · rw [exec_feedHandoverComplete_fails hon hover, hforced]
      rfl
  · intro feed mv hon hfeed
    obtain ⟨b, c, hexec⟩ := exec_feedPresenceChange hon hfeed mv
    obtain ⟨hA, hB⟩ := feeds_of_raised (s.onMgt fun m => if feed = 0 then { m with feedA := mv } else { m with feedB := mv }) b c
      (m := 4 + feed) (n := 7) (by omega) (by decide)
    exact ⟨_, hexec, hA.trans (apply_ite Mgt.feedA _ _ _), hB.trans (apply_ite Mgt.feedB _ _ _)⟩
  · intro feed hon hfeed
    exact ⟨_, exec_feedLockout hon hfeed, lockedOut_reads hfeed s.mgt⟩
  · exact fun feed hon hfeed => exec_feedLockoutEnd hon hfeed

end

section
/-! R335, R354, R366, R371: the register and event commands. -/

namespace Sys2Proof.Machine

open Host

/-! A run of writes to registers that differ. -/

theorem freshBits_wr (s : State) (a : Nat) (v : Word) (b : Nat) : (s.wr a v).freshBits b = s.freshBits b := rfl

section
variable {s : State} {addr : Nat → Nat} {w : State → Nat → Word} {val : Nat → Word} {m : Nat}

/-- After writes to `n` registers that differ, each of a value that what stood there determines: those registers read their values,
every other register stands. -/
theorem foldl_wr_reads (hinj : ∀ i < m, ∀ j < m, addr i = addr j → i = j)
    (hw : ∀ t : State, ∀ j < m, t.freshBits (addr j) = s.freshBits (addr j) → t.rd (addr j) = s.rd (addr j) → w t j = val j) :
    ∀ n ≤ m, (∀ j < n, ((List.range n).foldl (fun t j => t.wr (addr j) (w t j)) s).rd (addr j) = val j) ∧
      (∀ a, (∀ j < n, a ≠ addr j) → ((List.range n).foldl (fun t j => t.wr (addr j) (w t j)) s).rd a = s.rd a) ∧
      ∀ a, ((List.range n).foldl (fun t j => t.wr (addr j) (w t j)) s).freshBits a = s.freshBits a := by
  intro n
  induction n with
  | zero => exact fun _ => ⟨fun j hj => absurd hj (Nat.not_lt_zero j), fun _ _ => rfl, fun _ => rfl⟩
  | succ n ih =>
    intro hn
    obtain ⟨hvals, hrest, hfresh⟩ := ih (by omega)
    rw [List.range_succ, List.foldl_append]
    have hnew : ∀ j < n, addr n ≠ addr j := fun j hj heq => absurd (hinj n (by omega) j (by omega) heq) (by omega)
    refine ⟨fun j hj => ?_, fun a ha => ?_, fun a => hfresh a⟩
    · rw [List.foldl_cons, List.foldl_nil, State.rd_wr]
      rcases Nat.lt_succ_iff_lt_or_eq.mp hj with hlt | rfl
      · rw [if_neg (hnew j hlt).symm, hvals j hlt]
      · rw [if_pos rfl, hw _ j hn (hfresh _) (hrest _ hnew)]
    · rw [List.foldl_cons, List.foldl_nil, State.rd_wr, if_neg (ha n (by omega)), hrest a fun j hj => ha j (by omega)]

end

theorem evtStat_index_inj (c : Nat) : ∀ i < 8, ∀ j < 8, Reg.evtStat c i = Reg.evtStat c j → i = j := by
  intro i _ j _ h
  unfold Reg.evtStat at h
  omega

theorem evtMask_index_inj (c : Nat) : ∀ i < 8, ∀ j < 8, Reg.evtMask c i = Reg.evtMask c j → i = j := by
  intro i _ j _ h
  unfold Reg.evtMask at h
  omega

theorem evtRoute_index_inj (first n : Nat) : ∀ i < n, ∀ j < n, Reg.evtRoute (first + i) = Reg.evtRoute (first + j) → i = j := by
  intro i _ j _ h
  unfold Reg.evtRoute at h
  omega

/-! What the event commands leave. -/

/-- A context's status bits cleared, but for those set in this tick (R367, R370). -/
def State.clearEvents (s : State) (c : Nat) (bits : List Word) : State :=
  (List.range 8).foldl (fun u j =>
    u.wr (Reg.evtStat c j) (u.rd (Reg.evtStat c j) &&& ~~~(bits.getD j 0 &&& ~~~u.freshBits (Reg.evtStat c j)))) s

theorem clearEvents_reads (s : State) (c : Nat) (bits : List Word) :
    (∀ j < 8, (s.clearEvents c bits).rd (Reg.evtStat c j)
        = s.rd (Reg.evtStat c j) &&& ~~~(bits.getD j 0 &&& ~~~s.freshBits (Reg.evtStat c j))) ∧
      ∀ a, (∀ j < 8, a ≠ Reg.evtStat c j) → (s.clearEvents c bits).rd a = s.rd a := by
  obtain ⟨hvals, hrest, -⟩ := foldl_wr_reads (s := s) (evtStat_index_inj c)
    (w := fun u j => u.rd (Reg.evtStat c j) &&& ~~~(bits.getD j 0 &&& ~~~u.freshBits (Reg.evtStat c j)))
    (val := fun j => s.rd (Reg.evtStat c j) &&& ~~~(bits.getD j 0 &&& ~~~s.freshBits (Reg.evtStat c j)))
    (fun t j _ hfresh hrd => by rw [hfresh, hrd]) 8 (Nat.le_refl 8)
  exact ⟨hvals, hrest⟩

/-- A context's masks and delivery settings set; what was masked and is not any more may be delivered. -/
def State.setMasks (s : State) (c : Nat) (masks : List Word) (cfg : Word) : State :=
  ((List.range 8).foldl (fun u j => u.wr (Reg.evtMask c j) (masks.getD j 0)) (s.wr (Reg.evtCfg c) cfg)).deliver c (s.evtPending c)

theorem deliver_rd (s : State) (c : Nat) (b : Bool) (a : Nat) : (s.deliver c b).rd a = s.rd a :=
  (Noted.deliver (A := fun _ => False) s c b).rd a not_false

theorem setMasks_reads (s : State) (c : Nat) (masks : List Word) (cfg : Word) :
    (s.setMasks c masks cfg).rd (Reg.evtCfg c) = cfg ∧ (∀ j < 8, (s.setMasks c masks cfg).rd (Reg.evtMask c j) = masks.getD j 0) ∧
      ∀ j < 8, (s.setMasks c masks cfg).rd (Reg.evtStat c j) = s.rd (Reg.evtStat c j) := by
  obtain ⟨hvals, hrest, -⟩ := foldl_wr_reads (s := s.wr (Reg.evtCfg c) cfg) (evtMask_index_inj c) (w := fun _ j => masks.getD j 0)
    (val := fun j => masks.getD j 0) (fun _ _ _ _ _ => rfl) 8 (Nat.le_refl 8)
  refine ⟨?_, fun j hj => ?_, fun j hj => ?_⟩
  · rw [State.setMasks, deliver_rd, hrest, State.rd_wr_self]
    intro j hj
    unfold Reg.evtCfg Reg.evtMask
    omega
  · rw [State.setMasks, deliver_rd, hvals j hj]
  · rw [State.setMasks, deliver_rd, hrest, State.rd_wr, if_neg]
    · unfold Reg.evtStat Reg.evtCfg
      omega
    · intro k hk
      unfold Reg.evtStat Reg.evtMask
      omega

/-- The routes of sources in a row set (R367). -/
def State.setRoutes (s : State) (first : Nat) (routes : List Nat) : State :=
  (List.range routes.length).foldl (fun u i => u.setFld (Reg.evtRoute (first + i)) 0 8 (routes.getD i 0)) s

theorem setRoutes_reads (s : State) {first : Nat} {routes : List Nat} (hfirst : first + routes.length ≤ 256) (hsmall : ∀ r ∈ routes, r < 256) :
    (∀ i < routes.length, (s.setRoutes first routes).fld (Reg.evtRoute (first + i)) 0 8 = routes.getD i 0) ∧
      ∀ c j, c < 8 → j < 8 → (s.setRoutes first routes).rd (Reg.evtStat c j) = s.rd (Reg.evtStat c j) := by
  obtain ⟨hvals, hrest, -⟩ := foldl_wr_reads (s := s) (evtRoute_index_inj first routes.length)
    (w := fun u i => putFld (u.rd (Reg.evtRoute (first + i))) 0 8 (routes.getD i 0))
    (val := fun i => putFld (s.rd (Reg.evtRoute (first + i))) 0 8 (routes.getD i 0))
    (fun t j _ _ hrd => by rw [hrd]) routes.length (Nat.le_refl _)
  refine ⟨fun i hi => ?_, fun c j hc hj => hrest _ fun i hi => ?_⟩
  · have hr : routes.getD i 0 < 256 := by
      rw [List.getD_eq_getElem _ _ hi]
      exact hsmall _ (List.getElem_mem hi)
    refine (congrArg (fun x => getFld x 0 8) (hvals i hi)).trans ?_
    rw [getFld_putFld _ _ (by decide)]
    exact Nat.mod_eq_of_lt hr
  · unfold Reg.evtStat Reg.evtRoute
    omega

/-! Each command. -/

section
variable {s : State} {h : CmdHdr}

theorem busReads_ne (s : State) (c a : Nat) {n : Nat} (hn : 1 ≤ n) : (s.busReads c a n).2 ≠ [] := by
  cases n with
  | zero => omega
  | succ n => exact List.cons_ne_nil _ _

theorem exec_regRead (a : Nat) {n : Nat} (h1 : 1 ≤ n) (hmax : n ≤ 1018) (ha : Admitted s h 0x0901 { role := .any }) :
    exec (.regRead h a n) s
      = .next (((s.receive h 0x0901).busReads h.ctx a n).1.reply h.ctx 0x0901 h.tag St.ok ((s.receive h 0x0901).busReads h.ctx a n).2 false) :=
  cmd_answers ha (by rw [firstBad_one (decide_eq_true ⟨h1, hmax⟩)]) rfl (busReads_ne _ _ _ h1)

theorem exec_regWrite {ws : List (Nat × Word)} (h1 : 1 ≤ ws.length) (hmax : ws.length ≤ 509) (ha : Admitted s h 0x0902 {}) :
    exec (.regWrite h ws) s = .next (((s.receive h 0x0902).busWrites h.ctx ws).answerOk h 0x0902 []) :=
  cmd_done ha (by rw [firstBad_one (decide_eq_true ⟨h1, hmax⟩)]) rfl

theorem exec_evtGet (ha : Admitted s h 0x0903 { role := .any }) :
    exec (.evtGet h) s = .next ((s.receive h 0x0903).reply h.ctx 0x0903 h.tag St.ok
      ((List.range 8).map (fun j => ((s.receive h 0x0903).rd (Reg.evtStat h.ctx j)).toNat)
        ++ (List.range 8).map (fun j => ((s.receive h 0x0903).rd (Reg.evtMask h.ctx j)).toNat)
        ++ [((s.receive h 0x0903).rd (Reg.evtCfg h.ctx)).toNat]) false) :=
  cmd_answers ha rfl rfl (List.append_ne_nil_of_right_ne_nil _ (List.cons_ne_nil _ _))

theorem exec_evtClear {bits : List Word} (hlen : bits.length = 8) (ha : Admitted s h 0x0904 { role := .any }) :
    exec (.evtClear h bits) s = .next (((s.receive h 0x0904).clearEvents h.ctx bits).answerOk h 0x0904 []) :=
  cmd_done ha (by rw [firstBad_one (decide_eq_true hlen)]) rfl

theorem exec_evtMaskSet {masks : List Word} (cfg : Word) (hlen : masks.length = 8) (ha : Admitted s h 0x0905 { role := .any }) :
    exec (.evtMaskSet h masks cfg) s = .next (((s.receive h 0x0905).setMasks h.ctx masks cfg).answerOk h 0x0905 []) :=
  cmd_done ha (by rw [firstBad_one (decide_eq_true hlen)]) rfl

theorem exec_evtRouteSet {first : Nat} {routes : List Nat} (hfirst : first + routes.length ≤ 256) (h1 : 1 ≤ routes.length)
    (hsmall : ∀ r ∈ routes, r < 256) (ha : Admitted s h 0x0906 { reins := [0] }) :
    exec (.evtRouteSet h first routes) s = .next (((s.receive h 0x0906).setRoutes first routes).answerOk h 0x0906 []) := by
  have hall : (routes.all (decide <| · < 256)) = true := List.all_eq_true.mpr fun r hr => decide_eq_true (hsmall r hr)
  exact cmd_done ha (by simp only [firstBad, hfirst, h1, hall, decide_true, Bool.and_self, if_true]) rfl

end

end Sys2Proof.Machine

open Sys2Proof Sys2Proof.Machine

/-- Settles O48: each command by its own equation, with what a run of writes to its registers reads back. -/
theorem registerCommandsComplete : Obligations.RegisterCommandsComplete := by
  refine fun s h => ⟨?_, ?_, ?_, ?_, ?_, ?_⟩
  · exact fun a n h1 hmax ha => exec_regRead a h1 hmax ha
  · exact fun ws h1 hmax ha => exec_regWrite h1 hmax ha
  · exact exec_evtGet
  · exact fun bits hlen ha => ⟨_, exec_evtClear hlen ha, clearEvents_reads _ h.ctx bits⟩
  · exact fun masks cfg hlen ha => ⟨_, exec_evtMaskSet cfg hlen ha, setMasks_reads _ h.ctx masks cfg⟩
  · exact fun first routes hfirst h1 hsmall ha => ⟨_, exec_evtRouteSet hfirst h1 hsmall ha, setRoutes_reads _ hfirst hsmall⟩

end

section
/-! R9, R342, R352, R356, R361, R362: a context's register writes, by their gate and by the double-write guard. -/

namespace Sys2Proof.Machine

open Host

/-! A write on the bus. -/

/-- The state in which a write takes effect: a pending pair is broken, and a held low word dropped (R356, R362). -/
def State.written (s : State) (c : Nat) : State := s.onCx c fun x => { x with guard := none, heldLo := none }

theorem written_rd (s : State) (c a : Nat) : (s.written c).rd a = s.rd a := rfl

/-- No guarded register and not the word above one. -/
abbrev Unguarded (a : Nat) : Prop := guardRegs.contains a = false ∧ (a < 4 ∨ guardRegs.contains (a - 4) = false)

/-- What a write does that its register's own rules get (R342): `held` is the low word held for it, if any. -/
def State.writeAs (s : State) (c a : Nat) (v : Word) (r : Row) (i j : Nat) : State :=
  (s.written c).writeRow c a r i j (match (s.cx c).heldLo with
    | some (b, w) => if b + 4 = a then some w else none
    | none => none) v

section
variable (s : State) (c : Nat) {a : Nat} (v : Word)

theorem busWrite_unguarded (hfree : Unguarded a) {r : Row} {i j : Nat} (hreg : s.regAt a = some (r, i, j)) :
    s.busWrite c a v = if s.mayWrite c r i v then s.writeAs c a v r i j else s.written c := by
  obtain ⟨hguard, habove⟩ := hfree
  have hreg' : (s.onCx c fun x => { x with guard := none, heldLo := none }).regAt a = some (r, i, j) := hreg
  unfold State.busWrite State.busWriteAt
  dsimp only
  rw [if_neg (by rw [hguard]; decide), if_neg, hreg']
  · rfl
  · rintro ⟨h4, hcontains⟩
    rcases habove with hlow | habove
    · omega
    · rw [habove] at hcontains
      nomatch hcontains

variable {s c v} in
theorem busWrite_of_may (hfree : Unguarded a) {r : Row} {i j : Nat} (hreg : s.regAt a = some (r, i, j)) (hmay : s.mayWrite c r i v = true) :
    s.busWrite c a v = s.writeAs c a v r i j := by rw [busWrite_unguarded s c v hfree hreg, if_pos hmay]

theorem writeAs_plain {r : Row} (i j : Nat) (hact : r.act = .plain) :
    s.writeAs c a v r i j = (s.written c).wr a (r.merge (s.rd a) v (s.freshBits a)) := by
  unfold State.writeAs State.writeRow
  rw [hact]
  rfl

theorem writeAs_pairLo {r : Row} (i j : Nat) (hact : r.act = .pairLo) :
    s.writeAs c a v r i j = (s.written c).onCx c fun x => { x with heldLo := some (a, v) } := by
  unfold State.writeAs State.writeRow
  rw [hact]

end

/-! The double-write guard (R9, R361, R362). -/

section
variable {s : State} {c : Nat} (hprin : s.role c = .principal)
include hprin

/-- A PRINCIPAL's write of a guarded register starts a pair. -/
theorem busWrite_first {a : Nat} (v : Word) (hguard : guardRegs.contains a = true) :
    s.busWrite c a v = (s.written c).onCx c fun x => { x with guard := some { addr := a, value := v, raw := s.raw } } := by
  have hprin' : (s.onCx c fun x => { x with guard := none, heldLo := none }).role c = .principal := hprin
  unfold State.busWrite State.busWriteAt
  dsimp only
  rw [if_pos hguard, if_pos hprin']
  rfl

/-- A PRINCIPAL's write of the word above a guarded register completes a pair, or breaks it. -/
theorem busWrite_second {a : Nat} (v : Word) (habove : guardRegs.contains (a + 4) = false) (hguard : guardRegs.contains a = true) :
    s.busWrite c (a + 4) v = (s.written c).complement (s.cx c).guard a v s.raw := by
  have hprin' : (s.onCx c fun x => { x with guard := none, heldLo := none }).role c = .principal := hprin
  unfold State.busWrite State.busWriteAt
  dsimp only
  rw [if_neg (by rw [habove]; decide), Nat.add_sub_cancel, if_pos ⟨Nat.le_add_left 4 a, hguard⟩, if_pos hprin']
  rfl

variable {g : GuardPair} (hg : (s.cx c).guard = some g) (hnow : s.now ≤ g.raw.toNat + 1250000)
include hg hnow

/-- The complement within 1 ms acts. -/
theorem busWrite_complement {a : Nat} (habove : guardRegs.contains (a + 4) = false) (hguard : guardRegs.contains a = true) (haddr : g.addr = a) :
    s.busWrite c (a + 4) (~~~g.value) = (s.written c).guardEffect a g.value := by
  rw [busWrite_second hprin _ habove hguard, hg]
  exact if_pos ⟨haddr, rfl, hnow⟩

omit hnow in
/-- Another value breaks the pair. -/
theorem busWrite_broken {a : Nat} {x : Word} (habove : guardRegs.contains (a + 4) = false) (hguard : guardRegs.contains a = true)
    (hx : x ≠ ~~~g.value) : s.busWrite c (a + 4) x = s.written c := by
  rw [busWrite_second hprin _ habove hguard, hg]
  exact if_neg fun h => hx h.2.1

end

/-! What a pair of each register does: `u` is the state with the pair's record. -/

section
variable (s : State) (v : Word)

/-- The pair is recorded in the log (R395). -/
def State.recordPair (s : State) (a : Nat) (v : Word) : State := s.logRec 0x100 9 [a, v.toNat]

theorem recordPair_noted (a : Nat) : Noted EvtReg s (s.recordPair a v) := logRec_noted s _ _ _

/-- A freeze enable is written; a FRZ_N that stands asserted triggers as it becomes enabled (R403). -/
def State.enableFreeze (s : State) (v : Word) : State :=
  let t := s.wr Reg.sysFreezeEn v
  if !s.bitAt Reg.sysFreezeEn 0 && bit v 0 && decide (t.now < t.mgt.frzUntil) then t.onMgt fun m => { m with freezeAt := some t.now } else t

theorem guardEffect_moduleReset : s.guardEffect Reg.sysReset 1 = (s.recordPair Reg.sysReset 1).moduleReset 2 := by
  unfold State.guardEffect
  rw [if_pos rfl, if_pos rfl]
  rfl

theorem guardEffect_fwRestart : s.guardEffect Reg.sysReset 2 = (s.recordPair Reg.sysReset 2).fwRestart 5 := by
  unfold State.guardEffect
  rw [if_pos rfl, if_neg (by decide), if_pos rfl]
  rfl

theorem guardEffect_freezeEn : s.guardEffect Reg.sysFreezeEn v =
    if (s.recordPair Reg.sysFreezeEn v).bitAt Reg.sysFreezeEn 0 = bit v 0 then (s.recordPair Reg.sysFreezeEn v).enableFreeze v
    else ((s.recordPair Reg.sysFreezeEn v).enableFreeze v).raise 10 := by
  unfold State.guardEffect
  rw [if_neg (by decide), if_pos rfl]
  rfl

theorem guardEffect_unlock : s.guardEffect Reg.sysTapUnlock 1 =
    ({ (s.recordPair Reg.sysTapUnlock 1).wr Reg.sysTapUnlock 1 with
        tap := { (s.recordPair Reg.sysTapUnlock 1).tap with unlocked := true } } : State).raise 11 := by
  unfold State.guardEffect
  rw [if_neg (by decide), if_neg (by decide), if_pos rfl, if_pos rfl]
  rfl

theorem guardEffect_lock : s.guardEffect Reg.sysTapUnlock 0 =
    { (s.recordPair Reg.sysTapUnlock 0).wr Reg.sysTapUnlock 0 with
        tap := { (s.recordPair Reg.sysTapUnlock 0).tap with unlocked := false } } := by
  unfold State.guardEffect
  rw [if_neg (by decide), if_neg (by decide), if_pos rfl, if_neg (by decide), if_pos rfl]
  rfl

theorem guardEffect_epochReset : s.guardEffect Reg.tsuEpochReset 1 = (s.recordPair Reg.tsuEpochReset 1).epochReset := by
  unfold State.guardEffect
  rw [if_neg (by decide), if_neg (by decide), if_neg (by decide), if_pos rfl, if_pos rfl]
  rfl

theorem guardEffect_feedA : s.guardEffect Reg.mgtFeedForce 1 = (s.recordPair Reg.mgtFeedForce 1).handTo false := by
  unfold State.guardEffect
  rw [if_neg (by decide), if_neg (by decide), if_neg (by decide), if_neg (by decide), if_pos rfl, if_pos (by decide)]
  rfl

theorem guardEffect_feedB : s.guardEffect Reg.mgtFeedForce 2 = (s.recordPair Reg.mgtFeedForce 2).handTo true := by
  unfold State.guardEffect
  rw [if_neg (by decide), if_neg (by decide), if_neg (by decide), if_neg (by decide), if_pos rfl, if_neg (by decide), if_pos (by decide)]
  rfl

theorem guardEffect_laserOvr : s.guardEffect Reg.mgtLaserOvr v =
    if (s.recordPair Reg.mgtLaserOvr v).rd Reg.mgtLaserOvr = v then (s.recordPair Reg.mgtLaserOvr v).wr Reg.mgtLaserOvr v
    else ((s.recordPair Reg.mgtLaserOvr v).wr Reg.mgtLaserOvr v).raise 12 := by
  unfold State.guardEffect
  rw [if_neg (by decide), if_neg (by decide), if_neg (by decide), if_neg (by decide), if_neg (by decide), if_pos rfl]
  rfl

theorem guardEffect_storeErase : s.guardEffect Reg.memStoreErase v = (s.recordPair Reg.memStoreErase v).storeErase (getFld v 0 3) := by
  unfold State.guardEffect
  rw [if_neg (by decide), if_neg (by decide), if_neg (by decide), if_neg (by decide), if_neg (by decide), if_neg (by decide), if_pos rfl]
  rfl

/-! What they leave. -/

theorem enableFreeze_rd : (s.enableFreeze v).rd Reg.sysFreezeEn = v := by
  have hwr : (s.wr Reg.sysFreezeEn v).rd Reg.sysFreezeEn = v := State.rd_wr_self ..
  unfold State.enableFreeze
  dsimp only
  split <;> exact hwr

theorem enableFreeze_freezeAt (hoff : s.bitAt Reg.sysFreezeEn 0 = false) (hon : bit v 0 = true) (hstands : s.now < s.mgt.frzUntil) :
    (s.enableFreeze v).mgt.freezeAt = some s.now := by
  have hcond : (!s.bitAt Reg.sysFreezeEn 0 && bit v 0 && decide ((s.wr Reg.sysFreezeEn v).now < (s.wr Reg.sysFreezeEn v).mgt.frzUntil)) = true := by
    rw [hoff, hon]
    exact decide_eq_true hstands
  unfold State.enableFreeze
  rw [if_pos hcond]
  rfl

theorem Noted.freezeAt {A : Nat → Prop} {s t : State} (h : Noted A s t) : t.mgt.freezeAt = s.mgt.freezeAt :=
  (congrArg Mgt.freezeAt h.mgt : t.mgt.unlogged.freezeAt = s.mgt.unlogged.freezeAt)

theorem Noted.frzUntil {A : Nat → Prop} {s t : State} (h : Noted A s t) : t.mgt.frzUntil = s.mgt.frzUntil :=
  (congrArg Mgt.frzUntil h.mgt : t.mgt.unlogged.frzUntil = s.mgt.unlogged.frzUntil)

theorem freezeEn_not_evtReg : ¬ EvtReg Reg.sysFreezeEn := not_evtReg_of_lt (by decide)

/-- The enable's change is reported by source 10, which leaves it and the trigger. -/
theorem guardEffect_freezeEn_keeps {α : Type} (π : State → α) (hraise : ∀ t, π (State.raise t 10) = π t) :
    π (s.guardEffect Reg.sysFreezeEn v) = π ((s.recordPair Reg.sysFreezeEn v).enableFreeze v) := by
  rw [guardEffect_freezeEn]
  exact ite_keeps π rfl (hraise _)

theorem guardEffect_freezeEn_rd : (s.guardEffect Reg.sysFreezeEn v).rd Reg.sysFreezeEn = v :=
  (guardEffect_freezeEn_keeps s v (State.rd · Reg.sysFreezeEn) fun t => (raise_noted t (by decide)).rd _ freezeEn_not_evtReg).trans
    (enableFreeze_rd _ v)

theorem guardEffect_freezeEn_freezeAt (hoff : s.bitAt Reg.sysFreezeEn 0 = false) (hon : bit v 0 = true) (hstands : s.now < s.mgt.frzUntil) :
    (s.guardEffect Reg.sysFreezeEn v).mgt.freezeAt = some s.now := by
  have hrec := recordPair_noted s v Reg.sysFreezeEn
  refine (guardEffect_freezeEn_keeps s v (fun t => t.mgt.freezeAt) fun t => (raise_noted t (by decide)).freezeAt).trans ?_
  rw [enableFreeze_freezeAt _ v ((hrec.bitAt freezeEn_not_evtReg 0).trans hoff) hon (by rw [hrec.now, hrec.frzUntil]; exact hstands), hrec.now]

theorem guardEffect_unlock_tap : (s.guardEffect Reg.sysTapUnlock 1).tap.unlocked = true := by
  rw [guardEffect_unlock, (raise_noted _ (by decide)).tap]

theorem guardEffect_lock_tap : (s.guardEffect Reg.sysTapUnlock 0).tap.unlocked = false := by rw [guardEffect_lock]

theorem guardEffect_laserOvr_rd : (s.guardEffect Reg.mgtLaserOvr v).rd Reg.mgtLaserOvr = v := by
  have hraise (t : State) : (t.raise 12).rd Reg.mgtLaserOvr = t.rd Reg.mgtLaserOvr :=
    (raise_noted t (by decide)).rd _ (not_evtReg_of_le (by decide))
  rw [guardEffect_laserOvr]
  exact (ite_keeps (s := (s.recordPair Reg.mgtLaserOvr v).wr Reg.mgtLaserOvr v) (State.rd · Reg.mgtLaserOvr) rfl (hraise _)).trans
    (State.rd_wr_self ..)

theorem guardEffect_storeErase_job (hv : v = 1 ∨ v = 3 ∨ v = 4) (hbusy : (s.recordPair Reg.memStoreErase v).storeBusy = false) :
    (s.guardEffect Reg.memStoreErase v).mgt.job = some (.erase v.toNat) := by
  rw [guardEffect_storeErase, State.storeErase, hbusy]
  rcases hv with rfl | rfl | rfl <;> rfl

/-- A deliberate handover to the converter that is not active begins (R385). -/
theorem handTo_begins {b : Bool} (hok : s.feedOk b = true) (hother : s.mgt.activeB = !b) :
    (s.handTo b).mgt.handover = true ∧ (s.handTo b).mgt.forced = true := by
  have hcond : (s.feedOk b && (b != s.mgt.activeB)) = true := by
    rw [hok, hother]
    cases b <;> rfl
  unfold State.handTo
  rw [if_pos hcond]
  exact ⟨rfl, rfl⟩

end

/-! A pair's second write as each command. -/

section
variable {s : State} {c : Nat} {g : GuardPair} (hup : s.life = .up) (hc : c < 8) (hprin : s.role c = .principal)
  (hg : (s.cx c).guard = some g) (hnow : s.now ≤ g.raw.toNat + 1250000)
include hup hc hprin hg hnow

/-- What an event of the bus does that is the write of a pair's complement. -/
theorem onBus_complement {a : Nat} (habove : guardRegs.contains (a + 4) = false) (hguard : guardRegs.contains a = true) (haddr : g.addr = a) :
    onBus c s (fun t => t.busWrite c (a + 4) (~~~g.value)) = .next ((s.written c).guardEffect a g.value) := by
  rw [onBus_of_up hc hup, busWrite_complement hprin hg hnow habove hguard haddr]

end

end Sys2Proof.Machine

open Sys2Proof Sys2Proof.Machine

/-- Settles O49: a write to a register without a guard takes effect by its own rules where its gate lets it through. -/
theorem registerWritesComplete : Obligations.RegisterWritesComplete := by
  rintro s w c a v r i j hup hc rfl
  refine ⟨onBus_of_up hc hup _, fun hguard habove hreg => ⟨fun hmay => ?_, fun hmay hact => ?_, fun hmay hact => ?_⟩⟩
  · refine (onBus_of_up hc hup _).trans (congrArg _ ((if_pos rfl).trans ?_))
    rw [busWrite_unguarded s c v ⟨hguard, habove⟩ hreg, hmay]
    rfl
  · refine (onBus_of_up hc hup _).trans (congrArg _ ((if_pos rfl).trans ?_))
    exact (busWrite_of_may ⟨hguard, habove⟩ hreg hmay).trans (writeAs_plain s c v i j hact)
  · refine (onBus_of_up hc hup _).trans (congrArg _ ?_)
    exact (busWrite_of_may ⟨hguard, habove⟩ hreg hmay).trans (writeAs_pairLo s c v i j hact)

/-- Settles O50: the first write starts the pair, the complement in time has its register's own effect, anything else breaks it. -/
theorem guardedPairsAct : Obligations.GuardedPairsAct := by
  rintro s w u c hup hc hprin rfl
  refine ⟨fun a v hguard => ?_, fun g hg hlate => ?_, ?_⟩
  · exact (onBus_of_up hc hup _).trans (congrArg _ ((if_pos hguard).trans (busWrite_first hprin v hguard)))
  · refine (onBus_of_up hc hup _).trans (congrArg _ ?_)
    rw [hg]
    exact if_pos hlate
  · intro g hg hnow hu
    have hsecond {a : Nat} (habove : guardRegs.contains (a + 4) = false) (hguard : guardRegs.contains a = true) (haddr : g.addr = a) :=
      onBus_complement hup hc hprin hg hnow habove hguard haddr
    refine ⟨?_, ?_, ?_, ?_, ?_, ?_, ?_, ?_, ?_, ?_⟩
    · exact fun x hx _ => (onBus_of_up hc hup _).trans
        (congrArg _ (busWrite_broken (a := Reg.sysReset) hprin hg (by decide) (by decide) hx))
    · intro haddr hval
      rw [haddr, hval] at hu
      refine (hsecond (a := Reg.sysReset) (by decide) (by decide) haddr).trans ?_
      rw [hval, guardEffect_moduleReset, hu]
      rfl
    · intro haddr hval
      rw [haddr, hval] at hu
      refine (hsecond (a := Reg.sysReset) (by decide) (by decide) haddr).trans ?_
      rw [hval, guardEffect_fwRestart, hu]
      rfl
    · exact fun haddr => ⟨_, hsecond (a := Reg.sysFreezeEn) (by decide) (by decide) haddr, guardEffect_freezeEn_rd _ _,
        guardEffect_freezeEn_freezeAt (s.written c) g.value⟩
    · intro haddr hval
      refine ⟨_, hsecond (a := Reg.sysTapUnlock) (by decide) (by decide) haddr, ?_⟩
      rw [hval, guardEffect_unlock_tap]
    · intro haddr hval
      refine ⟨_, hsecond (a := Reg.sysTapUnlock) (by decide) (by decide) haddr, ?_⟩
      rw [hval, guardEffect_lock_tap]
    · intro haddr hval
      rw [haddr, hval] at hu
      refine (hsecond (a := Reg.tsuEpochReset) (by decide) (by decide) haddr).trans ?_
      rw [hval, guardEffect_epochReset, hu]
      rfl
    · intro haddr hval
      refine ⟨(hsecond (a := Reg.mgtFeedForce) (by decide) (by decide) haddr).trans ?_, fun hok hactive => handTo_begins u hok hactive⟩
      rw [haddr] at hu
      rcases hval with hval | hval <;> rw [hval] at hu ⊢
      · rw [guardEffect_feedA, hu]
        rfl
      · rw [guardEffect_feedB, hu]
        rfl
    · exact fun haddr => ⟨_, hsecond (a := Reg.mgtLaserOvr) (by decide) (by decide) haddr, guardEffect_laserOvr_rd _ _⟩
    · intro haddr hval hbusy
      rw [haddr] at hu
      subst hu
      exact ⟨_, hsecond (a := Reg.memStoreErase) (by decide) (by decide) haddr, guardEffect_storeErase_job _ _ hval hbusy⟩

end

section
/-! R56 to R374: registers whose writes act at once. -/

namespace Sys2Proof.Machine

open Host

/-! Where the registers stand in the map. -/

/-- The address is of register `(i, j)` of a row, and no guarded one. -/
abbrev PlaceOf (a : Nat) (r : Row) (i j : Nat) : Prop := Unguarded a ∧ Reg.find a = some (r, i, j)

theorem portPhyCtrl_place : ∀ p < 28, PlaceOf (Reg.portPhyCtrl p) Reg.portPhyCtrlRow p 0 := by decide +kernel
theorem portCapAdv_place : ∀ p < 24, PlaceOf (Reg.portCapAdv p) Reg.portCapAdvRow p 0 := by decide +kernel
theorem portCommit_place : ∀ p < 24, 16 ≤ p → PlaceOf (Reg.portCommit p) Reg.portCommitRow p 0 := by decide +kernel
theorem swcCommit_place : PlaceOf Reg.swcCommit Reg.swcCommitRow 0 0 := by decide +kernel
theorem arbCommit_place : PlaceOf Reg.arbCommit Reg.arbCommitRow 0 0 := by decide +kernel
theorem swcSample_place : ∀ p < 28, PlaceOf (Reg.swcSample p) Reg.swcSampleRow p 0 := by decide +kernel
theorem clkSynCfg_place : ∀ n < 6, PlaceOf (Reg.clkSynCfg n) Reg.clkSynCfgRow n 0 := by decide +kernel
theorem tblRdSel_place : PlaceOf Reg.tblRdSel Reg.tblRdSelRow 0 0 := by decide +kernel
theorem cycRdSel_place : PlaceOf Reg.cycRdSel Reg.cycRdSelRow 0 0 := by decide +kernel
theorem tgCtrl_place : ∀ g < 16, PlaceOf (Reg.tgCtrl g) Reg.tgCtrlRow g 0 := by decide +kernel
theorem iuCtrl_place : ∀ u < 4, PlaceOf (Reg.iuCtrl u) Reg.iuCtrlRow u 0 := by decide +kernel
theorem pmcSel_place : ∀ m < 16, PlaceOf (Reg.pmcSel m) Reg.pmcSelRow m 0 := by decide +kernel

section
variable {s : State} {c a i j : Nat} {v : Word} {r : Row}

/-- The register is there for the module: its port is, and so is its synthesiser (R2, R286). -/
theorem regAt_of_find (hfind : Reg.find a = some (r, i, j)) (hport : r.gate = .port → s.absent i = false)
    (hsyn : r.base / 256 = 0x4801 → s.synThere i = true) : s.regAt a = some (r, i, j) := by
  unfold State.regAt
  rw [hfind]
  refine if_neg ?_
  rintro (⟨hgate, habsent⟩ | ⟨hbase, hthere⟩)
  · rw [hport hgate] at habsent
    nomatch habsent
  · rw [hsyn hbase] at hthere
    nomatch hthere

/-! Whom each gate lets through (R342). -/

section
variable (hrole : s.role c ≠ .observer)
include hrole

omit hrole in
theorem mayWrite_free (hgate : r.gate = .free) : s.mayWrite c r i v = true := by
  unfold State.mayWrite
  rw [hgate]

theorem mayWrite_port (hgate : r.gate = .port) (hi : i < 28) (hown : s.ownsPort c i = true) (hrein : s.holds c (portRein i) = true) :
    s.mayWrite c r i v = true := by
  unfold State.mayWrite
  rw [hgate]
  simp only [hrole, hi, hown, hrein, ne_eq, not_false_eq_true, decide_true, Bool.and_self]

theorem mayWrite_swc (hgate : r.gate = .swc) (hrein : s.holds c 8 = true) : s.mayWrite c r i v = true := by
  unfold State.mayWrite
  rw [hgate]
  simp only [hrole, hrein, ne_eq, not_false_eq_true, decide_true, Bool.and_self]

theorem mayWrite_swcPort (hgate : r.gate = .swcPort) (hrein : s.holds c 8 = true) (hown : s.ownsPort c i = true) :
    s.mayWrite c r i v = true := by
  unfold State.mayWrite
  rw [hgate]
  simp only [hrole, hrein, hown, ne_eq, not_false_eq_true, decide_true, Bool.and_self]

theorem mayWrite_clk (hgate : r.gate = .clk) (hrein : s.holds c 12 = true) : s.mayWrite c r i v = true := by
  unfold State.mayWrite
  rw [hgate]
  simp only [hrole, hrein, ne_eq, not_false_eq_true, decide_true, Bool.and_self]

theorem mayWrite_gen (hgate : r.gate = .gen) (hown : s.owner 5 i = some c) : s.mayWrite c r i v = true := by
  unfold State.mayWrite State.ownsRes
  rw [hgate]
  simp only [hrole, hown, ne_eq, not_false_eq_true, decide_true, Bool.and_self]

theorem mayWrite_iunit (hgate : r.gate = .iunit) (hown : s.owner 6 i = some c) : s.mayWrite c r i v = true := by
  unfold State.mayWrite State.ownsRes
  rw [hgate]
  simp only [hrole, hown, ne_eq, not_false_eq_true, decide_true, Bool.and_self]

theorem mayWrite_pmc (hgate : r.gate = .pmc) (hwho : i < 12 ∨ s.role c = .principal) : s.mayWrite c r i v = true := by
  have hany : (decide (i < 12) || decide (s.role c = .principal)) = true := by
    rw [Bool.or_eq_true, decide_eq_true_eq, decide_eq_true_eq]
    exact hwho
  unfold State.mayWrite
  rw [hgate]
  simp only [hrole, hany, ne_eq, not_false_eq_true, decide_true, Bool.and_self]

end

/-! A write of a register that is there, by its own rules. -/

/-- What a write that is let through does; `hrow` says it of the row's own rules, whatever low word is held. -/
theorem busWrite_row {t : State} (hplace : PlaceOf a r i j) (hport : r.gate = .port → s.absent i = false)
    (hsyn : r.base / 256 = 0x4801 → s.synThere i = true) (hmay : s.mayWrite c r i v = true)
    (hrow : ∀ lo, (s.written c).writeRow c a r i j lo v = t) : s.busWrite c a v = t :=
  (busWrite_of_may hplace.1 (regAt_of_find hplace.2 hport hsyn) hmay).trans (hrow _)

end

/-! Each write. -/

section
variable {s : State} {c : Nat} {v : Word} (hup : s.life = .up) (hc : c < 8) (hrole : s.role c ≠ .observer)
include hup hc hrole

section
variable {p : Nat} (hp : p < 28) (hthere : s.absent p = false) (hown : s.ownsPort c p = true) (hrein : s.holds c (portRein p) = true)
include hp hthere hown hrein

theorem exec_portEnableWrite : exec (.portEnableWrite c p v) s = .next ((s.written c).writePhyCtrl p v) :=
  (onBus_of_up hc hup _).trans (congrArg _ ((onUnitS_of_lt hp _ _).trans
    (busWrite_row (portPhyCtrl_place p hp) (fun _ => hthere) (fun h => absurd h (by decide)) (mayWrite_port hrole rfl hp hown hrein) fun _ => rfl)))

theorem exec_portCapAdvWrite (hf : p < 24) : exec (.portCapAdvWrite c p v) s = .next ((s.written c).writeCapAdv p v) :=
  (onBus_of_up hc hup _).trans (congrArg _ ((onUnitS_of_lt hf _ _).trans
    (busWrite_row (portCapAdv_place p hf) (fun _ => hthere) (fun h => absurd h (by decide)) (mayWrite_port hrole rfl hp hown hrein) fun _ => rfl)))

theorem exec_portCommit (h16 : 16 ≤ p) (hf : p < 24) : exec (.portCommit c p) s = .next ((s.written c).portCommit p) :=
  (onBus_of_up hc hup _).trans (congrArg _ ((onUnitS_of_lt hf _ _).trans
    (busWrite_row (portCommit_place p hf h16) (fun _ => hthere) (fun h => absurd h (by decide)) (mayWrite_port hrole rfl hp hown hrein)
      fun _ => rfl)))

end

section
variable (hrein : s.holds c 8 = true)
include hrein

theorem exec_swcCommit : exec (.swcCommit c) s = .next (s.written c).swcCommit :=
  (onBus_of_up hc hup _).trans (congrArg _
    (busWrite_row swcCommit_place (fun h => nomatch h) (fun h => absurd h (by decide)) (mayWrite_swc hrole rfl hrein) fun _ => rfl))

theorem exec_arbCommit : exec (.arbCommit c) s = .next (s.written c).arbCommit :=
  (onBus_of_up hc hup _).trans (congrArg _
    (busWrite_row arbCommit_place (fun h => nomatch h) (fun h => absurd h (by decide)) (mayWrite_swc hrole rfl hrein) fun _ => rfl))

theorem exec_swcSampleWrite {p : Nat} (hp : p < 28) (hown : s.ownsPort c p = true) :
    exec (.swcSampleWrite c p v) s = .next ((s.written c).writeSample p v) :=
  (onBus_of_up hc hup _).trans (congrArg _ ((onUnitS_of_lt hp _ _).trans
    (busWrite_row (swcSample_place p hp) (fun h => nomatch h) (fun h => absurd h (by decide)) (mayWrite_swcPort hrole rfl hrein hown)
      fun _ => rfl)))

end

theorem exec_clkSynCfgWrite {n : Nat} (hn : n < 6) (hthere : s.synThere n = true) (hrein : s.holds c 12 = true) :
    exec (.clkSynCfgWrite c n v) s = .next (((s.written c).wr (Reg.clkSynCfg n) v).synRestart n (getFld v 0 2)) :=
  (onBus_of_up hc hup _).trans (congrArg _ ((onUnitS_of_lt (by omega) _ _).trans
    (busWrite_row (clkSynCfg_place n hn) (fun h => nomatch h) (fun _ => hthere) (mayWrite_clk hrole rfl hrein) fun _ => if_pos hn)))

omit hrole in
theorem exec_tblRdSel : exec (.tblRdSel c v) s = .next ((s.written c).latch c (wordsAt (Reg.tblRdW 0) ((s.written c).rdEntry v))) :=
  (onBus_of_up hc hup _).trans (congrArg _
    (busWrite_row tblRdSel_place (fun h => nomatch h) (fun h => absurd h (by decide)) (mayWrite_free rfl) fun _ => rfl))

omit hrole in
theorem exec_cycRdSel : exec (.cycRdSel c v) s = .next ((s.written c).latch c (wordsAt (Reg.cycRdW 0) ((s.written c).cycRdWords v))) :=
  (onBus_of_up hc hup _).trans (congrArg _
    (busWrite_row cycRdSel_place (fun h => nomatch h) (fun h => absurd h (by decide)) (mayWrite_free rfl) fun _ => rfl))

omit hup hc in
/-- A write of a generator's control by its owner. -/
theorem busWrite_tgCtrl {g : Nat} (hg : g < 16) (hown : s.owner 5 g = some c) (x : Word) :
    s.busWrite c (Reg.tgCtrl g) x = (s.written c).writeTgCtrl g x :=
  busWrite_row (tgCtrl_place g hg) (fun h => nomatch h) (fun h => absurd h (by decide)) (mayWrite_gen hrole rfl hown) fun _ => rfl

theorem exec_tgCtrlArmWrite {g : Nat} (hg : g < 16) (hown : s.owner 5 g = some c) :
    exec (.tgCtrlArmWrite c g v) s = .next ((s.written c).writeTgCtrl g (putFld v 0 1 1)) :=
  (onBus_of_up hc hup _).trans (congrArg _ ((onUnitS_of_lt hg _ _).trans (busWrite_tgCtrl hrole hg hown _)))

theorem exec_tgCtrlDisarmWrite {g : Nat} (hg : g < 16) (hown : s.owner 5 g = some c) :
    exec (.tgCtrlDisarmWrite c g v) s = .next ((s.written c).writeTgCtrl g (putFld v 0 1 0)) :=
  (onBus_of_up hc hup _).trans (congrArg _ ((onUnitS_of_lt hg _ _).trans (busWrite_tgCtrl hrole hg hown _)))

omit hup hc in
/-- A write of an interval unit's control by its owner. -/
theorem busWrite_iuCtrl {u : Nat} (hu : u < 4) (hown : s.owner 6 u = some c) (x : Word) :
    s.busWrite c (Reg.iuCtrl u) x = (s.written c).writeIuCtrl u x :=
  busWrite_row (iuCtrl_place u hu) (fun h => nomatch h) (fun h => absurd h (by decide)) (mayWrite_iunit hrole rfl hown) fun _ => rfl

theorem exec_iuCtrlArm {u : Nat} (hu : u < 4) (hown : s.owner 6 u = some c) : exec (.iuCtrlArm c u) s = .next ((s.written c).iuArm u) :=
  (onBus_of_up hc hup _).trans (congrArg _ ((onUnitS_of_lt hu _ _).trans (busWrite_iuCtrl hrole hu hown 1)))

theorem exec_iuCtrlDisarm {u : Nat} (hu : u < 4) (hown : s.owner 6 u = some c) :
    exec (.iuCtrlDisarm c u) s = .next ((s.written c).iuDisarm u) :=
  (onBus_of_up hc hup _).trans (congrArg _ ((onUnitS_of_lt hu _ _).trans (busWrite_iuCtrl hrole hu hown 2)))

theorem exec_iuCtrlFlush {u : Nat} (hu : u < 4) (hown : s.owner 6 u = some c) :
    exec (.iuCtrlFlush c u) s = .next ((s.written c).onUnitSt u fun x => { x with queue := [] }) :=
  (onBus_of_up hc hup _).trans (congrArg _ ((onUnitS_of_lt hu _ _).trans (busWrite_iuCtrl hrole hu hown 4)))

theorem exec_pmcSelWrite {m : Nat} (hm : m < 16) (hwho : m < 12 ∨ s.role c = .principal) :
    exec (.pmcSelWrite c m v) s = .next ((s.written c).writePmcSel m v) :=
  (onBus_of_up hc hup _).trans (congrArg _ ((onUnitS_of_lt hm _ _).trans
    (busWrite_row (pmcSel_place m hm) (fun h => nomatch h) (fun h => absurd h (by decide)) (mayWrite_pmc hrole rfl hwho) fun _ => rfl)))

end

/-! What they leave. -/

theorem arbCommit_arbDue {s : State} (hdue : s.sw.arbDue = none) : s.arbCommit.sw.arbDue = some (s.pendK.filter fun x => isArb x.1) := by
  unfold State.arbCommit
  rw [hdue]
  rfl

theorem pmcAt_setPmc (s : State) (m v k : Nat) : (s.setPmc m v).pmcAt k = if k = m then v else s.pmcAt k := Tab.get_set ..

theorem pmcAt_setPmc_self (s : State) (m v : Nat) : (s.setPmc m v).pmcAt m = v := Tab.get_set_self ..

/-- A write of PMC_SEL clears the counter and its overflow. -/
theorem writePmcSel_reads (s : State) (m : Nat) (v : Word) : (s.writePmcSel m v).pmcAt m = 0 ∧
    (s.writePmcSel m v).fld (Reg.pmcSel m) 0 12 = getFld v 0 12 ∧ (s.writePmcSel m v).bitAt (Reg.pmcSel m) 31 = false := by
  have hrd : (s.writePmcSel m v).rd (Reg.pmcSel m) = putFld v 31 1 0 := by rw [State.writePmcSel, State.rd_setPmc, State.rd_wr_self]
  refine ⟨pmcAt_setPmc_self _ m 0, ?_, ?_⟩
  · rw [State.fld, hrd, getFld_putFld_of_disjoint _ _ (by decide) (by decide)]
  · rw [State.bitAt, hrd]
    exact bit_putFld_bit v false (by decide)

end Sys2Proof.Machine

open Sys2Proof Sys2Proof.Machine

/-- Settles O51: each register's place and gate, and then its own rules. -/
theorem actingWritesComplete : Obligations.ActingWritesComplete := by
  rintro s w c v hup hc hrole rfl
  refine ⟨?_, ?_, ?_, ?_, ?_, ?_, ?_, ?_⟩
  · exact fun p hp hthere hown hrein => ⟨exec_portEnableWrite hup hc hrole hp hthere hown hrein,
      exec_portCapAdvWrite hup hc hrole hp hthere hown hrein, exec_portCommit hup hc hrole hp hthere hown hrein⟩
  · exact fun hrein => ⟨exec_swcCommit hup hc hrole hrein, exec_arbCommit hup hc hrole hrein, fun hdue => arbCommit_arbDue hdue,
      fun p hp hown => exec_swcSampleWrite hup hc hrole hrein hp hown⟩
  · exact fun n hn hthere hrein => exec_clkSynCfgWrite hup hc hrole hn hthere hrein
  · exact exec_tblRdSel hup hc
  · exact exec_cycRdSel hup hc
  · exact fun g hg hown => ⟨exec_tgCtrlArmWrite hup hc hrole hg hown, exec_tgCtrlDisarmWrite hup hc hrole hg hown⟩
  · exact fun u hu hown => ⟨exec_iuCtrlArm hup hc hrole hu hown, exec_iuCtrlDisarm hup hc hrole hu hown, exec_iuCtrlFlush hup hc hrole hu hown⟩
  · exact fun m hm hwho => ⟨_, exec_pmcSelWrite hup hc hrole hm hwho, writePmcSel_reads (s.written c) m v⟩

end

section
/-! R56, R150, R213, R214, R307, R355, R375: reads that latch their group or pop their queue. -/

namespace Sys2Proof.Machine

open Host

/-! The read shadow of a context (R355). -/

theorem get_foldl_set_of_not_mem {l : List (Nat × Word)} {a : Nat} (h : ∀ y ∈ l, a ≠ y.1) (t : Tab Word) :
    Tab.get (fun _ => 0) (l.foldl (fun t y => Tab.set (fun _ => 0) t y.1 y.2) t) a = Tab.get (fun _ => 0) t a := by
  induction l generalizing t with
  | nil => rfl
  | cons y l ih =>
    rw [List.foldl_cons, ih fun z hz => h z (List.mem_cons_of_mem _ hz), Tab.get_set, if_neg (h y List.mem_cons_self)]

/-- Of words at addresses that differ each reads back. -/
theorem get_foldl_set_of_mem {l : List (Nat × Word)} (hl : l.Pairwise fun x y => x.1 ≠ y.1) {a : Nat} {v : Word} (h : (a, v) ∈ l)
    (t : Tab Word) : Tab.get (fun _ => 0) (l.foldl (fun t y => Tab.set (fun _ => 0) t y.1 y.2) t) a = v := by
  induction l generalizing t with
  | nil => nomatch h
  | cons y l ih =>
    obtain ⟨hy, hrest⟩ := List.pairwise_cons.mp hl
    rw [List.foldl_cons]
    rcases List.mem_cons.mp h with rfl | hmem
    · rw [get_foldl_set_of_not_mem hy, Tab.get_set_self]
    · exact ih hrest hmem _

theorem shade_latch (s : State) (c a : Nat) (l : List (Nat × Word)) : (s.latch c l).shade c a
    = Tab.get (fun _ => 0) (l.foldl (fun t y => Tab.set (fun _ => 0) t y.1 y.2) (s.cx c).shadow) a := by
  rw [State.shade, State.latch, State.cx_onCx_self]

theorem wordsAt_getElem (b : Nat) (l : List Word) (i : Nat) (hi : i < (wordsAt b l).length) :
    (wordsAt b l)[i] = (b + 4 * i, l[i]'(by simpa [wordsAt] using hi)) := by
  simp [wordsAt]

theorem wordsAt_pairwise (b : Nat) (l : List Word) : (wordsAt b l).Pairwise fun x y => x.1 ≠ y.1 := by
  refine List.pairwise_iff_getElem.mpr fun i j hi hj hij => ?_
  rw [wordsAt_getElem, wordsAt_getElem]
  dsimp only
  omega

/-- Words latched at rising addresses read back. -/
theorem shade_latch_wordsAt (s : State) (c b : Nat) (l : List Word) {i : Nat} (hi : i < l.length) :
    (s.latch c (wordsAt b l)).shade c (b + 4 * i) = l[i] := by
  have hlen : i < (wordsAt b l).length := by simpa [wordsAt] using hi
  rw [shade_latch]
  refine get_foldl_set_of_mem (wordsAt_pairwise b l) ?_ _
  rw [← wordsAt_getElem b l i hlen]
  exact List.getElem_mem hlen

theorem shade_readPair (s : State) (c a v : Nat) : (s.readPair c a v).1.shade c (a + 4) = w32 (v / 2 ^ 32) := by
  rw [State.readPair, shade_latch, List.foldl_cons, List.foldl_nil, Tab.get_set_self]

/-! What a read leaves in its context. -/

section
variable (c : Nat) (x : State × Word)

theorem took_busData : ((State.took c x).cx c).busData = x.2 := by rw [State.took, State.cx_onCx_self]

theorem took_shade (a : Nat) : (State.took c x).shade c a = x.1.shade c a := by rw [State.shade, State.took, State.cx_onCx_self, State.shade]

theorem took_learn : ((State.took c x).cx c).learn = (x.1.cx c).learn := by rw [State.took, State.cx_onCx_self]

theorem took_unit (u : Nat) : (State.took c x).unit u = x.1.unit u := rfl

end

/-! A read of a register, by its row. -/

theorem tsuRawLo_find : Reg.find Reg.tsuRawLo = some (Reg.tsuRawLoRow, 0, 0) := by decide +kernel
theorem tsuGen_find : ∀ d < 2, Reg.find (Reg.tsuGen d) = some (Reg.tsuGenRow, d, 0) := by decide +kernel
theorem sysUptimeLo_find : Reg.find Reg.sysUptimeLo = some (Reg.sysUptimeLoRow, 0, 0) := by decide +kernel
theorem portHalterRx_find : ∀ p < 24, Reg.find (Reg.portHalterRx p 0) = some (Reg.portHalterRxRow, p, 0) := by decide +kernel
theorem pmcCntLo_find : ∀ m < 16, Reg.find (Reg.pmcCntLo m) = some (Reg.pmcCntLoRow, m, 0) := by decide +kernel
theorem tblLrnPop_find : ∀ q < 8, Reg.find (Reg.tblLrnPop q) = some (Reg.tblLrnPopRow, q, 0) := by decide +kernel
theorem iuResPop_find : ∀ u < 4, Reg.find (Reg.iuResPop u) = some (Reg.iuResPopRow, u, 0) := by decide +kernel

section
variable {s : State} {c a i j : Nat} {r : Row}

/-- A read at a BAR0 address of a register that is there; a counter that is chained below another reads with it (R375). -/
theorem access_row (ha : a < 2 ^ 24) (hreg : s.regAt a = some (r, i, j)) (hchain : r.view = .pmcCnt → ¬(12 < i ∧ s.chained i = true)) :
    s.access c a = State.took c (s.readRow c a r i j) := by
  unfold State.access State.busRead
  rw [if_pos ha, hreg]
  dsimp only
  rw [if_neg fun h => hchain h.1 h.2]

theorem access_of_find (ha : a < 2 ^ 24) (hfind : Reg.find a = some (r, i, j)) (hport : r.gate ≠ .port) (hsyn : r.base / 256 ≠ 0x4801)
    (hview : r.view ≠ .pmcCnt) : s.access c a = State.took c (s.readRow c a r i j) :=
  access_row ha (regAt_of_find hfind (fun h => absurd h hport) fun h => absurd h hsyn) fun h => absurd h hview

end

section
variable (s : State) (c a i j : Nat) {r : Row}

theorem readRow_rawSnap (h : r.view = .rawSnap) : s.readRow c a r i j = (s.latch c (wordsAt (a + 4) s.snapWords), w32 s.now) := by
  unfold State.readRow
  rw [h]

theorem readRow_genLatch (h : r.view = .genLatch) : s.readRow c a r i j = (s.latch c (wordsAt (a + 4) (s.genWords i)), s.rd a) := by
  unfold State.readRow
  rw [h]

theorem readRow_uptime (h : r.view = .uptime) : s.readRow c a r i j = s.readPair c a s.uptime := by
  unfold State.readRow
  rw [h]

theorem readRow_lrnPop (h : r.view = .lrnPop) : s.readRow c a r i j = s.popLearn c i := by
  unfold State.readRow
  rw [h]

theorem readRow_iuPop (h : r.view = .iuPop) : s.readRow c a r i j = s.popResult c i := by
  unfold State.readRow
  rw [h]

theorem readRow_halterRx (h : r.view = .halterRx) (hnat : s.native i = true) :
    s.readRow c a r i 0 = (s.latch c (wordsAt (a + 4) ((List.range 5).map fun k => s.rd (a + 4 + 4 * k))), s.rd a) := by
  unfold State.readRow
  rw [h]
  dsimp only
  rw [hnat]
  rfl

theorem readRow_halterRx_other (h : r.view = .halterRx) (hnat : s.native i = false) :
    s.readRow c a r i 0 = (s.latch c (wordsAt (a + 4) (List.replicate 5 0)), 0) := by
  unfold State.readRow
  rw [h]
  dsimp only
  rw [hnat]
  rfl

theorem readRow_pmcCnt (h : r.view = .pmcCnt) : s.readRow c a r i j =
    if 12 ≤ i then (s.latch c ((s.chainWords 4 i).drop 1), w32 (s.pmcAt i)) else s.readPair c a (s.pmcAt i) := by
  unfold State.readRow
  rw [h]

end

/-! Each read. -/

section
variable {s : State} {c : Nat} (hup : s.life = .up) (hc : c < 8)
include hup hc

theorem exec_tsuRawLoRead : exec (.tsuRawLoRead c) s
    = .next (State.took c (s.latch c (wordsAt (Reg.tsuRawLo + 4) s.snapWords), w32 s.now)) := by
  refine (onBus_of_up hc hup _).trans (congrArg _ ?_)
  rw [access_of_find (by decide) tsuRawLo_find (by decide) (by decide) (by decide), readRow_rawSnap _ _ _ _ _ rfl]

theorem exec_tsuGenRead {d : Nat} (hd : d < 2) : exec (.tsuGenRead c d) s
    = .next (State.took c (s.latch c (wordsAt (Reg.tsuGen d + 4) (s.genWords d)), s.rd (Reg.tsuGen d))) := by
  refine (onBus_of_up hc hup _).trans (congrArg _ ((onUnitS_of_lt hd _ _).trans ?_))
  rw [access_of_find (by unfold Reg.tsuGen; omega) (tsuGen_find d hd) (by decide) (by decide) (by decide), readRow_genLatch _ _ _ _ _ rfl]

theorem exec_pairLoRead_uptime : exec (.pairLoRead c Reg.sysUptimeLo) s
    = .next (State.took c (s.readPair c Reg.sysUptimeLo s.uptime)) := by
  refine (onBus_of_up hc hup _).trans (congrArg _ ?_)
  rw [access_of_find (by decide) sysUptimeLo_find (by decide) (by decide) (by decide), readRow_uptime _ _ _ _ _ rfl]

theorem exec_portHalterRx0Read {p : Nat} (hp : p < 24) (hthere : s.absent p = false) : exec (.portHalterRx0Read c p) s
    = .next (State.took c (s.readRow c (Reg.portHalterRx p 0) Reg.portHalterRxRow p 0)) := by
  refine (onBus_of_up hc hup _).trans (congrArg _ ((onUnitS_of_lt hp _ _).trans ?_))
  exact access_row (by unfold Reg.portHalterRx; omega)
    (regAt_of_find (portHalterRx_find p hp) (fun _ => hthere) fun h => absurd h (by decide)) fun h => nomatch h

theorem exec_pmcChainRead {m : Nat} (hm : m < 16) (hunchained : s.chained m = false) : exec (.pmcChainRead c m) s
    = .next (State.took c (s.readRow c (Reg.pmcCntLo m) Reg.pmcCntLoRow m 0)) := by
  refine (onBus_of_up hc hup _).trans (congrArg _ ((onUnitS_of_lt hm _ _).trans ?_))
  refine access_row (by unfold Reg.pmcCntLo; omega)
    (regAt_of_find (pmcCntLo_find m hm) (fun h => nomatch h) fun h => absurd h (by decide)) fun _ h => ?_
  rw [hunchained] at h
  nomatch h.2

theorem exec_tblLrnPop {q : Nat} (hq : q < 8) : exec (.tblLrnPop c q) s = .next (State.took c (s.popLearn c q)) := by
  refine (onBus_of_up hc hup _).trans (congrArg _ ((onUnitS_of_lt hq _ _).trans ?_))
  rw [access_of_find (by unfold Reg.tblLrnPop; omega) (tblLrnPop_find q hq) (by decide) (by decide) (by decide), readRow_lrnPop _ _ _ _ _ rfl]

theorem exec_iuResPop {u : Nat} (hu : u < 4) : exec (.iuResPop c u) s = .next (State.took c (s.popResult c u)) := by
  refine (onBus_of_up hc hup _).trans (congrArg _ ((onUnitS_of_lt hu _ _).trans ?_))
  rw [access_of_find (by unfold Reg.iuResPop; omega) (iuResPop_find u hu) (by decide) (by decide) (by decide), readRow_iuPop _ _ _ _ _ rfl]

end

/-! The fast time page (R214). -/

section
variable {s : State} {c : Nat} (hup : s.life = .up) (hc : c < 4)
include hup hc

/-- A read of the fast time page through BAR2. -/
theorem access_fastTime {off : Nat} (hoff : off < 0x88) (halign : off % 4 = 0) :
    onBus c s (fun t => t.access c (bar2At (0x210000 + off))) = .next (State.took c (s.fastTime c off)) := by
  refine (onBus_of_up (by omega) hup _).trans (congrArg _ ?_)
  unfold State.access bar2At State.bar2Read
  rw [if_neg (by omega), Nat.add_sub_cancel_left, if_neg (by omega), if_neg (by omega), if_neg (by omega), if_pos (by omega),
    Nat.add_sub_cancel_left]

theorem exec_ftRawLoRead : ∃ t, exec (.ftRawLoRead c) s = .next t ∧ (t.cx c).busData = w32 s.now :=
  ⟨_, access_fastTime hup hc (off := 0) (by decide) (by decide), took_busData c _⟩

theorem exec_ftGenRead {d : Nat} (hd : d < 2) : ∃ t, exec (.ftGenRead c d) s = .next t ∧ (t.cx c).busData = s.rd (Reg.tsuGen d) := by
  rcases (show d = 0 ∨ d = 1 by omega) with rfl | rfl
  · exact ⟨_, access_fastTime hup hc (off := 0x1C) (by decide) (by decide), took_busData c _⟩
  · exact ⟨_, access_fastTime hup hc (off := 0x5C) (by decide) (by decide), took_busData c _⟩

end

/-! What they latch and pop. -/

section
variable (s : State) (c : Nat)

theorem halterRx_reads {p : Nat} : ∀ x, x = s.readRow c (Reg.portHalterRx p 0) Reg.portHalterRxRow p 0 →
    x.2 = (if s.native p then s.rd (Reg.portHalterRx p 0) else 0) ∧
    ∀ k, 1 ≤ k → k < 6 → x.1.shade c (Reg.portHalterRx p k) = (if s.native p then s.rd (Reg.portHalterRx p k) else 0) := by
  rintro x rfl
  have haddr (k : Nat) (hk : 1 ≤ k) : Reg.portHalterRx p k = Reg.portHalterRx p 0 + 4 + 4 * (k - 1) := by
    unfold Reg.portHalterRx
    omega
  cases hnat : s.native p with
  | true =>
    rw [readRow_halterRx _ _ _ _ rfl hnat]
    refine ⟨rfl, fun k h1 h6 => ?_⟩
    have hlt : k - 1 < ((List.range 5).map fun k => s.rd (Reg.portHalterRx p 0 + 4 + 4 * k)).length := by
      rw [List.length_map, List.length_range]
      omega
    rw [haddr k h1]
    refine (shade_latch_wordsAt s c _ _ hlt).trans ?_
    rw [List.getElem_map, List.getElem_range]
    rfl
  | false =>
    rw [readRow_halterRx_other _ _ _ _ rfl hnat]
    refine ⟨rfl, fun k h1 h6 => ?_⟩
    have hlt : k - 1 < (List.replicate 5 (0 : Word)).length := by
      rw [List.length_replicate]
      omega
    rw [haddr k h1]
    refine (shade_latch_wordsAt s c _ _ hlt).trans ?_
    rw [List.getElem_replicate]
    rfl

theorem le_of_mem_chainWords (f m : Nat) : ∀ y ∈ s.chainWords f m, Reg.pmcCntLo m ≤ y.1 := by
  induction f generalizing m with
  | zero => exact fun y hy => nomatch hy
  | succ f ih =>
    intro y hy
    have hlo : Reg.pmcCntLo m ≤ Reg.pmcCntHi m := by
      unfold Reg.pmcCntLo Reg.pmcCntHi
      omega
    have hnext : Reg.pmcCntLo m ≤ Reg.pmcCntLo (m + 1) := by
      unfold Reg.pmcCntLo
      omega
    rcases List.mem_append.mp hy with hhere | habove
    · rcases List.mem_cons.mp hhere with rfl | hhi
      · exact Nat.le_refl _
      · rw [List.mem_singleton.mp hhi]
        exact hlo
    · split at habove
      · exact Nat.le_trans hnext (ih (m + 1) y habove)
      · nomatch habove

/-- The high word of a counter that is not chained below another is latched with its low word. -/
theorem pmcCnt_reads {m : Nat} : ∀ x, x = s.readRow c (Reg.pmcCntLo m) Reg.pmcCntLoRow m 0 →
    x.2 = w32 (s.pmcAt m) ∧ x.1.shade c (Reg.pmcCntHi m) = w32 (s.pmcAt m / 2 ^ 32) := by
  rintro x rfl
  rw [readRow_pmcCnt _ _ _ _ _ rfl]
  split
  · refine ⟨rfl, ?_⟩
    have hhigh : ∀ y ∈ (if s.chained (m + 1) then s.chainWords 3 (m + 1) else []), Reg.pmcCntHi m ≠ y.1 := by
      intro y hy
      split at hy
      · have hle := le_of_mem_chainWords s 3 (m + 1) y hy
        unfold Reg.pmcCntLo at hle
        unfold Reg.pmcCntHi
        omega
      · nomatch hy
    rw [shade_latch]
    refine (get_foldl_set_of_not_mem hhigh _).trans ?_
    exact Tab.get_set_self ..
  · exact ⟨rfl, shade_readPair s c (Reg.pmcCntLo m) _⟩

theorem popLearn_own {r : LearnRec} {rest : List LearnRec} (hq : (s.cx c).learn = r :: rest) :
    ((s.popLearn c c).1.cx c).learn = rest ∧ (s.popLearn c c).2 = (learnWords r).getD 0 0 := by
  unfold State.popLearn
  rw [if_neg (not_not.mpr rfl), hq]
  refine ⟨?_, rfl⟩
  dsimp only
  rw [State.latch, State.cx_onCx_self, State.cx_onCx_self]

theorem popResult_own {u : Nat} {r : IuRes} {rest : List IuRes} (hown : s.owner 6 u = some c) (hq : (s.unit u).queue = r :: rest) :
    ((s.popResult c u).1.unit u).queue = rest ∧ (s.popResult c u).2 = r.words.getD 0 0 := by
  have howns : s.ownsRes c 6 u = true := decide_eq_true hown
  unfold State.popResult
  rw [if_neg (by rw [howns]; decide), hq]
  refine ⟨?_, rfl⟩
  dsimp only
  rw [State.latch, State.unit_onCx, State.unit_onUnitSt_self]

end

end Sys2Proof.Machine

open Sys2Proof Sys2Proof.Machine

/-- Settles O52: each read by its row's view, and what its shadow and its queue hold after it. -/
theorem readsComplete : Obligations.ReadsComplete := by
  refine fun s c hup hc => ⟨?_, ?_, ?_, ?_, ?_, ?_, ?_, ?_, ?_⟩
  · exact exec_tsuRawLoRead hup hc
  · exact fun d hd => exec_tsuGenRead hup hc hd
  · exact ⟨_, exec_pairLoRead_uptime hup hc, took_busData c _, (took_shade c _ _).trans (shade_readPair s c Reg.sysUptimeLo s.uptime)⟩
  · exact fun hc4 => ⟨exec_ftRawLoRead hup hc4, fun d hd => exec_ftGenRead hup hc4 hd⟩
  · intro p hp hthere
    obtain ⟨hword, hshade⟩ := halterRx_reads s c (p := p) _ rfl
    exact ⟨_, exec_portHalterRx0Read hup hc hp hthere, (took_busData c _).trans hword,
      fun k h1 h6 => (took_shade c _ _).trans (hshade k h1 h6)⟩
  · intro m hm hwhich
    have hunchained : s.chained m = false := by
      rcases hwhich with hlow | hbit
      · exact Bool.and_eq_false_iff.mpr (.inl (decide_eq_false (by omega)))
      · exact Bool.and_eq_false_iff.mpr (.inr hbit)
    obtain ⟨hword, hshade⟩ := pmcCnt_reads s c (m := m) _ rfl
    exact ⟨_, exec_pmcChainRead hup hc hm hunchained, (took_busData c _).trans hword, (took_shade c _ _).trans hshade⟩
  · intro r rest hq
    obtain ⟨hrest, hword⟩ := popLearn_own s c hq
    exact ⟨_, exec_tblLrnPop hup hc hc, (took_learn c _).trans hrest, (took_busData c _).trans hword⟩
  · intro q hq hne
    have hother : s.popLearn c q = (s, 0) := if_pos hne
    rw [exec_tblLrnPop hup hc hq, hother]
    rfl
  · intro u r rest hu hown hq
    obtain ⟨hrest, hword⟩ := popResult_own s c hown hq
    exact ⟨_, exec_iuResPop hup hc hu, (congrArg IuSt.queue (took_unit c _ u)).trans hrest, (took_busData c _).trans hword⟩

end

section
/-! R102, R369, R373, R375: counters count and wrap, event messages go out. The programmable counters are counted one after the
other: what one of them shows is changed by its own turn alone (`foldl_turn`), as no counter that is not chained is fed by another
(`pmcInc_keeps`). -/

namespace Sys2Proof.Machine

open Host

/-! A counter of 32 bits (R102). -/

theorem count_below {s : State} {a src : Nat} (h : s.rd a + 1 ≠ 0x80000000) : s.count a src = s.wr a (s.rd a + 1) := if_neg h

/-- At half range the counter's source is raised. -/
theorem count_half {s : State} {a src c : Nat} (hsrc : src < 256) (hc : c < 8) (hhalf : s.rd a + 1 = 0x80000000)
    (hroute : s.bitAt (Reg.evtRoute src) c = true) (hne : a ≠ Reg.evtRoute src) :
    (s.count a src).bitAt (Reg.evtStat c (src / 32)) (src % 32) = true := by
  have hraise : s.count a src = (s.wr a (s.rd a + 1)).raise src := if_pos hhalf
  rw [hraise]
  refine raise_sets hsrc hc ?_
  rw [State.bitAt, State.rd_wr, if_neg hne.symm]
  exact hroute

/-! Event messages (R369). -/

/-- What an event message that is issued leaves. -/
def State.messaged (s : State) (c : Nat) : State :=
  s.onCx c fun x => { x with msix := s.fld (Reg.evtCfg c) 0 5 :: x.msix, lastMsg := some s.now, msgWait := false }

theorem postMsg_first {s : State} {c : Nat} (h : (s.cx c).lastMsg = none) : s.postMsg c = s.messaged c := by
  unfold State.postMsg
  rw [h]
  rfl

theorem postMsg_due {s : State} {c r : Nat} (h : (s.cx c).lastMsg = some r) (hdue : r + s.fld (Reg.evtCfg c) 16 16 * 1250 ≤ s.now) :
    s.postMsg c = s.messaged c := by
  unfold State.postMsg
  rw [h]
  exact if_pos (decide_eq_true hdue)

theorem messaged_reads (s : State) (c : Nat) : ((s.messaged c).cx c).msix = s.fld (Reg.evtCfg c) 0 5 :: (s.cx c).msix ∧
    ((s.messaged c).cx c).lastMsg = some s.now ∧ ((s.messaged c).cx c).msgWait = false := by
  rw [State.messaged, State.cx_onCx_self]
  exact ⟨rfl, rfl, rfl⟩

theorem evtRearm_place : ∀ c < 8, PlaceOf (Reg.evtRearm c) Reg.evtRearmRow c 0 := by decide +kernel

theorem mayWrite_own {s : State} {c : Nat} {r : Row} {v : Word} (hrole : s.role c ≠ .observer) (hgate : r.gate = .own) :
    s.mayWrite c r c v = true := by
  unfold State.mayWrite
  rw [hgate]
  simp only [hrole, ne_eq, not_false_eq_true, decide_true, Bool.and_self]

theorem exec_evtRearmWrite {s : State} {c : Nat} (hup : s.life = .up) (hc : c < 4) (hrole : s.role c ≠ .observer)
    (hpend : s.evtPending c = true) (hfirst : (s.cx c).lastMsg = none) :
    exec (.evtRearmWrite c) s = .next ((s.written c).messaged c) := by
  have hc8 : c < 8 := by omega
  have hnone : ((s.written c).cx c).lastMsg = none := by
    rw [State.written, State.cx_onCx_self]
    exact hfirst
  have hrearm : (s.written c).rearm c = (s.written c).messaged c := (if_pos ⟨hc, hpend⟩).trans (postMsg_first hnone)
  exact (onBus_of_up hc8 hup _).trans (congrArg _ (busWrite_row (evtRearm_place c hc8) (fun h => nomatch h)
    (fun h => absurd h (by decide)) (mayWrite_own hrole rfl) fun _ => hrearm))

/-- The holdoff of a message that waits has ended. -/
theorem exec_eventHoldoffExpiry {s : State} {c r : Nat} (hup : s.life = .up) (hc : c < 4) (hwait : (s.cx c).msgWait = true)
    (hlast : (s.cx c).lastMsg = some r) (hdue : r + s.fld (Reg.evtCfg c) 16 16 * 1250 ≤ s.now) :
    exec (.eventHoldoffExpiry c) s = .next (if s.evtPending c then s.messaged c else s.onCx c fun x => { x with msgWait := false }) := by
  refine (onUnit_event hc hup _).trans (congrArg _ ?_)
  dsimp only
  rw [hwait, hlast]
  refine (if_pos ?_).trans (congrArg (fun t => if s.evtPending c = true then t else _) (postMsg_due hlast hdue))
  exact decide_eq_true hdue

/-! What raising a source and a sample leave of the counters of the PMU. -/

/-- The counts of the PMU. -/
def State.counts (s : State) : Tab Nat × Tab Nat := (s.pmuFix, s.pmc)

theorem postMsg_counts (s : State) (c : Nat) : (s.postMsg c).counts = s.counts := ite_keeps State.counts rfl rfl

theorem eventFrame_counts (s : State) (c : Nat) : (s.eventFrame c).counts = s.counts := by
  unfold State.eventFrame
  split
  · rfl
  · exact ite_keeps State.counts rfl rfl

theorem deliver_counts (s : State) (c : Nat) (b : Bool) : (s.deliver c b).counts = s.counts :=
  ite_keeps State.counts (ite_keeps State.counts (postMsg_counts s c) (ite_keeps State.counts (eventFrame_counts s c) rfl)) rfl

theorem raiseIn_counts (s : State) (n c : Nat) : (s.raiseIn n c).counts = s.counts :=
  ite_keeps State.counts (deliver_counts _ _ _) rfl

theorem raiseBits_counts (s : State) (n : Nat) : (s.raiseBits n).counts = s.counts :=
  foldl_keeps State.counts _ _ s fun t c => ite_keeps State.counts (raiseIn_counts t n c) rfl

theorem logOne_counts (s : State) (src code : Nat) (args : List Nat) : (s.logOne src code args).counts = s.counts :=
  ite_keeps State.counts rfl (ite_keeps State.counts rfl rfl)

theorem logRec_counts (s : State) (src code : Nat) (args : List Nat) : (s.logRec src code args).counts = s.counts := by
  have hone := logOne_counts s src code args
  have hbits := (raiseBits_counts (s.logOne src code args) 251).trans hone
  exact ite_keeps State.counts (ite_keeps State.counts ((logOne_counts _ _ _ _).trans hbits) hbits) hone

theorem raise_counts (s : State) (n : Nat) : (s.raise n).counts = s.counts :=
  ite_keeps State.counts ((logRec_counts _ _ _ _).trans (raiseBits_counts s n)) (raiseBits_counts s n)

theorem counts_wr (s : State) (a : Nat) (v : Word) : (s.wr a v).counts = s.counts := rfl

theorem counts_stick (s : State) (a i : Nat) : (s.stick a i).counts = s.counts := rfl

theorem counts_drawn (s : State) : s.drawn.counts = s.counts := rfl

theorem sample_counts (s : State) (m : Nat) : (s.sample m).counts = s.counts := by
  unfold State.sample
  refine ite_keeps State.counts (ite_keeps State.counts (counts_wr _ _ _) ?_) rfl
  rw [counts_drawn, counts_wr, counts_wr, counts_wr, counts_stick, State.setFld, counts_wr]

/-- A sample record is written above the counters' registers. -/
theorem sample_rd (s : State) (m : Nat) {a : Nat} (ha : a < Reg.pmuSmpStat) : (s.sample m).rd a = s.rd a := by
  have hlo : a ≠ Reg.pmuSmpRawLo := by unfold Reg.pmuSmpStat at ha; unfold Reg.pmuSmpRawLo; omega
  have hhi : a ≠ Reg.pmuSmpRawHi := by unfold Reg.pmuSmpStat at ha; unfold Reg.pmuSmpRawHi; omega
  have hpc : a ≠ Reg.pmuSmpPc := by unfold Reg.pmuSmpStat at ha; unfold Reg.pmuSmpPc; omega
  refine ite_keeps (State.rd · a) (ite_keeps (State.rd · a) ?_ ?_) rfl
  · rw [State.rd_setFld, if_neg (Nat.ne_of_lt ha)]
  · change State.rd (State.wr _ _ _) a = _
    rw [State.rd_wr, if_neg hpc, State.rd_wr, if_neg hhi, State.rd_wr, if_neg hlo, State.rd_stick, if_neg (Nat.ne_of_lt ha),
      State.rd_setFld, if_neg (Nat.ne_of_lt ha)]

/-- Counting reaches the counter itself and those chained above it: a reading that their turns leave stays. -/
theorem pmcInc_keeps {α : Type} (π : State → α) {P : Nat → Prop} (hchain : ∀ k, P k → 13 ≤ k + 1 → k + 1 < 16 → P (k + 1))
    (hset : ∀ t k v, P k → π (t.setPmc k v) = π t) (hstick : ∀ t k, P k → π (t.stick (Reg.pmcSel k) 31) = π t)
    (hsample : ∀ t k, π (t.sample k) = π t) (hraise : ∀ t, π (t.raise 248) = π t) (fuel : Nat) (s : State) (k : Nat) (hk : P k) :
    π (State.pmcInc fuel s k) = π s := by
  induction fuel generalizing s k with
  | zero => rfl
  | succ fuel ih =>
    have hwrapped : π (((s.setPmc k 0).stick (Reg.pmcSel k) 31).sample k) = π s := by rw [hsample, hstick _ _ hk, hset _ _ _ hk]
    unfold State.pmcInc
    dsimp only
    refine ite_keeps π (hset _ _ _ hk) ?_
    split
    · next hfed =>
      obtain ⟨h13, h16⟩ := of_decide_eq_true (Bool.and_eq_true_iff.mp hfed).1
      exact ite_keeps π ((ih _ _ (hchain k hk h13 h16)).trans hwrapped) hwrapped
    · exact (hraise _).trans hwrapped

/-- A fold whose steps leave a reading but for one member's: that member's step makes it what it is. -/
theorem foldl_turn {α β : Type} (π : State → α) {f : State → β → State} {b : β} {l : List β} (hnodup : l.Nodup) (hb : b ∈ l)
    (hother : ∀ t, ∀ x ∈ l, x ≠ b → π (f t x) = π t) (s : State) : ∃ t, π t = π s ∧ π (l.foldl f s) = π (f t b) := by
  obtain ⟨before, after, rfl⟩ := List.append_of_mem hb
  obtain ⟨hfirst, hlast⟩ := List.nodup_middle.mp hnodup |> List.nodup_cons.mp
  refine ⟨before.foldl f s, foldl_keeps_of_mem π f before s fun t x hx => hother t x (List.mem_append_left _ hx) ?_, ?_⟩
  · rintro rfl
    exact hfirst (List.mem_append_left _ hx)
  · rw [List.foldl_append, List.foldl_cons]
    refine foldl_keeps_of_mem π f after _ fun t x hx => hother t x (List.mem_append_right _ (List.mem_cons_of_mem _ hx)) ?_
    rintro rfl
    exact hfirst (List.mem_append_right _ hx)

/-! A programmable counter (R375). -/

/-- The count of a programmable counter, and its register. -/
def State.tally (s : State) (m : Nat) : Nat × Word := (s.pmcAt m, s.rd (Reg.pmcSel m))

theorem pmcSel_inj {k m : Nat} (h : k ≠ m) : Reg.pmcSel m ≠ Reg.pmcSel k := by unfold Reg.pmcSel; omega

theorem not_evtReg_pmcSel (m : Nat) : ¬ EvtReg (Reg.pmcSel m) := not_evtReg_of_le (by unfold Reg.pmcSel; omega)

theorem sample_tally (s : State) (k : Nat) {m : Nat} (hm : m < 16) : (s.sample k).tally m = s.tally m := by
  have hbelow : Reg.pmcSel m < Reg.pmuSmpStat := by unfold Reg.pmcSel Reg.pmuSmpStat; omega
  have hcount : (s.sample k).pmc = s.pmc := congrArg Prod.snd (sample_counts s k)
  rw [State.tally, sample_rd s k hbelow, State.pmcAt, hcount]
  rfl

theorem raise_tally (s : State) {n : Nat} (hn : n < 256) (m : Nat) : (s.raise n).tally m = s.tally m := by
  have hcount : (s.raise n).pmc = s.pmc := congrArg Prod.snd (raise_counts s n)
  rw [State.tally, (raise_noted s hn).rd _ (not_evtReg_pmcSel m), State.pmcAt, hcount]
  rfl

/-- The turn of another counter. -/
theorem pmcInc_tally (fuel : Nat) (s : State) {k m : Nat} (hm : m < 12) (hk : k ≠ m) : (State.pmcInc fuel s k).tally m = s.tally m := by
  refine pmcInc_keeps (State.tally · m) (P := (· ≠ m)) (fun k _ h13 _ => by omega) (fun t k v hk => ?_) (fun t k hk => ?_)
    (fun t k => sample_tally t k (by omega)) (fun t => raise_tally t (by decide) m) fuel s k hk
  · rw [State.tally, pmcAt_setPmc, if_neg (Ne.symm hk)]
    rfl
  · rw [State.tally, State.rd_stick, if_neg (pmcSel_inj hk)]
    rfl

/-- The turn of a counter that is full and below those that may be chained. -/
theorem pmcInc_wraps (fuel : Nat) {s : State} {m : Nat} (hm : m < 12) (hfull : s.pmcAt m = 2 ^ 48 - 1) :
    (State.pmcInc (fuel + 1) s m).tally m = (0, orBit (s.rd (Reg.pmcSel m)) 31) := by
  have hunchained (t : State) : t.chained (m + 1) = false := Bool.and_eq_false_iff.mpr (.inl (decide_eq_false (by omega)))
  unfold State.pmcInc
  rw [if_neg (by rw [hfull]; decide)]
  dsimp only
  rw [hunchained, if_neg Bool.false_ne_true, raise_tally _ (by decide), sample_tally _ _ (by omega), State.tally, State.rd_stick,
    if_pos rfl]
  exact congrArg (·, _) (pmcAt_setPmc_self s m 0)

theorem fixInc_tally {s : State} {n : Nat} (hroom : s.fixAt n + 1 < 2 ^ 48) (m : Nat) : (s.fixInc n).tally m = s.tally m := by
  unfold State.fixInc
  rw [if_pos hroom]
  rfl

/-- The event that a full counter counts wraps it. -/
theorem perf_wraps {s : State} {m n : Nat} (hm : m < 12) (hen : s.bitAt (Reg.pmcSel m) 9 = true) (hfull : s.pmcAt m = 2 ^ 48 - 1)
    (hsel : s.fld (Reg.pmcSel m) 0 9 = n) (hroom : s.fixAt n + 1 < 2 ^ 48) :
    (s.perf n).tally m = (0, orBit (s.rd (Reg.pmcSel m)) 31) := by
  have hother (t : State) (k : Nat) (hk : k ≠ m) : (if t.bitAt (Reg.pmcSel k) 9 && !t.chained k && decide (t.fld (Reg.pmcSel k) 0 9 = n)
      then State.pmcInc 4 t k else t).tally m = t.tally m :=
    ite_keeps (State.tally · m) (pmcInc_tally 4 t hm hk) rfl
  obtain ⟨t, hkept, hturn⟩ := foldl_turn (State.tally · m) List.nodup_range (List.mem_range.mpr (show m < 16 by omega))
    (fun t k _ => hother t k) (s.fixInc n)
  have hsame : t.tally m = s.tally m := hkept.trans (fixInc_tally hroom m)
  have hcount : t.pmcAt m = s.pmcAt m := congrArg Prod.fst hsame
  have hreg : t.rd (Reg.pmcSel m) = s.rd (Reg.pmcSel m) := congrArg Prod.snd hsame
  have hunchained : t.chained m = false := Bool.and_eq_false_iff.mpr (.inl (decide_eq_false (by omega)))
  have hcounts : (t.bitAt (Reg.pmcSel m) 9 && !t.chained m && decide (t.fld (Reg.pmcSel m) 0 9 = n)) = true := by
    rw [hunchained, State.bitAt, State.fld, hreg, Bool.and_eq_true, Bool.and_eq_true, decide_eq_true_eq]
    exact ⟨⟨hen, rfl⟩, hsel⟩
  refine hturn.trans ?_
  rw [if_pos hcounts, pmcInc_wraps 3 hm (hcount.trans hfull), hreg]

theorem exec_pmuCounterWrap {s : State} {m : Nat} (hup : s.life = .up) (hm : m < 12) (hen : s.bitAt (Reg.pmcSel m) 9 = true)
    (hfull : s.pmcAt m = 2 ^ 48 - 1) (hnamed : perfNamed (s.fld (Reg.pmcSel m) 0 9) = true) :
    exec (.pmuCounterWrap m) s = .next (s.perf (s.fld (Reg.pmcSel m) 0 9)) := by
  have hunchained : s.chained m = false := Bool.and_eq_false_iff.mpr (.inl (decide_eq_false (by omega)))
  refine (onUnit_event (by omega) hup _).trans (congrArg _ (if_pos ?_))
  rw [hen, hunchained, hfull, hnamed]
  decide

/-! A fixed counter (R373). -/

/-- The count of a fixed counter, and the register of its overflow. -/
def State.fixTally (s : State) (n : Nat) : Nat × Word := (s.fixAt n, s.rd (Reg.pmuOvf (n / 32)))

theorem not_evtReg_pmuOvf (j : Nat) : ¬ EvtReg (Reg.pmuOvf j) := not_evtReg_of_le (by unfold Reg.pmuOvf; omega)

theorem raise_fixTally (s : State) {k : Nat} (hk : k < 256) (n : Nat) : (s.raise k).fixTally n = s.fixTally n := by
  have hcount : (s.raise k).pmuFix = s.pmuFix := congrArg Prod.fst (raise_counts s k)
  rw [State.fixTally, (raise_noted s hk).rd _ (not_evtReg_pmuOvf _), State.fixAt, hcount]
  rfl

theorem sample_fixTally (s : State) (k : Nat) {n : Nat} (hn : n < 512) : (s.sample k).fixTally n = s.fixTally n := by
  have hbelow : Reg.pmuOvf (n / 32) < Reg.pmuSmpStat := by unfold Reg.pmuOvf Reg.pmuSmpStat; omega
  have hcount : (s.sample k).pmuFix = s.pmuFix := congrArg Prod.fst (sample_counts s k)
  rw [State.fixTally, sample_rd s k hbelow, State.fixAt, hcount]
  rfl

/-- The programmable counters leave the fixed ones. -/
theorem pmcInc_fixTally (fuel : Nat) (s : State) {k n : Nat} (hk : k < 16) (hn : n < 512) :
    (State.pmcInc fuel s k).fixTally n = s.fixTally n := by
  refine pmcInc_keeps (State.fixTally · n) (P := (· < 16)) (fun _ _ _ h => h) (fun _ _ _ _ => rfl) (fun t k hk => ?_)
    (fun t k => sample_fixTally t k hn) (fun t => raise_fixTally t (by decide) n) fuel s k hk
  have hbeside : Reg.pmuOvf (n / 32) ≠ Reg.pmcSel k := by
    unfold Reg.pmuOvf Reg.pmcSel
    omega
  rw [State.fixTally, State.rd_stick, if_neg hbeside]
  rfl

theorem fixInc_wraps {s : State} {n : Nat} (hfull : s.fixAt n = 2 ^ 48 - 1) :
    (s.fixInc n).fixTally n = (0, orBit (s.rd (Reg.pmuOvf (n / 32))) (n % 32)) := by
  unfold State.fixInc
  rw [if_neg (by rw [hfull]; decide), raise_fixTally _ (by decide), State.fixTally, State.rd_stick, if_pos rfl]
  exact Prod.ext (Tab.get_set_self (fun _ => 0) s.pmuFix n 0) rfl

theorem perf_fixTally {s : State} {n : Nat} (hn : n < 512) (hfull : s.fixAt n = 2 ^ 48 - 1) :
    (s.perf n).fixTally n = (0, orBit (s.rd (Reg.pmuOvf (n / 32))) (n % 32)) :=
  (foldl_keeps_of_mem (State.fixTally · n) _ _ _ fun t _ hk =>
    ite_keeps (State.fixTally · n) (pmcInc_fixTally 4 t (List.mem_range.mp hk) hn) rfl).trans (fixInc_wraps hfull)

theorem exec_fixedCounterWrap {s : State} {n : Nat} (hup : s.life = .up) (hn : n < 512) (hnamed : perfNamed n = true)
    (hfull : s.fixAt n = 2 ^ 48 - 1) : exec (.fixedCounterWrap n) s = .next (s.perf n) := by
  refine (onUnit_event hn hup _).trans (congrArg _ (if_pos ?_))
  rw [hfull, hnamed]
  decide

end Sys2Proof.Machine

open Sys2Proof Sys2Proof.Machine

/-- Settles O54: each counter by what its own turn leaves, each message by the issue that it waits for. -/
theorem countersAndMessagesComplete : Obligations.CountersAndMessagesComplete := by
  refine ⟨fun s a src hsrc hstat => ⟨?_, count_below, fun hhalf c hc hroute hne => count_half hsrc hc hhalf hroute hne⟩,
    fun s hup => ⟨?_, ?_, ?_, ?_⟩⟩
  · refine count_rd_self s hsrc ?_
    rintro ⟨c, j, hc, hj, rfl⟩
    exact hstat c j hc hj rfl
  · intro c hc hrole hpend hfirst
    obtain ⟨hmsix, hlast, -⟩ := messaged_reads (s.written c) c
    refine ⟨_, exec_evtRearmWrite hup hc hrole hpend hfirst, hmsix.trans ?_, hlast⟩
    rw [State.written, State.cx_onCx_self]
    rfl
  · intro c r hc hwait hlast hdue
    have hexec := exec_eventHoldoffExpiry hup hc hwait hlast hdue
    refine ⟨fun hpend => ?_, fun hpend => ?_⟩
    · obtain ⟨hmsix, -, hwaits⟩ := messaged_reads s c
      exact ⟨_, hexec.trans (congrArg _ (if_pos hpend)), hmsix, hwaits⟩
    · rw [hexec, hpend]
      rfl
  · intro m hm hen hfull hsel hroom
    have hexec := exec_pmuCounterWrap hup hm hen hfull (by rw [hsel]; decide)
    rw [hsel] at hexec
    have htally := perf_wraps hm hen hfull hsel hroom
    refine ⟨_, hexec, congrArg Prod.fst htally, ?_⟩
    rw [State.bitAt, show (s.perf 0x184).rd (Reg.pmcSel m) = _ from congrArg Prod.snd htally]
    exact bit_orBit_self _ (by decide)
  · intro n hn hnamed hfull
    have htally := perf_fixTally hn hfull
    refine ⟨_, exec_fixedCounterWrap hup hn hnamed hfull, congrArg Prod.fst htally, ?_⟩
    rw [State.bitAt, show (s.perf n).rd (Reg.pmuOvf (n / 32)) = _ from congrArg Prod.snd htally]
    exact bit_orBit_self _ (by omega)

end
